-- ==== Sys2Proof/Word.lean ====
section
/-!
DEFINITION. Word.lean: the word types of the OV716 model and their plainest helpers.
-/
namespace Sys2Proof

/-- A byte of any memory (R11). -/
abbrev Byte := BitVec 8

/-- A 32-bit register or word. -/
abbrev W32 := BitVec 32

/-- A 64-bit register or word; the width of s0–s31 (R149). -/
abbrev Word := BitVec 64

/-- The 48-bit step counter (R123, R281). -/
abbrev StepNo := BitVec 48

/-- A device address: 52 bits (R12). -/
abbrev Addr := BitVec 52

end Sys2Proof
end

