-- ==== Sys2Proof/Syntax.lean ====
section
/-!
DEFINITION. Syntax.lean: the commands the module takes, one constructor per row of the table of operations and
events (spec/opcode_table.json), with their operands. A command that the control core issues carries the
hamper and the fields of its instruction word (R155, R156); an event carries what the world decides (which
message, which outcome of a physical event).
-/
namespace Sys2Proof

/-- Who makes an access: the host (whose page is MGMT, R459), the management core, a logical hamper, a module
of the site, or an update unit. -/
inductive Requester where
  | host
  | mgmt
  | hamper (lh : Fin 48)
  | peer (module : Fin 256)
  | unit (u : Fin 20)
  | rambler (die : Fin 2)
deriving DecidableEq, Repr

/-- The conditions of B (R160). -/
inductive Cond where
  | eq | ne | lt | ge | ltu | geu | feq | fne | flt | fle | fgt | fge | any | none | always
deriving DecidableEq, Repr

/-- The system values of MFS (R163). -/
inductive SysVal where
  | lhamper | lcount | context | launch | beat | wrem
deriving DecidableEq, Repr

/-- The value of a tally operation: FLAGS[15:0], or s[RA][31:0] with FLAGS[16] = 1 (R173). -/
inductive TallyVal where
  | imm (n : BitVec 16)
  | reg (ra : Fin 32)
deriving DecidableEq, Repr

/-- The norm base of NORMB: IMM[9:0], or s[RA][9:0] with FLAGS[16] = 1 (R174). -/
inductive NormVal where
  | imm (n : BitVec 10)
  | reg (ra : Fin 32)
deriving DecidableEq, Repr

/-- A physical upset of the beat that the module's checks meet: a rod's carried residue (R65), the duplicated
shift adders of a column (R57), a lane's carried residue (R113), a line the feeder loads (R301), or the parity
of a page's register storage (R302). -/
inductive Upset where
  | rodResidue (lh : Fin 48) (f : Fin 3) (col : Fin 128)
  | shiftAdders (lh : Fin 48) (f : Fin 3) (col : Fin 128)
  | vecResidue (lh : Fin 48) (lane : Fin 256)
  | feedLine (lh : Fin 48)
  | storageParity (page : Nat)
deriving DecidableEq, Repr

/-- What the codes of a store show for an access (R257–R260). -/
inductive Ecc where
  | clean | corrected | uncorrectable
deriving DecidableEq, Repr

/-- The checks of a chunk's first try and, where that fails, of its recomputation (R137). -/
inductive ChunkChecks where
  | good | retried | stopped
deriving DecidableEq, Repr

/-- The header fields of a tally, merge or notice message that decide its handling: its sender (none for the
host), its context, and the step and attempt of a near-mode message (R309, R342, R355). -/
structure MsgHead where
  sender : Option (Fin 256)
  ctx : Fin 16
  step : BitVec 48
  attempt : BitVec 16
deriving DecidableEq, Repr

/-- The session header of a host or near message (R342): port, half, mode, session number, sequence number,
acknowledgement, credit, source address and, in near mode, the peer. -/
structure SessHead where
  port : Fin 10
  half : Fin 2
  near : Option (Fin 256)
  ctx : Fin 16
  session : W32
  seq : W32
  ack : W32
  credit : BitVec 16
  addr : BitVec 128
deriving DecidableEq, Repr

/-- The head of a far message (R342, R385): its sender and the route it came over, its session, its epoch and counter, and whether its tag
verifies. -/
structure FarHead where
  site : Fin 16
  route : Fin 4
  session : W32
  epoch : W32
  counter : W32
  good : Bool
deriving DecidableEq, Repr

/-- The kind of an Ethernet frame as the filters of R340 see it. -/
inductive FrameKind where
  | arp | nd | echo | ptp | vyvex | other
deriving DecidableEq, Repr

/-- A received Ethernet frame as the filters see it (R340, R342, R344). -/
structure RxFrame where
  len : Nat
  fcsGood : Bool
  destOwn : Bool
  broadcast : Bool
  pause : Bool
  vlan : Option (BitVec 12)
  ipPlain : Bool
  kind : FrameKind
  udpPort : BitVec 16
  udpGood : Bool
  header : List Byte
  payload : List Byte
  residueGood : Bool
deriving DecidableEq, Repr

/-- A request waiting at an arbiter's break point (R324–R327): its class, its source within the class, and at an HBM3E controller its
pseudo-channel. -/
structure ArbReq where
  cls : Fin 10
  src : Nat
  pc : Fin 32
deriving DecidableEq, Repr

/-- The PTP messages the ports take (R341). -/
inductive PtpKind where
  | sync | followUp | delayResp
deriving DecidableEq, Repr

/-- A far-mode shard (R386), and whether the body that it completes passes its BODY_HASH (R383). -/
structure ShardMsg where
  stream : Fin 3
  index : Fin 48
  k : Fin 33
  origin : Fin 16
  round : Nat
  msg : Nat
  off : Nat
  total : Nat
  data : List Byte
  bodyGood : Bool
deriving DecidableEq, Repr

/-- A heartbeat's fields (R384, R396). -/
structure HeartbeatMsg where
  composed : Nat
  complete : Nat
  applied : Nat
  table : W32
deriving DecidableEq, Repr

/-- How the chunks of a rambler command fare (R400): the dies whose chunks failed once and passed when recomputed, and the round of the
command, segment and chunk that failed twice, if any. -/
structure RmbChecks where
  retried : List (Fin 2)
  stop : Option (Nat × Nat × Nat)
deriving DecidableEq, Repr

/-- How a start-up goes (R439–R442): the rail group that misses power-good, whether a firmware slot verifies,
the pseudo-channels that fail training and the units that fail self-test. -/
structure StartOutcome where
  railFail : Option (Fin 5)
  slotOk : Bool
  badPcs : List (Fin 16 × Fin 32)
  badUnits : List (BitVec 16)
deriving DecidableEq, Repr

/-- The commands of the OV716, one constructor per row of the table of operations and events. -/
inductive Instr where
  /-- REGISTER_WRITE (R15): A write to a register that has no behaviour of its own takes effect according to its access code, and reserved fields are ignored. -/
  | registerWrite (rq : Requester) (addr : Addr) (wide : Bool) (value : Word)
  /-- PAGE_EXPERT_KEY_WRITE (R17): Writing the page's unlock value unlocks its expert level, and writing any other value locks it. -/
  | pageExpertKeyWrite (page : Nat) (value : W32)
  /-- DRAIN (R436): Writing DRAIN = 1 or ENABLE = 0 to PAGE_CTRL starts a drain of the block at its break points. -/
  | drain (page : Nat)
  /-- ENABLE (R436): Writing ENABLE = 1 to a drained block that has no fault clears DRAINED and returns the block to service. -/
  | enable (page : Nat)
  /-- DEBUG (R205): A write of PAGE_CTRL.DEBUG in the MGMT page selects debug mode while no launch runs. -/
  | debug (on : Bool)
  /-- DRAIN_COMPLETE (R436): A block's drain ends, DRAINED is set and ENABLE reads 0. -/
  | drainComplete (page : Nat)
  /-- NOP (R156): The core issues a NOP instruction, which costs one beat and does nothing. -/
  | nop (lh : Fin 48)
  /-- ADD (R158): The core issues ADD, which writes RA + RB modulo 2^64 to RD. -/
  | add (lh : Fin 48) (rd ra rb : Fin 32)
  /-- SUB (R158): The core issues SUB, which writes RA − RB modulo 2^64 to RD. -/
  | sub (lh : Fin 48) (rd ra rb : Fin 32)
  /-- AND (R158): The core issues AND, which writes the bitwise AND of RA and RB to RD. -/
  | and (lh : Fin 48) (rd ra rb : Fin 32)
  /-- OR (R158): The core issues OR, which writes the bitwise OR of RA and RB to RD. -/
  | or (lh : Fin 48) (rd ra rb : Fin 32)
  /-- XOR (R158): The core issues XOR, which writes the bitwise XOR of RA and RB to RD. -/
  | xor (lh : Fin 48) (rd ra rb : Fin 32)
  /-- SLL (R158): The core issues SLL, which shifts RA left by RB[5:0]. -/
  | sll (lh : Fin 48) (rd ra rb : Fin 32)
  /-- SRL (R158): The core issues SRL, which shifts RA right logically by RB[5:0]. -/
  | srl (lh : Fin 48) (rd ra rb : Fin 32)
  /-- SRA (R158): The core issues SRA, which shifts RA right arithmetically by RB[5:0]. -/
  | sra (lh : Fin 48) (rd ra rb : Fin 32)
  /-- MUL (R158): The core issues MUL, which writes the low 64 bits of RA × RB to RD. -/
  | mul (lh : Fin 48) (rd ra rb : Fin 32)
  /-- MIN (R158): The core issues MIN, which writes the signed minimum of RA and RB to RD. -/
  | min (lh : Fin 48) (rd ra rb : Fin 32)
  /-- MAX (R158): The core issues MAX, which writes the signed maximum of RA and RB to RD. -/
  | max (lh : Fin 48) (rd ra rb : Fin 32)
  /-- SLT (R158): The core issues SLT, which writes 1 to RD if RA < RB signed, otherwise 0. -/
  | slt (lh : Fin 48) (rd ra rb : Fin 32)
  /-- SLTU (R158): The core issues SLTU, which writes 1 to RD if RA < RB unsigned, otherwise 0. -/
  | sltu (lh : Fin 48) (rd ra rb : Fin 32)
  /-- ADDI (R156): The core issues ADDI, which writes RA + IMM to RD. -/
  | addi (lh : Fin 48) (rd ra : Fin 32) (imm : BitVec 46)
  /-- ANDI (R158): The core issues ANDI, which writes RA AND the sign-extended IMM to RD. -/
  | andi (lh : Fin 48) (rd ra : Fin 32) (imm : BitVec 46)
  /-- ORI (R158): The core issues ORI, which writes RA OR the sign-extended IMM to RD. -/
  | ori (lh : Fin 48) (rd ra : Fin 32) (imm : BitVec 46)
  /-- XORI (R158): The core issues XORI, which writes RA XOR the sign-extended IMM to RD. -/
  | xori (lh : Fin 48) (rd ra : Fin 32) (imm : BitVec 46)
  /-- SLLI (R156): The core issues SLLI, which shifts RA left by an immediate amount. -/
  | slli (lh : Fin 48) (rd ra : Fin 32) (imm : BitVec 46)
  /-- SRLI (R156): The core issues SRLI, which shifts RA right logically by an immediate amount. -/
  | srli (lh : Fin 48) (rd ra : Fin 32) (imm : BitVec 46)
  /-- SRAI (R156): The core issues SRAI, which shifts RA right arithmetically by an immediate amount. -/
  | srai (lh : Fin 48) (rd ra : Fin 32) (imm : BitVec 46)
  /-- LI (R156): The core issues LI, which writes the sign-extended IMM to RD. -/
  | li (lh : Fin 48) (rd : Fin 32) (imm : BitVec 46)
  /-- LIH (R156): The core issues LIH, which writes IMM[17:0] into RD[63:46] and keeps RD[45:0]. -/
  | lih (lh : Fin 48) (rd : Fin 32) (imm : BitVec 46)
  /-- LDS (R159): The core issues LDS, which loads a 64-bit pantry word into RD and makes it available four beats later. -/
  | lds (lh : Fin 48) (rd ra : Fin 32) (imm : BitVec 46)
  /-- LDW (R159): The core issues LDW, which loads a zero-extended 32-bit pantry word into RD. -/
  | ldw (lh : Fin 48) (rd ra : Fin 32) (imm : BitVec 46)
  /-- STS (R159): The core issues STS, which stores RD as a 64-bit pantry word at the end of its beat. -/
  | sts (lh : Fin 48) (rd ra : Fin 32) (imm : BitVec 46)
  /-- STW (R159): The core issues STW, which stores RD[31:0] as a 32-bit pantry word at the end of its beat. -/
  | stw (lh : Fin 48) (rd ra : Fin 32) (imm : BitVec 46)
  /-- B (R160): The core issues a conditional branch, which goes to PC + 8 × OFF when COND holds. -/
  | b (lh : Fin 48) (cond : Cond) (ra rb : Fin 32) (off : BitVec 32)
  /-- JAL (R156): The core issues JAL, which links PC + 8 into RD and jumps relative to PC. -/
  | jal (lh : Fin 48) (rd : Fin 32) (imm : BitVec 46)
  /-- JR (R161): The core issues JR, which jumps to s[RA] with bits [2:0] cleared and sets ALIGN if they were nonzero. -/
  | jr (lh : Fin 48) (ra : Fin 32)
  /-- SKIP (R156): The core issues SKIP, which idles the core for IMM beats. -/
  | skip (lh : Fin 48) (n : BitVec 32)
  /-- WINDOW (R175): The core issues WINDOW, which opens a stealing window of N beats. -/
  | window (lh : Fin 48) (n : BitVec 32) (exit : BitVec 24)
  /-- WINDOW_CLOSE (R177): At the end of a window's last beat the window closes: registers are restored, window summaries are hidden, and issue continues at EXIT. -/
  | windowClose (lh : Fin 48)
  /-- END (R162): The core issues END, which stops issue for the logical hamper. -/
  | end_ (lh : Fin 48)
  /-- ILLEGAL_INSTRUCTION (R157): The core meets an illegal word: it sets ILLEGAL, records HAM_FAULT_PC, emits PROGRAM_FAULT and ends the program. -/
  | illegalInstruction (lh : Fin 48) (word : BitVec 64)
  /-- MFS (R163): The core issues MFS, which reads a system value into RD. -/
  | mfs (lh : Fin 48) (rd : Fin 32) (src : SysVal)
  /-- SUMR (R164): The core issues SUMR, which reads a field of the latest summary record of a source into RD. -/
  | sumr (lh : Fin 48) (rd : Fin 32) (src : Fin 5) (field : Fin 11)
  /-- PASS (R50): The core issues PASS, which starts a frame pass from its descriptor, or refuses it as malformed or overlapping. -/
  | pass (lh : Fin 48) (f : Fin 3) (ra : Fin 32) (imm : BitVec 24)
  /-- LOAD (R48): The core issues LOAD, which starts a weight load into the shadow registers, straight or from a turning buffer. -/
  | load (lh : Fin 48) (f : Fin 3) (ra : Fin 32) (imm : BitVec 24)
  /-- TURN (R77): The core issues TURN, which reads 128 stored rows into a turning buffer. -/
  | turn (lh : Fin 48) (f : Fin 3) (ra : Fin 32) (imm : BitVec 24)
  /-- VCALL (R97): The core issues VCALL, which starts a vector call from its descriptor, or refuses it as malformed or overlapping. -/
  | vcall (lh : Fin 48) (ra : Fin 32) (imm : BitVec 24)
  /-- RLOAD (R170): The core issues RLOAD, which reads recipe words from the pantry into a recipe slot. -/
  | rload (lh : Fin 48) (ra : Fin 32) (imm : BitVec 24) (slot : Fin 64) (length : BitVec 6)
  /-- RLOAD_COMMIT (R170): In its third beat an RLOAD commits the slot under the checks of R105. -/
  | rloadCommit (lh : Fin 48)
  /-- PUSH (R83): The core issues PUSH, which starts a stash push, or refuses it. -/
  | push (lh : Fin 48) (stack : Fin 8) (ra : Fin 32) (imm : BitVec 24)
  /-- POP (R84): The core issues POP, which starts a stash pop, or refuses it. -/
  | pop (lh : Fin 48) (stack : Fin 8) (ra : Fin 32) (imm : BitVec 24)
  /-- DMA (R172): The core issues DMA, which starts a scheduled or open byte copy from its descriptor. -/
  | dma (lh : Fin 48) (ra : Fin 32) (imm : BitVec 24)
  /-- SIG (R173): The core issues SIG, which sends a signal of n to a translated tally. -/
  | sig (lh : Fin 48) (vid : BitVec 12) (n : TallyVal)
  /-- WAITO (R173): The core issues WAITO, which sends an observe-wait and stalls until it is released. -/
  | waito (lh : Fin 48) (rd : Fin 32) (vid : BitVec 12) (n : TallyVal)
  /-- WAITC (R173): The core issues WAITC, which sends a consume-wait and stalls until it is released. -/
  | waitc (lh : Fin 48) (rd : Fin 32) (vid : BitVec 12) (n : TallyVal)
  /-- BARR (R240): The core issues BARR, which arrives at a barrier slot and waits if FLAGS[0] = 1. -/
  | barr (lh : Fin 48) (rd : Fin 32) (vid : BitVec 12) (wait : Bool)
  /-- POST (R216): The core issues POST, which hands a work item or merge record to a list. -/
  | post (lh : Fin 48) (ra : Fin 32) (imm : BitVec 24) (own : Bool) (target : Fin 48)
  /-- TAKE (R218): The core issues TAKE, which removes the visible head item whose cost fits the window and returns its handle. -/
  | take (lh : Fin 48) (rd : Fin 32)
  /-- STEAL (R220): The core issues STEAL, which starts probing victims in order from LIST_CURSOR. -/
  | steal (lh : Fin 48)
  /-- SEAL (R174): The core issues SEAL, which waits until nothing of the hamper is outstanding and then lets the seal request leave. -/
  | sealOp (lh : Fin 48) (ra : Fin 32)
  /-- SEAL_REQUEST_LEAVE (R174): A seal request leaves in beat tq, carrying and emptying the step counts, norm and digest accumulators, and GSTEP advances. -/
  | sealRequestLeave (lh : Fin 48)
  /-- NORMB (R174): The core issues NORMB, which sets the norm base NB and clears the norm accumulator. -/
  | normb (lh : Fin 48) (v : NormVal)
  /-- SWEEP (R127): The core issues SWEEP, which asks UC to start or resume the update sweep at a descriptor address. -/
  | sweep (lh : Fin 48) (ra : Fin 32) (resume : Bool)
  /-- BEAT_ADVANCE (R182): A compute die completes a beat once every scheduled unit has acknowledged and the other dies are within 6 beats, then begins the next beat. -/
  | beatAdvance (die : Fin 4) (upsets : List Upset) (slowest : Option (Nat × Nat))
  /-- PASS_COMPLETE (R165): A pass reaches its last beat and posts its drain summary. -/
  | passComplete (lh : Fin 48) (f : Fin 3)
  /-- LOAD_COMPLETE (R48): A weight load ends after 128 beats with the shadow tile and MW recorded. -/
  | loadComplete (lh : Fin 48) (f : Fin 3)
  /-- TURN_COMPLETE (R77): A TURN ends after 128 beats with the turning buffer filled and its parameters recorded. -/
  | turnComplete (lh : Fin 48) (f : Fin 3)
  /-- VCALL_COMPLETE (R110): A vector call reaches its last beat and posts its summary record. -/
  | vcallComplete (lh : Fin 48)
  /-- PUSH_COMPLETE (R83): A stash push writes its trailer and completes its beat count. -/
  | pushComplete (lh : Fin 48)
  /-- POP_COMPLETE (R84): A stash pop completes its beat count with its payload written or refused. -/
  | popComplete (lh : Fin 48)
  /-- STASH_EXTENSION_ARRIVAL (R86): Payload or trailer data of an extension-part pop arrives from LPDDR5X and releases the stalled beat. -/
  | stashExtensionArrival (lh : Fin 48) (payload : Bool)
  /-- SCHEDULED_DMA_COMPLETE (R172): A scheduled DMA reaches the end of its beat count with its writes complete. -/
  | scheduledDmaComplete (lh : Fin 48)
  /-- OPEN_DMA_COMPLETE (R172): An open DMA finishes its copy and, with TALLY_EN, signals its tally. -/
  | openDmaComplete (i : Nat)
  /-- BEAT_WATCHDOG (R187): A beat stays incomplete beyond MG_WD_LIMIT: the unit is recorded, BEAT_WATCHDOG is emitted and the owning contexts are reset. -/
  | beatWatchdog (die : Fin 4)
  /-- FRAME_INJECT (R68): A write to FRAME_INJECT arms inversion of a carried residue bit at the next drain of a column. -/
  | frameInject (page : Nat) (value : W32)
  /-- FRAME_BIST (R68): Writing START to FRAME_BIST while the frame is idle starts its self-test. -/
  | frameBist (page : Nat) (value : W32)
  /-- BIST_COMPLETE (R68): A block self-test finishes and sets DONE and PASS. -/
  | bistComplete (page : Nat) (good : Bool)
  /-- STASH_DESCRIPTOR_WRITE (R92): A write to a stack's base, size or owner takes effect, or is ignored and sets MALFORMED. -/
  | stashDescriptorWrite (page : Nat) (off : Nat) (value : Word)
  /-- VEC_RSTORE_DATA_READ (R116): A read of VEC_RSTORE_DATA returns the instruction word and advances INDEX. -/
  | vecRstoreDataRead (page : Nat)
  /-- VEC_RSTORE_DATA_WRITE (R106): A write of VEC_RSTORE_DATA stores an instruction word, clears the slot's valid bit and advances INDEX, unless the slot is in use. -/
  | vecRstoreDataWrite (page : Nat) (value : W32)
  /-- VEC_RSTORE_COMMIT (R105): Writing VEC_RSTORE_COMMIT checks the slot and marks it valid, or records the first failing check. -/
  | vecRstoreCommit (page : Nat) (value : W32)
  /-- VEC_INJECT (R116): A write to VEC_INJECT arms inversion of a residue bit at the next ST in a lane. -/
  | vecInject (page : Nat) (value : W32)
  /-- VEC_BIST (R116): Writing START to VEC_BIST while the engine is idle starts its self-test. -/
  | vecBist (page : Nat) (value : W32)
  /-- HAM_SREG_DATA_WRITE (R180): A write to HAM_SREG_DATA sets the selected s-register while the core is idle or ended. -/
  | hamSregDataWrite (page : Nat) (value : Word)
  /-- SEAL_REQUEST (R123): A hamper's seal request reaches UC and is collected, held for the next step, or ignored. -/
  | sealRequest (i : Nat)
  /-- SWEEP_GO (R127): Writing GO to UC_CTRL starts or resumes a sweep from UC_SWEEP_DESC, or refuses it. -/
  | sweepGo (value : W32)
  /-- NORM_CANCEL (R125): Writing NORM_CANCEL ends the norm wait without closing, and a waiting sweep ends FAILED. -/
  | normCancel (value : W32)
  /-- SEAL_REOPEN (R143): Writing SEAL_REOPEN returns the seal to OPEN, discards held work and resets the sweep state, or is ignored with BUSY. -/
  | sealReopen (value : W32)
  /-- UC_STEP_WRITE (R146): A write to UC_STEP sets the step counter only while the seal is OPEN with nothing collected and no sweep is running or partial. -/
  | ucStepWrite (value : Word)
  /-- CHUNK_COMMIT (R137): An update unit's chunk passes its checks and its writes are accepted, so the chunk commits in order. -/
  | chunkCommit (u : Fin 20) (checks : ChunkChecks)
  /-- UC_RSTORE_DATA_READ (R132): A read of UC_RSTORE_DATA returns the instruction word and advances INDEX. -/
  | ucRstoreDataRead
  /-- UC_RSTORE_DATA_WRITE (R132): A write of UC_RSTORE_DATA stores a word in all twenty units, unless a sweep is running. -/
  | ucRstoreDataWrite (value : W32)
  /-- UC_RSTORE_COMMIT (R131): Writing UC_RSTORE_COMMIT checks the update recipe in every unit and marks the slot valid, or records the fault. -/
  | ucRstoreCommit (value : W32)
  /-- UPD_INJECT (R145): A write to UPD_INJECT arms inversion of one stored residue bit in the next chunk. -/
  | updInject (u : Fin 20) (value : W32)
  /-- UPD_BIST (R145): Writing START to UPD_BIST while the unit is inactive starts its self-test. -/
  | updBist (u : Fin 20) (value : W32)
  /-- IMAGE_LOAD (R197): Writing GO to MG_LOAD_CTRL starts loading the staged program image into a context. -/
  | imageLoad (value : W32)
  /-- UNLOAD (R197): Writing UNLOAD to MG_LOAD_CTRL frees an image's placements once no launch of it runs. -/
  | unload (value : W32)
  /-- PATCH (R198): Writing PATCH to MG_LOAD_CTRL applies the symbol relocation records from MG_PATCH_ADDR. -/
  | patch (value : W32)
  /-- LOADER_COMMAND_DONE (R197): A load, unload or patch finishes and reports done or refused in MG_LOAD_STATUS. -/
  | loaderCommandDone
  /-- HAZ_LOG_CLEAR (R208): Writing CLEAR_LOG to PAN_HAZ_CTRL clears the hazard log. -/
  | hazLogClear (page : Nat) (value : W32)
  /-- ITEM_VISIBLE (R216): A posted or stolen item's operand fetch completes and the item becomes visible. -/
  | itemVisible (lh : Fin 48)
  /-- STEAL_PROBE (R220): A probe reaches a victim's list unit, which removes up to want items from its tail. -/
  | stealProbe (lh : Fin 48)
  /-- PROBE_ANSWER (R221): A probe's answer reaches the thief, which appends the items or advances the cursor past an empty victim. -/
  | probeAnswer (lh : Fin 48)
  /-- BASKET_MERGE (R62): A merged basket row arrives at its target and its occupied slots are added, then the target tally is signalled. -/
  | basketMerge (i : Nat)
  /-- LIST_CONFIG_WRITE (R228): A write to a list's configuration takes effect, or is ignored and sets MALFORMED. -/
  | listConfigWrite (page : Nat) (off : Nat) (value : W32)
  /-- LIST_FLUSH (R228): Writing FLUSH discards every item of the list while no launch of its context runs. -/
  | listFlush (page : Nat) (value : W32)
  /-- TALLY_SIGNAL (R234): A signal reaches its tally's bank, adds with saturation and serves the queues. -/
  | tallySignal (i : Nat)
  /-- TALLY_OBSERVE_WAIT (R234): An observe-wait request reaches the bank and is released at once or queued. -/
  | tallyObserveWait (i : Nat)
  /-- TALLY_CONSUME_WAIT (R234): A consume-wait request reaches the bank and is released with subtraction or appended to the consume queue. -/
  | tallyConsumeWait (i : Nat)
  /-- BARRIER_ARRIVAL (R240): An arrival reaches a barrier slot and is recorded for GEN or GEN + 1, or refused. -/
  | barrierArrival (i : Nat)
  /-- TLY_COUNT_SET (R248): A write to TLY_COUNT_SET writes the selected LOCAL count and serves its queues, or is refused. -/
  | tlyCountSet (value : W32)
  /-- TLY_BAR_REPAIR (R243): Writing GO to TLY_BAR_REPAIR clears BROKEN, the masks and GEN of a slot that has no waiters. -/
  | tlyBarRepair (value : W32)
  /-- LENDING (R246): A core domain's beat stays incomplete in a tally wait beyond TLY_LEND_THRESH, and its voltage is lowered and the budget lent. -/
  | lending (die : Fin 4)
  /-- TALLY_SIGNAL_MESSAGE (R355): A TALLY message with OP SIGNAL applies a signal to the named VID. -/
  | tallySignalMessage (m : MsgHead) (vid : BitVec 16) (n : W32)
  /-- TALLY_WATCH (R355): A TALLY message with OP WATCH places a remote observe-wait in the remote-waiter table. -/
  | tallyWatch (m : MsgHead) (vid : BitVec 16) (target token : W32)
  /-- TALLY_CONSUME (R355): A TALLY message with OP CONSUME places a remote consume-wait in the remote-waiter table. -/
  | tallyConsume (m : MsgHead) (vid : BitVec 16) (n token : W32)
  /-- TALLY_ARRIVE (R242): A TALLY message with OP ARRIVE records a host or peer barrier arrival. -/
  | tallyArrive (m : MsgHead) (vid : BitVec 16) (gen : W32)
  /-- TALLY_RELEASE (R355): A TALLY message with OP RELEASE answers a remote wait that this module sent. -/
  | tallyRelease (m : MsgHead) (abandoned : Bool) (vid : BitVec 16) (token count : W32)
  /-- BARRIER_ABANDON (R245): A TALLY message with OP BARRIER_ABANDON marks the named site barrier slot BROKEN. -/
  | barrierAbandon (m : MsgHead) (vid : BitVec 16)
  /-- MEMORY_WRITE (R258): A write reaches a memory or the pantry, forms its code, checks residues and stores the data. -/
  | memoryWrite (rq : Requester) (addr : Addr) (data : List Byte) (badWords : List Nat)
  /-- MEMORY_READ (R259): A read is corrected, given fresh word residues and sent. -/
  | memoryRead (rq : Requester) (addr : Addr) (len : Nat) (ecc : Ecc)
  /-- SCRUB (R261): A controller's scrub reads its next access unit and writes back any correction. -/
  | scrub (hbm : Bool) (ctl : Fin 16) (ecc : Ecc) (overwritten : Bool)
  /-- ROW_COPY_COMPLETE (R263): A spare-row copy ends, the row is served from the spare and ROW_RETIRED is emitted. -/
  | rowCopyComplete (ctl : Fin 16)
  /-- LARDER_COPY_COMPLETE (R264): A larder copy ends, the pseudo-channel is served from the larder and PC_RETIRED is emitted. -/
  | larderCopyComplete (ctl : Fin 16) (bad : List Nat)
  /-- REPAIR_COMPLETE (R266): A post-package repair ends, the row is written back and the channel resumes. -/
  | repairComplete (ctl : Fin 16)
  /-- HBM_INJECT (R270): A write to HBM_INJECT arms an injected correctable, uncorrectable or write-check error at HBM_INJECT_ADDR. -/
  | hbmInject (ctl : Fin 16) (value : W32)
  /-- HBM_RETIRE_ROW (R270): A write to HBM_RETIRE_ROW retires the named row at once, or is refused with RETIRE_REFUSED. -/
  | hbmRetireRow (ctl : Fin 16) (value : Word)
  /-- LPC_INJECT (R273): A write to LPC_INJECT arms an injected error at LPC_INJECT_ADDR. -/
  | lpcInject (ctl : Fin 16) (value : W32)
  /-- LEDGER_ACK (R361): A LEDGER_ACK from the host frees the slot of the named exported record. -/
  | ledgerAck (step : BitVec 48)
  /-- LED_RESET_RING (R296): Writing GO to LED_RESET_RING marks every ledger slot free, unless a launch runs. -/
  | ledResetRing (value : W32)
  /-- LED_SEED_WRITE (R280): A write of a context seed takes effect, or is refused with SEED_REFUSED during its launch. -/
  | ledSeedWrite (high : Bool) (value : Word)
  /-- LED_CONFIG_WRITE (R296): A write to LED_BASE, LED_SLOTS or LED_EXPORT takes effect, or is refused with CONFIG_REFUSED. -/
  | ledConfigWrite (off : Nat) (value : Word)
  /-- SC_MEASUREMENT (R290): A measurement from the selected source yields an offset that steps or slews the site count and drives the lock state. -/
  | scMeasurement (offset : Int)
  /-- SOURCE_LOST (R290): No measurement arrives for three intervals, so the count enters HOLDOVER and SOURCE_LOST is emitted. -/
  | sourceLost
  /-- HOLDOVER_LIMIT (R290): SC_HOLDOVER_LIMIT seconds in holdover elapse and the count becomes UNLOCKED. -/
  | holdoverLimit
  /-- SC_SOURCE_WRITE (R298): A write to SC_SOURCE selects the discipline source and enters ACQUIRING or FREE. -/
  | scSourceWrite (value : W32)
  /-- SC_SET (R298): A write to SC_SET sets the count now or at the next 1PPS edge, or is refused with SET_REFUSED. -/
  | scSet (value : Word)
  /-- LAUNCH (R353): A LAUNCH message is accepted and held or started, or refused, and LAUNCH_REPLY is returned. -/
  | launch (ctx : Fin 16) (handle : BitVec 16) (count : Word) (at_ : Word)
  /-- LAUNCH_START (R292): A held launch starts when its count reaches LAUNCH_AT and its hampers are free. -/
  | launchStart (ctx : Fin 16)
  /-- LAUNCH_DONE (R353): Every hamper of the image has ended and its operations have completed, so LAUNCH_DONE is emitted. -/
  | launchDone (ctx : Fin 16)
  /-- STEP_REPLAY (R305): Once outstanding transfers have completed, the hampers take their replay points, the seal opens and issue resumes. -/
  | stepReplay
  /-- REFUSAL_NOTICE (R308): A NOTICE of TYPE 0 from a domain member is charged, ignored or reported late according to the attempt. -/
  | refusalNotice (module : Fin 256) (ctx : Fin 16) (step : BitVec 48) (attempt : BitVec 16)
  /-- MEMBER_DRAINED (R314): A NOTICE of TYPE 1 reports that a member has drained, and its session is treated as lost. -/
  | memberDrained (module : Fin 256)
  /-- MODULE_DRAIN_COMPLETE (R314): After outstanding transfers complete, MEMBER_DRAINED is sent and DRAINING clears. -/
  | moduleDrainComplete
  /-- LAGGARD_EVALUATION (R317): The periodic laggard evaluation adjusts die voltage and declares suspects. -/
  | laggardEvaluation (unit : BitVec 16)
  /-- FLT_REPORT (R318): A write to FLT_REPORT counts an escape, emits ESCAPE_REPORTED and charges a unit if CHARGE is set. -/
  | fltReport (value : Word)
  /-- FLT_FLAG_CLEAR (R315): Writing the correct clear code clears the replace flag, otherwise CLEAR_REFUSED is set. -/
  | fltFlagClear (value : W32)
  /-- MG_FLASH_ERASE_LOG (R475): Writing GO erases the counted fault records when no launch runs and the module is not flagged. -/
  | mgFlashEraseLog (value : W32)
  /-- MG_EVENT_TEST (R475): A write to MG_EVENT_TEST emits the named event from the MGMT page. -/
  | mgEventTest (value : W32)
  /-- ARBITRATION (R327): At a break point the arbiter grants the next unit by quota, credit and turn. -/
  | arbitration (arb : Fin 58) (requests : List ArbReq)
  /-- ARB_CUTOFF (R332): A granted unit not complete within ARB_HOLD_NS is cut off, counted and reported, and the arbiter re-arbitrates. -/
  | arbCutoff (arb : Fin 58) (write : Bool) (requests : List ArbReq)
  /-- ARB_CONFIG_WRITE (R328): A write to an arbiter's window, class or priority register is accepted or refused with CONFIG. -/
  | arbConfigWrite (page : Nat) (off : Nat) (value : W32)
  /-- LANE_RETRAIN (R339): A lane loses lock or exceeds 16 uncorrected codewords in 1 ms and is retrained. -/
  | laneRetrain (port : Fin 10) (lane : Fin 8)
  /-- LINK_UP (R339): A port's training or retraining completes and its link comes up. -/
  | linkUp (port : Fin 10) (half : Fin 2)
  /-- PORT_CFG_WRITE (R338): A write changing SPLIT or IFACE retrains the port in its new form and loses its sessions. -/
  | portCfgWrite (port : Fin 10) (value : W32)
  /-- PORT_LANE_RETIRE (R362): Writing GO to PORT_LANE_RETIRE retires the named lane. -/
  | portLaneRetire (port : Fin 10) (value : W32)
  /-- FRAME_RECEIVE (R340): An Ethernet frame arrives, is checked and filtered, and is dropped or passed to its protocol. -/
  | frameReceive (port : Fin 10) (half : Fin 2) (frame : RxFrame)
  /-- ARP_REQUEST (R340): An ARP request for the port's address is answered. -/
  | arpRequest (port : Fin 10) (half : Fin 2) (ip : BitVec 128)
  /-- NEIGHBOUR_SOLICITATION (R340): An IPv6 neighbour solicitation for the port's address is answered. -/
  | neighbourSolicitation (port : Fin 10) (half : Fin 2) (ip : BitVec 128)
  /-- ICMP_ECHO (R340): An ICMP echo request is answered within the per-second limit. -/
  | icmpEcho (port : Fin 10) (half : Fin 2)
  /-- PTP_MESSAGE (R341): A PTP message is hardware-timestamped and used to discipline the site count. -/
  | ptpMessage (port : Fin 10) (kind : PtpKind) (domain : BitVec 8) (offset : Int)
  /-- OPEN (R345): An OPEN is answered with OPEN_ACK, refused with CLOSE or dropped, and may move the event sink. -/
  | openMsg (m : SessHead) (events : Bool)
  /-- OPEN_ACK (R347): An OPEN_ACK establishes a near session and grants initial credit. -/
  | openAck (m : SessHead)
  /-- CLOSE (R351): A CLOSE ends or refuses a session. -/
  | closeMsg (m : SessHead) (reason : W32)
  /-- ACK (R345): An ACK acknowledges frames, frees credit and dequeues acknowledged events. -/
  | ack (m : SessHead) (sack : Word)
  /-- PAGE_READ (R352): A PAGE_READ reads COUNT registers and is answered with PAGE_REPLY. -/
  | pageRead (m : SessHead) (addr : Word) (wide : Bool) (count : BitVec 8) (tag : W32)
  /-- PAGE_WRITE (R352): A PAGE_WRITE writes COUNT registers in address order and is answered with PAGE_REPLY. -/
  | pageWrite (m : SessHead) (addr : Word) (wide : Bool) (values : List Word) (tag : W32)
  /-- BULK_READ (R352): A BULK_READ reads a device-memory range and returns BULK_DATA frames. -/
  | bulkRead (m : SessHead) (addr : Word) (len : W32) (tag : W32)
  /-- BULK_WRITE (R352): A BULK_WRITE writes a device-memory range, signals its tally if enabled and returns BULK_DONE. -/
  | bulkWrite (m : SessHead) (addr : Word) (data : List Byte) (vid : Option (BitVec 12)) (tag : W32) (badWords : List Nat)
  /-- BULK_DATA (R352): A BULK_DATA frame delivers read data for a bulk read this module made. -/
  | bulkData (m : SessHead) (tag offset status : W32) (data : List Byte) (last : Bool)
  /-- BULK_DONE (R352): A BULK_DONE reports completion of a bulk write this module made. -/
  | bulkDone (m : SessHead) (tag status : W32)
  /-- MERGE (R356): A MERGE message carries a basket row to the target frame's merge port, under the attempt rules of R309. -/
  | merge (m : MsgHead) (dst tally : W32) (slots : List (BitVec 128))
  /-- SYNC (R290): A SYNC message performs the near-link timestamp exchange for site-count discipline. -/
  | sync (module : Fin 256) (offset : Int)
  /-- HOST_RESEND_TIMEOUT (R345): An unacknowledged host frame is resent after VYV_HOST_RTO, doubling, and the session is lost after VYV_HOST_RETRIES. -/
  | hostResendTimeout (session : Nat) (seq : W32)
  /-- NEAR_IDLE_ACK (R347): An idle near session sends an ACK every 10 µs. -/
  | nearIdleAck (module : Fin 256)
  /-- CREDIT_ACK_TIMER (R350): 2 µs after an unsent credit rise, the receiver sends an ACK. -/
  | creditAckTimer (module : Fin 256)
  /-- SESSION_LOST (R348): A near session sees no frame within VYV_NEAR_TIMEOUT and is lost, with failures charged and the session reopened. -/
  | sessionLost (module : Fin 256)
  /-- COMPOSE (R374): A COMPOSE command selects, converts and writes the round's contribution body, residual and parameters. -/
  | compose (checks : RmbChecks)
  /-- APPLY (R389): An APPLY command merges and applies every complete round in order and writes the manifests. -/
  | apply (checks : RmbChecks)
  /-- JOIN (R397): A JOIN command fetches and checks a snapshot, installs it and applies the archived rounds. -/
  | join (checks : RmbChecks)
  /-- RAMBLER_COMMAND_DONE (R370): A rambler command finishes, writes STATUS and CURSOR, and signals its tally. -/
  | ramblerCommandDone
  /-- SHARD (R383): An authenticated SHARD is stored, its message is decoded when k shards are held, and verified bodies are archived. -/
  | shard (m : FarHead) (sh : ShardMsg)
  /-- RECEIPT (R384): A RECEIPT marks a sent message as decoded at the peer. -/
  | receipt (m : FarHead) (msg : Word)
  /-- NEED (R382): A NEED is answered with k − h + 1 unsent parity shards, or by re-issue when parity runs out. -/
  | need (m : FarHead) (msg : Word) (held : Nat)
  /-- HEARTBEAT (R396): A HEARTBEAT keeps its route up and reports the peer's rounds and member-table CRC. -/
  | heartbeat (m : FarHead) (hb : HeartbeatMsg)
  /-- REQUEST_SNAPSHOT (R397): A REQUEST of TYPE 0 is answered with the served snapshot as a STREAM-1 body. -/
  | requestSnapshot (m : FarHead)
  /-- REQUEST_ARCHIVE (R398): A REQUEST of TYPE 1 is answered with the archived bodies of the named rounds, or empty bodies. -/
  | requestArchive (m : FarHead) (first last : Nat)
  /-- NEED_TIMER (R382): No shard of a partly received message arrives for RMB_NEED_US, so a NEED is sent. -/
  | needTimer (site : Fin 16) (msg : Word)
  /-- RESEND_TIMER (R382): No RECEIPT arrives within RMB_RESEND_US, so two unsent parity shards are sent. -/
  | resendTimer (site : Fin 16) (msg : Word)
  /-- HEARTBEAT_TIMER (R396): Every HB_MS a member sends a heartbeat on every route. -/
  | heartbeatTimer
  /-- ROUTE_TIMEOUT (R367): No authentic message arrives over a route for three heartbeat intervals, so the route goes down. -/
  | routeTimeout (site : Fin 16) (route : Fin 4)
  /-- FAR_HELLO (R419): A FAR_HELLO is checked and answered with a signed FAR_HELLO_ACK. -/
  | farHello (m : FarHead) (body : List Byte)
  /-- FAR_HELLO_ACK (R419): A FAR_HELLO_ACK is checked and answered with KEY for epoch 0. -/
  | farHelloAck (m : FarHead) (body : List Byte)
  /-- FAR_HELLO_TIMER (R418): Every 1 s the lower-indexed member sends FAR_HELLO to each VALID peer without a session. -/
  | farHelloTimer
  /-- KEY (R420): A KEY is verified and unwrapped, acknowledged with KEY_ACK, or discarded with KEY_TRANSPORT. -/
  | key (m : FarHead) (body : List Byte)
  /-- KEY_ACK (R387): A KEY_ACK records that the peer holds the sender's key. -/
  | keyAck (m : FarHead) (epoch : W32)
  /-- FAR_CLOSE (R420): A FAR_CLOSE ends the far session and erases its keys. -/
  | farClose (m : FarHead)
  /-- REKEY_THRESHOLD (R387): An epoch reaches 2^28 − 2^24 values or 3,540 s, so KEY for the next epoch is sent. -/
  | rekeyThreshold
  /-- EPOCH_END (R387): An epoch reaches 2^28 values or 3,600 s and the sender switches to the next epoch. -/
  | epochEnd
  /-- KEY_REPEAT (R387): Every 1 s KEY is repeated to peers that have not acknowledged. -/
  | keyRepeat
  /-- KEY_ERASE (R388): 120 s after a newer epoch is first accepted, the sender's older epoch key is erased. -/
  | keyErase (site : Fin 16)
  /-- RMB_REKEY (R387): Writing GO to RMB_REKEY ends the current epoch at once and sends the next KEY. -/
  | rmbRekey (die : Fin 2) (value : W32)
  /-- RMB_INJECT (R402): A write to RMB_INJECT arms inversion of a residue bit in the next chunk. -/
  | rmbInject (die : Fin 2) (value : W32)
  /-- REPORT (R414): Writing REPORT to SEC_CTRL starts a signed attestation report. -/
  | report (cert : Bool)
  /-- FW_STAGE (R411): Writing FW_STAGE to SEC_CTRL verifies the staged firmware and writes it into the other slot. -/
  | fwStage
  /-- SECURE_COMMAND_DONE (R414): A report or firmware stage finishes and reports done or refused in SEC_STATUS. -/
  | secureCommandDone (flashOk : Bool)
  /-- SEC_SVN_COMMIT (R410): A write of the running SVN to SEC_SVN_COMMIT blows anti-rollback fuses, otherwise ROLLBACK. -/
  | secSvnCommit (value : W32) (fuseOk : Bool)
  /-- SEC_KEY_REVOKE (R412): Writing GO with a slot to SEC_KEY_REVOKE blows that slot's revoke bit, or is refused. -/
  | secKeyRevoke (value : W32) (fuseOk : Bool)
  /-- SITECERT_INSTALL (R417): Writing SITECERT_INSTALL installs the staged site chain after its checks. -/
  | sitecertInstall
  /-- SITECERT_ERASE (R417): Writing SITECERT_ERASE erases the installed site chain. -/
  | sitecertErase
  /-- ANCHOR_INSTALL (R417): Writing ANCHOR_INSTALL installs a trust anchor into a slot. -/
  | anchorInstall (slot : Fin 4)
  /-- ANCHOR_ERASE (R417): Writing ANCHOR_ERASE erases a trust anchor slot. -/
  | anchorErase (slot : Fin 4)
  /-- ENTROPY (R406): An entropy health test fails: the source stops delivering, ENTROPY_OK clears and ENTROPY is set. -/
  | entropy
  /-- PREEMPT (R426): Writing PREEMPT to MG_CTX_CTRL starts pre-emption toward a stop point of the named mode, or cancels a hold. -/
  | preempt (ctx : Fin 16) (mode : BitVec 2)
  /-- STOP_POINT (R426): The context reaches its stop point P, stops issue and lets its tail run. -/
  | stopPoint (ctx : Fin 16)
  /-- PREEMPT_COMPLETE (R429): After the tail and tile read-outs, the context image is written and the context becomes PREEMPTED. -/
  | preemptComplete (ctx : Fin 16)
  /-- RESTORE (R431): Writing RESTORE to MG_CTX_CTRL checks and starts installing a context image. -/
  | restore (ctx : Fin 16)
  /-- RESTORE_COMPLETE (R432): A restore finishes installing state and resumes the context at P or restarts its step. -/
  | restoreComplete (ctx : Fin 16)
  /-- CONTEXT_RESET (R245): Writing RESET to MG_CTX_CTRL ends the context's programs, abandons its waiters and returns it to LOADED. -/
  | contextReset (ctx : Fin 16)
  /-- POWER_ON (R439): The 48 V input qualifies and the module sequences its rails, boots, trains memory and runs its self-tests. -/
  | powerOn (o : StartOutcome)
  /-- READY (R443): Power-up or a reset finishes and READY is emitted. -/
  | ready (portsUp : BitVec 10)
  /-- MODULE_RESET (R444): MRST_N is held low for 10 µs, which resets the module and restarts the boot at step 3. -/
  | moduleReset
  /-- WARM_RESET (R446): Writing WARM to PWR_RESET ends every program, drains work, releases waiters and clears state registers. -/
  | warmReset
  /-- POWER_LOSS (R481): PWR_EN falls or the input leaves range, so every rail turns off in reverse order. -/
  | powerLoss
  /-- INPUT (R453): The input stays between 38 and 40 V for over 1 ms, so INPUT is set and the budget is limited to 2,000 W. -/
  | input
  /-- POWER_SAMPLE (R452): Every 10 µs input power is sampled and the CORE voltages are adjusted against the budget. -/
  | powerSample (mW : Nat) (mV : Nat)
  /-- THROTTLE (R454): A junction above PWR_TJ_THROTTLE lowers CORE voltage, and above 105 °C halts beat advance. -/
  | throttle (tj : Nat) (die : Fin 4)
  /-- THERMAL_TRIP (R455): A junction above 115 °C, a hot stack or a failed sensor latches a trip and turns every rail off. -/
  | thermalTrip
  /-- PWR_VOLT_FORCE (R456): A write to PWR_VOLT_FORCE forces a domain voltage while no launch runs, otherwise CONFIG_REFUSED. -/
  | pwrVoltForce (value : W32)
  /-- READ_VIN (R478): The PMBus READ_VIN command returns the input voltage. -/
  | readVin
  /-- READ_IIN (R478): The PMBus READ_IIN command returns the input current. -/
  | readIin
  /-- READ_PIN (R478): The PMBus READ_PIN command returns the input power. -/
  | readPin
  /-- READ_TEMPERATURE_1 (R478): The PMBus READ_TEMPERATURE_1 command returns the hottest junction. -/
  | readTemperature1
  /-- READ_TEMPERATURE_2 (R478): The PMBus READ_TEMPERATURE_2 command returns the coolant outlet temperature. -/
  | readTemperature2
  /-- STATUS_BYTE (R478): The PMBus STATUS_BYTE command returns the status byte. -/
  | statusByte
  /-- STATUS_WORD (R478): The PMBus STATUS_WORD command returns the status word. -/
  | statusWord
  /-- MFR_ID (R478): The PMBus MFR_ID command returns the manufacturer identity. -/
  | mfrId
  /-- MFR_MODEL (R478): The PMBus MFR_MODEL command returns the model. -/
  | mfrModel
  /-- MFR_SERIAL (R478): The PMBus MFR_SERIAL command returns the serial number. -/
  | mfrSerial
  /-- MFR_MODULE_STATE (R479): The MFR_MODULE_STATE command returns the module's start-up and fault state. -/
  | mfrModuleState
  /-- MFR_FAULT_INFO (R479): The MFR_FAULT_INFO command returns the failed rail group and boot step. -/
  | mfrFaultInfo
  /-- MFR_DEVICE_ID (R479): The MFR_DEVICE_ID command returns DEVICE_ID. -/
  | mfrDeviceId
  /-- MFR_COOLANT (R479): The MFR_COOLANT command returns the inlet and outlet temperatures. -/
  | mfrCoolant
  /-- MFR_BOOT_MS (R479): The MFR_BOOT_MS command returns ELAPSED_MS of the last READY. -/
  | mfrBootMs
  /-- FEED_INJECT (R472): A write to FEED_INJECT arms inversion of bit 0 of the first carried residue of the next line the feeder loads, so its load check fails. -/
  | feedInject (page : Nat) (value : W32)
  /-- PORT_LOOPBACK (R362): A write to PORT_LOOPBACK sets or clears PCS loopback, taking the link down to its partner while set. -/
  | portLoopback (port : Fin 10) (value : W32)
  /-- MRST_N_RELEASE (R481): MRST_N returns high, so the held boot ROM starts step 3 of R439, or after a power fault or thermal trip the sequence restarts at step 2 and the latches clear. -/
  | mrstNRelease
  /-- ENTROPY_OK (R406): The entropy source passes its health tests again, sets ENTROPY_OK and resumes delivery to waiting reports, handshakes and new epochs. -/
  | entropyOk
  /-- INPUT_ABOVE_40_V (R453): The input has stayed above 40 V for 1 s, so INPUT_LOW clears and the 2,000 W budget limit is lifted. -/
  | inputAbove40V
  /-- THERMAL_HALT_RESUME (R454): The hottest junction falls below 100 °C after a thermal halt, so beat advance resumes. -/
  | thermalHaltResume (tj : Nat)
deriving DecidableEq, Repr

end Sys2Proof
end

