-- ==== Sys2Proof/Decode.lean ====
section
/-!
DEFINITION. Decode.lean: the commands a word spells by the bits of the table. No row of spec/opcode_table.json gives bits
(every command carries its operands in fields of a message, a register value or an event), so no word spells one.
-/
namespace Sys2Proof

/-- The command that a word of the table's bits spells: none, since no row gives bits. -/
def decodeTableWord (_nbits _w : Nat) : Option Instr := none

end Sys2Proof
end

