-- ==== Sys2Proof/Config.lean ====
section
/-!
DEFINITION. Config.lean: the free values: constants with no body, one for each value the spec leaves open.
Nothing can be proved about the value of any of them, so a statement holds for every one (log entry 3).
-/
namespace Sys2Proof.Config

/-- A free number, drawn with a counter of the state that each use advances (log entry 3). -/
opaque freeNat : Nat → Nat

/-- A free byte, drawn with a counter of the state. -/
opaque freeByte : Nat → BitVec 8

/-- RSA-PSS or PKCS#1 signature of a message under the key named by a number (R405, R415, R419); the spec names
the algorithm, the key is the part's secret. -/
opaque sign : Nat → List (BitVec 8) → List (BitVec 8)

/-- Whether a signature verifies under a public key (R408, R416, R419). -/
opaque verify : List (BitVec 8) → List (BitVec 8) → List (BitVec 8) → Bool

/-- AES-256-GCM encryption under a key, nonce and associated data: the ciphertext and its tag (R385). -/
opaque gcmSeal : List (BitVec 8) → List (BitVec 8) → List (BitVec 8) → List (BitVec 8) → List (BitVec 8)

/-- The public modulus of a part's device key and its device certificate, by serial number (R404). -/
opaque modulus : Nat → List (BitVec 8)

/-- The device certificate of a part (R404). -/
opaque deviceCert : Nat → List (BitVec 8)

/-- The hash in a fused firmware-key slot (R408). -/
opaque fwKeyHash : Nat → List (BitVec 8)

/-- What a site chain's site certificate says, none where the chain does not parse as R416 states: its public key, the group G and the site S
of its URI, and its validity in ns since 1970. -/
opaque chainSays : List (BitVec 8) → Option (List (BitVec 8) × Nat × Nat × Nat × Nat)

/-- Whether the last certificate of a chain, and each before it, is signed as R416 states with an anchor's key at the end. -/
opaque chainPath : List (BitVec 8) → List (BitVec 8) → Bool

/-- Key unwrapping with the module's private key (R420), none where it fails. -/
opaque unwrap : Nat → List (BitVec 8) → Option (List (BitVec 8))

/-- Key wrapping for a public key (R420). -/
opaque wrap : List (BitVec 8) → List (BitVec 8) → List (BitVec 8)

/-- The clear code Solxus issues for a module's identity (R315). -/
opaque clearCode : Nat → BitVec 32

/-- What a die's rate at a point of its speed report exceeds the minimum of R451 by, by serial number and point. -/
opaque speedExtra : Nat → Nat → Nat

/-- The content of MFR_ID, MFR_MODEL and MFR_SERIAL (0, 1, 2) of a part (R478). -/
opaque mfrText : Nat → Nat → List (BitVec 8)

/-- A byte of entropy (R406). -/
opaque entropyByte : Nat → BitVec 8

end Sys2Proof.Config
end

