-- ==== Sys2Proof/Machine/Bits.lean ====
section
/-!
DEFINITION. Machine/Bits.lean: bit fields, byte order and saturating counts, shared by every meaning.
-/
namespace Sys2Proof.Machine

/-- Saturating increment at 2^width − 1 (R467: counters saturate). -/
def satAdd (width a n : Nat) : Nat := min (a + n) (2 ^ width - 1)

/-- The byte list of a number, little-endian (R11). -/
def bytesLE : Nat → Nat → List Byte
  | 0, _ => []
  | k + 1, n => BitVec.ofNat 8 n :: bytesLE k (n / 256)

/-- The number a little-endian byte list spells (R11). -/
def natOfLE : List Byte → Nat
  | [] => 0
  | b :: bs => b.toNat + 256 * natOfLE bs

/-- The number a big-endian byte list spells (R11: wire order of Vyvex headers). -/
def natOfBE (bs : List Byte) : Nat := natOfLE bs.reverse

/-- Bits [hi:lo] of a number. -/
def bits (n hi lo : Nat) : Nat := (n >>> lo) % 2 ^ (hi + 1 - lo)

/-- The number with bits [hi:lo] replaced by v. -/
def setBits (n hi lo v : Nat) : Nat :=
  n - (bits n hi lo) <<< lo + (v % 2 ^ (hi + 1 - lo)) <<< lo

/-- 1 for true, 0 for false. -/
def bit (b : Bool) : Nat := if b then 1 else 0

/-- Round-up division. -/
def ceilDiv (a b : Nat) : Nat := (a + b - 1) / b

/-- The first n bytes of a list, padded with zeros to exactly n. -/
def padTo (n : Nat) (bs : List Byte) : List Byte := bs.take n ++ List.replicate (n - bs.length) 0

/-- Sign-extend the low w bits of n to an integer (two's complement). -/
def toSigned (w n : Nat) : Int :=
  let v := n % 2 ^ w
  if v < 2 ^ (w - 1) then (v : Int) else (v : Int) - 2 ^ w

/-- Two's complement of an integer in w bits. -/
def ofSigned (w : Nat) (i : Int) : Nat := (i % (2 ^ w : Int)).toNat

/-- Replace element i of a list (nothing when i is past its end). -/
def listSet {α : Type} : List α → Nat → α → List α
  | [], _, _ => []
  | _ :: t, 0, a => a :: t
  | h :: t, n + 1, a => h :: listSet t n a

/-- Remove element i of a list. -/
def listErase {α : Type} : List α → Nat → List α
  | [], _ => []
  | _ :: t, 0 => t
  | h :: t, n + 1 => h :: listErase t n

/-- An association list sorted by rising key, with no entry equal to the default d:
the canonical form of every sparse table of the model. -/
def sparseGet {α : Type} (d : α) : List (Nat × α) → Nat → α
  | [], _ => d
  | (k, v) :: t, n => if n = k then v else if n < k then d else sparseGet d t n

/-- Write one key of a sparse table, keeping the canonical form. -/
def sparseSet {α : Type} [DecidableEq α] (d : α) : List (Nat × α) → Nat → α → List (Nat × α)
  | [], n, v => if v = d then [] else [(n, v)]
  | (k, w) :: t, n, v =>
    if n = k then (if v = d then t else (n, v) :: t)
    else if n < k then (if v = d then (k, w) :: t else (n, v) :: (k, w) :: t)
    else (k, w) :: sparseSet d t n v

/-- The canonical form: keys strictly rising from lo on, no entry equal to the default. -/
def sparseWfFrom {α : Type} [DecidableEq α] (d : α) : Nat → List (Nat × α) → Bool
  | _, [] => true
  | lo, (k, v) :: t => decide (lo ≤ k) && decide (v ≠ d) && sparseWfFrom d (k + 1) t

/-- The canonical form of a whole sparse table. -/
def sparseWf {α : Type} [DecidableEq α] (d : α) (l : List (Nat × α)) : Bool := sparseWfFrom d 0 l

end Sys2Proof.Machine
end

