-- ==== Sys2Proof/Machine/RegTable.lean ====
section
/-!
DEFINITION. Machine/RegTable.lean: the register maps of the page types, row for row from the register tables of the
spec: offset, number and spacing of the instances, width (R14), access code (R15), the bits that are not reserved
(R16) and the reset value.
-/
namespace Sys2Proof.Machine

/-- The access codes (R15). -/
inductive RegAcc where
  | ro | rw | wo | w1c | rwx
deriving DecidableEq, Repr

/-- A row of a register table. -/
structure RegDesc where
  name : String
  off : Nat
  count : Nat
  stride : Nat
  wide : Bool
  acc : RegAcc
  mask : Nat
  reset : Nat
deriving DecidableEq, Repr

namespace Reg
/-- DIR_COUNT (directory (R460)). -/
def dirCount : Nat := 0x040
/-- DIR_SEL (directory (R460)). -/
def dirSel : Nat := 0x044
/-- DIR_ENTRY (directory (R460)). -/
def dirEntry : Nat := 0x048
/-- DIR_PRESENT0 (directory (R460)). -/
def dirPresent : Nat := 0x080
/-- MG_LOAD_ADDR (MGMT page (R211, R364, R437, R475)). -/
def mgLoadAddr : Nat := 0x100
/-- MG_LOAD_LEN (MGMT page (R211, R364, R437, R475)). -/
def mgLoadLen : Nat := 0x108
/-- MG_LOAD_CTRL (MGMT page (R211, R364, R437, R475)). -/
def mgLoadCtrl : Nat := 0x110
/-- MG_LOAD_STATUS (MGMT page (R211, R364, R437, R475)). -/
def mgLoadStatus : Nat := 0x114
/-- MG_PATCH_ADDR (MGMT page (R211, R364, R437, R475)). -/
def mgPatchAddr : Nat := 0x118
/-- MG_LOAD_INFO (MGMT page (R211, R364, R437, R475)). -/
def mgLoadInfo : Nat := 0x120
/-- MG_WD_LIMIT (MGMT page (R211, R364, R437, R475)). -/
def mgWdLimit : Nat := 0x128
/-- MG_WD_INFO (MGMT page (R211, R364, R437, R475)). -/
def mgWdInfo : Nat := 0x12C
/-- MG_WD_BEAT (MGMT page (R211, R364, R437, R475)). -/
def mgWdBeat : Nat := 0x130
/-- MG_PACKAGE_BEATS (MGMT page (R211, R364, R437, R475)). -/
def mgPackageBeats : Nat := 0x138
/-- MG_PHASES (MGMT page (R211, R364, R437, R475)). -/
def mgPhases : Nat := 0x140
/-- VYV_SELF (MGMT page (R211, R364, R437, R475)). -/
def vyvSelf : Nat := 0x200
/-- VYV_UDP_PORT (MGMT page (R211, R364, R437, R475)). -/
def vyvUdpPort : Nat := 0x204
/-- VYV_HOST_RTO (MGMT page (R211, R364, R437, R475)). -/
def vyvHostRto : Nat := 0x208
/-- VYV_HOST_RETRIES (MGMT page (R211, R364, R437, R475)). -/
def vyvHostRetries : Nat := 0x20C
/-- VYV_NEAR_TIMEOUT (MGMT page (R211, R364, R437, R475)). -/
def vyvNearTimeout : Nat := 0x210
/-- VYV_SESSIONS (MGMT page (R211, R364, R437, R475)). -/
def vyvSessions : Nat := 0x214
/-- VYV_EVENTS_LOST (MGMT page (R211, R364, R437, R475)). -/
def vyvEventsLost : Nat := 0x218
/-- VYV_DROPPED (MGMT page (R211, R364, R437, R475)). -/
def vyvDropped : Nat := 0x220
/-- VYV_PEER_SEL (MGMT page (R211, R364, R437, R475)). -/
def vyvPeerSel : Nat := 0x228
/-- VYV_PEER_ADDR (MGMT page (R211, R364, R437, R475)). -/
def vyvPeerAddr : Nat := 0x230
/-- VYV_PEER_PORTS (MGMT page (R211, R364, R437, R475)). -/
def vyvPeerPorts : Nat := 0x240
/-- VYV_HOST_ALLOW_k (MGMT page (R211, R364, R437, R475)). -/
def vyvHostAllow : Nat := 0x248
/-- VYV_HOST_ALLOW_k_LO (MGMT page (R211, R364, R437, R475)). -/
def vyvHostAllowLo : Nat := 0x250
/-- VYV_HOST_ALLOW_CFG_k (MGMT page (R211, R364, R437, R475)). -/
def vyvHostAllowCfg : Nat := 0x2C8
/-- MG_CTX_SEL (MGMT page (R211, R364, R437, R475)). -/
def mgCtxSel : Nat := 0x300
/-- MG_CTX_CTRL (MGMT page (R211, R364, R437, R475)). -/
def mgCtxCtrl : Nat := 0x304
/-- MG_CTX_STATUS (MGMT page (R211, R364, R437, R475)). -/
def mgCtxStatus : Nat := 0x308
/-- MG_CTX_IMAGE_ADDR (MGMT page (R211, R364, R437, R475)). -/
def mgCtxImageAddr : Nat := 0x310
/-- MG_CTX_IMAGE_SIZE (MGMT page (R211, R364, R437, R475)). -/
def mgCtxImageSize : Nat := 0x318
/-- MG_CTX_IMAGE_LEN (MGMT page (R211, R364, R437, R475)). -/
def mgCtxImageLen : Nat := 0x320
/-- MG_CTX_STOP_BEAT (MGMT page (R211, R364, R437, R475)). -/
def mgCtxStopBeat : Nat := 0x328
/-- MG_CTX_STOP_NS (MGMT page (R211, R364, R437, R475)). -/
def mgCtxStopNs : Nat := 0x330
/-- MG_CTX_MAP (MGMT page (R211, R364, R437, R475)). -/
def mgCtxMap : Nat := 0x338
/-- MG_CTX_PREEMPTS (MGMT page (R211, R364, R437, R475)). -/
def mgCtxPreempts : Nat := 0x340
/-- MG_CTX_RESTORES (MGMT page (R211, R364, R437, R475)). -/
def mgCtxRestores : Nat := 0x348
/-- MG_IDENT (MGMT page (R211, R364, R437, R475)). -/
def mgIdent : Nat := 0x040
/-- MG_FUSE_MAP (MGMT page (R211, R364, R437, R475)). -/
def mgFuseMap : Nat := 0x048
/-- MG_HAMPERS_ACTIVE (MGMT page (R211, R364, R437, R475)). -/
def mgHampersActive : Nat := 0x050
/-- MG_SERIAL (MGMT page (R211, R364, R437, R475)). -/
def mgSerial : Nat := 0x058
/-- MG_MODULE_CLOCK (MGMT page (R211, R364, R437, R475)). -/
def mgModuleClock : Nat := 0x060
/-- MG_EVENTS_QUEUED (MGMT page (R211, R364, R437, R475)). -/
def mgEventsQueued : Nat := 0x068
/-- MG_FLASH_WRITES (MGMT page (R211, R364, R437, R475)). -/
def mgFlashWrites : Nat := 0x06C
/-- MG_EVENT_TEST (MGMT page (R211, R364, R437, R475)). -/
def mgEventTest : Nat := 0x800
/-- MG_FLASH_ERASE_LOG (MGMT page (R211, R364, R437, R475)). -/
def mgFlashEraseLog : Nat := 0x808
/-- FLT_STATE (FAULT page (R321)). -/
def fltState : Nat := 0x040
/-- FLT_ATTEMPT (FAULT page (R321)). -/
def fltAttempt : Nat := 0x044
/-- FLT_REPLAYS (FAULT page (R321)). -/
def fltReplays : Nat := 0x048
/-- FLT_LOSS_NS (FAULT page (R321)). -/
def fltLossNs : Nat := 0x050
/-- FLT_LOAD_CHECKS (FAULT page (R321)). -/
def fltLoadChecks : Nat := 0x058
/-- FLT_STALE_DROPS (FAULT page (R321)). -/
def fltStaleDrops : Nat := 0x060
/-- FLT_DOMAIN0 (FAULT page (R321)). -/
def fltDomain : Nat := 0x068
/-- FLT_REPLAY_LIMIT (FAULT page (R321)). -/
def fltReplayLimit : Nat := 0x088
/-- FLT_CAUSE (FAULT page (R321)). -/
def fltCause : Nat := 0x08C
/-- FLT_WIN_SEL (FAULT page (R321)). -/
def fltWinSel : Nat := 0x090
/-- FLT_WIN_INFO (FAULT page (R321)). -/
def fltWinInfo : Nat := 0x094
/-- FLT_LAG (FAULT page (R321)). -/
def fltLag : Nat := 0x098
/-- FLT_LAG_SHARE (FAULT page (R321)). -/
def fltLagShare : Nat := 0x0A0
/-- FLT_SUSPECTS (FAULT page (R321)). -/
def fltSuspects : Nat := 0x0A8
/-- FLT_ESCAPES (FAULT page (R321)). -/
def fltEscapes : Nat := 0x0B0
/-- FLT_REPORT (FAULT page (R321)). -/
def fltReport : Nat := 0x0B8
/-- FLT_FLAG_CLEAR (FAULT page (R321)). -/
def fltFlagClear : Nat := 0x800
/-- PWR_STATE (POWER page (R456)). -/
def pwrState : Nat := 0x040
/-- PWR_INPUT (POWER page (R456)). -/
def pwrInput : Nat := 0x044
/-- PWR_BUDGET (POWER page (R456)). -/
def pwrBudget : Nat := 0x048
/-- PWR_DOM_SEL (POWER page (R456)). -/
def pwrDomSel : Nat := 0x04C
/-- PWR_DOM_INFO (POWER page (R456)). -/
def pwrDomInfo : Nat := 0x050
/-- PWR_DOM_LIMIT (POWER page (R456)). -/
def pwrDomLimit : Nat := 0x054
/-- PWR_BEAT_RATE (POWER page (R456)). -/
def pwrBeatRate : Nat := 0x058
/-- PWR_TJ_MAX (POWER page (R456)). -/
def pwrTjMax : Nat := 0x05C
/-- PWR_TJ_THROTTLE (POWER page (R456)). -/
def pwrTjThrottle : Nat := 0x060
/-- PWR_SPEED_SEL (POWER page (R456)). -/
def pwrSpeedSel : Nat := 0x064
/-- PWR_SPEED (POWER page (R456)). -/
def pwrSpeed : Nat := 0x068
/-- PWR_COOLANT (POWER page (R456)). -/
def pwrCoolant : Nat := 0x06C
/-- PWR_HALTS (POWER page (R456)). -/
def pwrHalts : Nat := 0x070
/-- PWR_HALT_NS (POWER page (R456)). -/
def pwrHaltNs : Nat := 0x078
/-- PWR_THROTTLE_NS (POWER page (R456)). -/
def pwrThrottleNs : Nat := 0x080
/-- PWR_ENERGY (POWER page (R456)). -/
def pwrEnergy : Nat := 0x088
/-- PWR_BOOT (POWER page (R456)). -/
def pwrBoot : Nat := 0x090
/-- PWR_RESET (POWER page (R456)). -/
def pwrReset : Nat := 0x094
/-- PWR_BOOT_CFG (POWER page (R456)). -/
def pwrBootCfg : Nat := 0x800
/-- PWR_HARD_W (POWER page (R456)). -/
def pwrHardW : Nat := 0x808
/-- PWR_VOLT_FORCE (POWER page (R456)). -/
def pwrVoltForce : Nat := 0x80C
/-- SEC_STATE (SECURE page (R421)). -/
def secState : Nat := 0x040
/-- SEC_SVN (SECURE page (R421)). -/
def secSvn : Nat := 0x044
/-- SEC_KEYSLOTS (SECURE page (R421)). -/
def secKeyslots : Nat := 0x048
/-- SEC_DEVICE_ID (SECURE page (R421)). -/
def secDeviceId : Nat := 0x050
/-- SEC_FW_HASH0 (SECURE page (R421)). -/
def secFwHash : Nat := 0x058
/-- SEC_REPORT_ADDR (SECURE page (R421)). -/
def secReportAddr : Nat := 0x078
/-- SEC_NONCE0 (SECURE page (R421)). -/
def secNonce : Nat := 0x080
/-- SEC_CTRL (SECURE page (R421)). -/
def secCtrl : Nat := 0x0A0
/-- SEC_STATUS (SECURE page (R421)). -/
def secStatus : Nat := 0x0A4
/-- SEC_OUT_LEN (SECURE page (R421)). -/
def secOutLen : Nat := 0x0A8
/-- SEC_STAGE_ADDR (SECURE page (R421)). -/
def secStageAddr : Nat := 0x0B0
/-- SEC_STAGE_LEN (SECURE page (R421)). -/
def secStageLen : Nat := 0x0B8
/-- SEC_ANCHOR_HASH0 (SECURE page (R421)). -/
def secAnchorHash : Nat := 0x0C0
/-- SEC_ENTROPY_FAILS (SECURE page (R421)). -/
def secEntropyFails : Nat := 0x140
/-- SEC_HANDSHAKE_FAILS (SECURE page (R421)). -/
def secHandshakeFails : Nat := 0x148
/-- SEC_TIME_SKIPS (SECURE page (R421)). -/
def secTimeSkips : Nat := 0x150
/-- SEC_SVN_COMMIT (SECURE page (R421)). -/
def secSvnCommit : Nat := 0x800
/-- SEC_KEY_REVOKE (SECURE page (R421)). -/
def secKeyRevoke : Nat := 0x804
/-- SEC_TRUST_CTRL (SECURE page (R421)). -/
def secTrustCtrl : Nat := 0x808
/-- LED_STATE (LEDGER page (R296)). -/
def ledState : Nat := 0x040
/-- LED_CTX_SEL (LEDGER page (R296)). -/
def ledCtxSel : Nat := 0x044
/-- LED_SEED_LO (LEDGER page (R296)). -/
def ledSeedLo : Nat := 0x048
/-- LED_SEED_HI (LEDGER page (R296)). -/
def ledSeedHi : Nat := 0x050
/-- LED_BASE (LEDGER page (R296)). -/
def ledBase : Nat := 0x058
/-- LED_SLOTS (LEDGER page (R296)). -/
def ledSlots : Nat := 0x060
/-- LED_EXPORT (LEDGER page (R296)). -/
def ledExport : Nat := 0x064
/-- LED_HEAD (LEDGER page (R296)). -/
def ledHead : Nat := 0x068
/-- LED_ACKED (LEDGER page (R296)). -/
def ledAcked : Nat := 0x070
/-- LED_RECORDS (LEDGER page (R296)). -/
def ledRecords : Nat := 0x078
/-- LED_OVERWRITTEN (LEDGER page (R296)). -/
def ledOverwritten : Nat := 0x080
/-- LED_LH_SEL (LEDGER page (R296)). -/
def ledLhSel : Nat := 0x088
/-- LED_GSTEP (LEDGER page (R296)). -/
def ledGstep : Nat := 0x090
/-- LED_DIGEST (LEDGER page (R296)). -/
def ledDigest : Nat := 0x098
/-- LED_RESET_RING (LEDGER page (R296)). -/
def ledResetRing : Nat := 0x800
/-- SC_STATE (SITECOUNT page (R298)). -/
def scState : Nat := 0x040
/-- SC_SOURCE (SITECOUNT page (R298)). -/
def scSource : Nat := 0x044
/-- SC_COUNT (SITECOUNT page (R298)). -/
def scCount : Nat := 0x048
/-- SC_OFFSET (SITECOUNT page (R298)). -/
def scOffset : Nat := 0x050
/-- SC_FREQ (SITECOUNT page (R298)). -/
def scFreq : Nat := 0x058
/-- SC_LOCK_WINDOW (SITECOUNT page (R298)). -/
def scLockWindow : Nat := 0x05C
/-- SC_STEP_LIMIT (SITECOUNT page (R298)). -/
def scStepLimit : Nat := 0x060
/-- SC_HOLDOVER_LIMIT (SITECOUNT page (R298)). -/
def scHoldoverLimit : Nat := 0x064
/-- SC_STEPS (SITECOUNT page (R298)). -/
def scSteps : Nat := 0x068
/-- SC_LAUNCH_SEL (SITECOUNT page (R298)). -/
def scLaunchSel : Nat := 0x070
/-- SC_LAUNCH_AT (SITECOUNT page (R298)). -/
def scLaunchAt : Nat := 0x078
/-- SC_LAUNCH_LATE_NS (SITECOUNT page (R298)). -/
def scLaunchLateNs : Nat := 0x080
/-- SC_SET (SITECOUNT page (R298)). -/
def scSet : Nat := 0x800
/-- TLY_STATE (TALLY page (R248)). -/
def tlyState : Nat := 0x040
/-- TLY_SEL (TALLY page (R248)). -/
def tlySel : Nat := 0x044
/-- TLY_ENTRY (TALLY page (R248)). -/
def tlyEntry : Nat := 0x048
/-- TLY_COUNT (TALLY page (R248)). -/
def tlyCount : Nat := 0x050
/-- TLY_WAITERS (TALLY page (R248)). -/
def tlyWaiters : Nat := 0x054
/-- TLY_BAR_SEL (TALLY page (R248)). -/
def tlyBarSel : Nat := 0x058
/-- TLY_BAR_STATE (TALLY page (R248)). -/
def tlyBarState : Nat := 0x060
/-- TLY_BAR_HAMPERS (TALLY page (R248)). -/
def tlyBarHampers : Nat := 0x068
/-- TLY_BAR_CURRENT (TALLY page (R248)). -/
def tlyBarCurrent : Nat := 0x070
/-- TLY_BAR_NEXT (TALLY page (R248)). -/
def tlyBarNext : Nat := 0x078
/-- TLY_BAR_PEERS0 (TALLY page (R248)). -/
def tlyBarPeers : Nat := 0x080
/-- TLY_LEND_THRESH (TALLY page (R248)). -/
def tlyLendThresh : Nat := 0x0A0
/-- TLY_SIGNALS (TALLY page (R248)). -/
def tlySignals : Nat := 0x0A8
/-- TLY_RELEASES (TALLY page (R248)). -/
def tlyReleases : Nat := 0x0B0
/-- TLY_ABANDONED (TALLY page (R248)). -/
def tlyAbandoned : Nat := 0x0B8
/-- TLY_REMOTE_LOST (TALLY page (R248)). -/
def tlyRemoteLost : Nat := 0x0C0
/-- TLY_LEND_EVENTS (TALLY page (R248)). -/
def tlyLendEvents : Nat := 0x0C8
/-- TLY_FREE (TALLY page (R248)). -/
def tlyFree : Nat := 0x0D0
/-- TLY_REMOTE_WAITERS (TALLY page (R248)). -/
def tlyRemoteWaiters : Nat := 0x0D4
/-- TLY_ERR_INFO (TALLY page (R248)). -/
def tlyErrInfo : Nat := 0x0D8
/-- TLY_COUNT_SET (TALLY page (R248)). -/
def tlyCountSet : Nat := 0x800
/-- TLY_BAR_REPAIR (TALLY page (R248)). -/
def tlyBarRepair : Nat := 0x808
/-- RMB_STATE (RAMBLER page (R402)). -/
def rmbState : Nat := 0x040
/-- RMB_CFG (RAMBLER page (R402)). -/
def rmbCfg : Nat := 0x044
/-- RMB_H (RAMBLER page (R402)). -/
def rmbH : Nat := 0x048
/-- RMB_SHARD_LEN (RAMBLER page (R402)). -/
def rmbShardLen : Nat := 0x04C
/-- RMB_DESC (RAMBLER page (R402)). -/
def rmbDesc : Nat := 0x050
/-- RMB_CMD_BASE (RAMBLER page (R402)). -/
def rmbCmdBase : Nat := 0x058
/-- RMB_CMD_CFG (RAMBLER page (R402)). -/
def rmbCmdCfg : Nat := 0x060
/-- RMB_STALE_CFG (RAMBLER page (R402)). -/
def rmbStaleCfg : Nat := 0x064
/-- RMB_LIMIT (RAMBLER page (R402)). -/
def rmbLimit : Nat := 0x068
/-- RMB_ROUNDS (RAMBLER page (R402)). -/
def rmbRounds : Nat := 0x070
/-- RMB_OUTBOX (RAMBLER page (R402)). -/
def rmbOutbox : Nat := 0x078
/-- RMB_OUTBOX_SIZE (RAMBLER page (R402)). -/
def rmbOutboxSize : Nat := 0x080
/-- RMB_ARCHIVE (RAMBLER page (R402)). -/
def rmbArchive : Nat := 0x088
/-- RMB_ARCHIVE_ROUNDS (RAMBLER page (R402)). -/
def rmbArchiveRounds : Nat := 0x090
/-- RMB_ARCHIVE_SLOT (RAMBLER page (R402)). -/
def rmbArchiveSlot : Nat := 0x098
/-- RMB_MANIFEST (RAMBLER page (R402)). -/
def rmbManifest : Nat := 0x0A0
/-- RMB_MANIFEST_SLOTS (RAMBLER page (R402)). -/
def rmbManifestSlots : Nat := 0x0A8
/-- RMB_TIMERS (RAMBLER page (R402)). -/
def rmbTimers : Nat := 0x0AC
/-- RMB_RESEND_US (RAMBLER page (R402)). -/
def rmbResendUs : Nat := 0x0B0
/-- RMB_SNAP_ROUND (RAMBLER page (R402)). -/
def rmbSnapRound : Nat := 0x0B4
/-- RMB_SNAP_ADDR (RAMBLER page (R402)). -/
def rmbSnapAddr : Nat := 0x0B8
/-- RMB_MEMBER0 (RAMBLER page (R402)). -/
def rmbMember : Nat := 0x0C0
/-- RMB_ROUTE_SEL (RAMBLER page (R402)). -/
def rmbRouteSel : Nat := 0x100
/-- RMB_ROUTE_ADDR (RAMBLER page (R402)). -/
def rmbRouteAddr : Nat := 0x108
/-- RMB_ROUTE_CFG (RAMBLER page (R402)). -/
def rmbRouteCfg : Nat := 0x118
/-- RMB_PEER_INFO (RAMBLER page (R402)). -/
def rmbPeerInfo : Nat := 0x11C
/-- RMB_EPOCH (RAMBLER page (R402)). -/
def rmbEpoch : Nat := 0x120
/-- RMB_EPOCH_COUNT (RAMBLER page (R402)). -/
def rmbEpochCount : Nat := 0x124
/-- RMB_SHARDS_TX (RAMBLER page (R402)). -/
def rmbShardsTx : Nat := 0x128
/-- RMB_SHARDS_RX (RAMBLER page (R402)). -/
def rmbShardsRx : Nat := 0x130
/-- RMB_PARITY_SENT (RAMBLER page (R402)). -/
def rmbParitySent : Nat := 0x138
/-- RMB_REISSUES (RAMBLER page (R402)). -/
def rmbReissues : Nat := 0x140
/-- RMB_AUTH_FAILS (RAMBLER page (R402)). -/
def rmbAuthFails : Nat := 0x148
/-- RMB_REPLAYED (RAMBLER page (R402)). -/
def rmbReplayed : Nat := 0x150
/-- RMB_KEY_UNKNOWN (RAMBLER page (R402)). -/
def rmbKeyUnknown : Nat := 0x158
/-- RMB_STALE_EPOCH (RAMBLER page (R402)). -/
def rmbStaleEpoch : Nat := 0x160
/-- RMB_NONFIN (RAMBLER page (R402)). -/
def rmbNonfin : Nat := 0x168
/-- RMB_SAT (RAMBLER page (R402)). -/
def rmbSat : Nat := 0x170
/-- RMB_ARCHIVE_OVERWRITTEN (RAMBLER page (R402)). -/
def rmbArchiveOverwritten : Nat := 0x178
/-- RMB_RESIDUE_FAILS (RAMBLER page (R402)). -/
def rmbResidueFails : Nat := 0x180
/-- RMB_INJECT (RAMBLER page (R402)). -/
def rmbInject : Nat := 0x800
/-- RMB_REKEY (RAMBLER page (R402)). -/
def rmbRekey : Nat := 0x808
/-- PORT_STATE (PORT page (R362)). -/
def portState : Nat := 0x040
/-- PORT_CFG (PORT page (R362)). -/
def portCfg : Nat := 0x044
/-- PORT_MAX_FRAME (PORT page (R362)). -/
def portMaxFrame : Nat := 0x048
/-- PORT_PTP (PORT page (R362)). -/
def portPtp : Nat := 0x04C
/-- PORT_MAC_h (PORT page (R362)). -/
def portMac : Nat := 0x080
/-- PORT_VLAN_h (PORT page (R362)). -/
def portVlan : Nat := 0x088
/-- PORT_IP_h (PORT page (R362)). -/
def portIp : Nat := 0x090
/-- PORT_IP_h_LO (PORT page (R362)). -/
def portIpLo : Nat := 0x098
/-- PORT_GW_h (PORT page (R362)). -/
def portGw : Nat := 0x0A0
/-- PORT_GW_h_LO (PORT page (R362)). -/
def portGwLo : Nat := 0x0A8
/-- PORT_PREFIX_h (PORT page (R362)). -/
def portPrefix : Nat := 0x0B0
/-- PORT_TX_FRAMES (PORT page (R362)). -/
def portTxFrames : Nat := 0x100
/-- PORT_RX_FRAMES (PORT page (R362)). -/
def portRxFrames : Nat := 0x108
/-- PORT_RX_DROPPED (PORT page (R362)). -/
def portRxDropped : Nat := 0x110
/-- PORT_FCS_ERRORS (PORT page (R362)). -/
def portFcsErrors : Nat := 0x118
/-- PORT_PCHK_ERRORS (PORT page (R362)). -/
def portPchkErrors : Nat := 0x120
/-- PORT_FEC_CORRECTED (PORT page (R362)). -/
def portFecCorrected : Nat := 0x128
/-- PORT_FEC_UNCORRECTED (PORT page (R362)). -/
def portFecUncorrected : Nat := 0x130
/-- PORT_RETRAINS (PORT page (R362)). -/
def portRetrains : Nat := 0x138
/-- PORT_DOWN_NS (PORT page (R362)). -/
def portDownNs : Nat := 0x140
/-- PORT_LANE_SEL (PORT page (R362)). -/
def portLaneSel : Nat := 0x148
/-- PORT_LANE_INFO (PORT page (R362)). -/
def portLaneInfo : Nat := 0x14C
/-- PORT_LOOPBACK (PORT page (R362)). -/
def portLoopback : Nat := 0x800
/-- PORT_LANE_RETIRE (PORT page (R362)). -/
def portLaneRetire : Nat := 0x808
/-- HBM_STATE (HBMC page (R270)). -/
def hbmState : Nat := 0x040
/-- HBM_CE (HBMC page (R270)). -/
def hbmCe : Nat := 0x048
/-- HBM_UE (HBMC page (R270)). -/
def hbmUe : Nat := 0x050
/-- HBM_WRITE_CHECKS (HBMC page (R270)). -/
def hbmWriteChecks : Nat := 0x058
/-- HBM_SCHED_WAITS (HBMC page (R270)). -/
def hbmSchedWaits : Nat := 0x060
/-- HBM_SCHED_WAIT_NS (HBMC page (R270)). -/
def hbmSchedWaitNs : Nat := 0x068
/-- HBM_LAST_CE_ADDR (HBMC page (R270)). -/
def hbmLastCeAddr : Nat := 0x070
/-- HBM_LAST_UE_ADDR (HBMC page (R270)). -/
def hbmLastUeAddr : Nat := 0x078
/-- HBM_ROWS_RETIRED (HBMC page (R270)). -/
def hbmRowsRetired : Nat := 0x080
/-- HBM_PC_RETIRED (HBMC page (R270)). -/
def hbmPcRetired : Nat := 0x084
/-- HBM_PC_SEL (HBMC page (R270)). -/
def hbmPcSel : Nat := 0x088
/-- HBM_PC_INFO (HBMC page (R270)). -/
def hbmPcInfo : Nat := 0x08C
/-- HBM_POISON_COUNT (HBMC page (R270)). -/
def hbmPoisonCount : Nat := 0x090
/-- HBM_REFUGE_FREE (HBMC page (R270)). -/
def hbmRefugeFree : Nat := 0x094
/-- HBM_TEMP (HBMC page (R270)). -/
def hbmTemp : Nat := 0x098
/-- HBM_SCRUB_HOURS (HBMC page (R270)). -/
def hbmScrubHours : Nat := 0x09C
/-- HBM_REFRESH_WAITS (HBMC page (R270)). -/
def hbmRefreshWaits : Nat := 0x0A0
/-- HBM_INJECT (HBMC page (R270)). -/
def hbmInject : Nat := 0x800
/-- HBM_INJECT_ADDR (HBMC page (R270)). -/
def hbmInjectAddr : Nat := 0x808
/-- HBM_RETIRE_ROW (HBMC page (R270)). -/
def hbmRetireRow : Nat := 0x810
/-- LPC_STATE (LPC page (R273)). -/
def lpcState : Nat := 0x040
/-- LPC_CE (LPC page (R273)). -/
def lpcCe : Nat := 0x048
/-- LPC_UE (LPC page (R273)). -/
def lpcUe : Nat := 0x050
/-- LPC_WRITE_CHECKS (LPC page (R273)). -/
def lpcWriteChecks : Nat := 0x058
/-- LPC_LAST_CE_ADDR (LPC page (R273)). -/
def lpcLastCeAddr : Nat := 0x060
/-- LPC_LAST_UE_ADDR (LPC page (R273)). -/
def lpcLastUeAddr : Nat := 0x068
/-- LPC_REPAIRS (LPC page (R273)). -/
def lpcRepairs : Nat := 0x070
/-- LPC_REPAIRS_LEFT (LPC page (R273)). -/
def lpcRepairsLeft : Nat := 0x074
/-- LPC_POISON_COUNT (LPC page (R273)). -/
def lpcPoisonCount : Nat := 0x078
/-- LPC_TEMP (LPC page (R273)). -/
def lpcTemp : Nat := 0x07C
/-- LPC_SCRUB_HOURS (LPC page (R273)). -/
def lpcScrubHours : Nat := 0x080
/-- LPC_REFRESH_WAITS (LPC page (R273)). -/
def lpcRefreshWaits : Nat := 0x088
/-- LPC_INJECT (LPC page (R273)). -/
def lpcInject : Nat := 0x800
/-- LPC_INJECT_ADDR (LPC page (R273)). -/
def lpcInjectAddr : Nat := 0x808
/-- UPD_STATE (UPDATE page of a unit (R145)). -/
def updState : Nat := 0x040
/-- UPD_CURSOR (UPDATE page of a unit (R145)). -/
def updCursor : Nat := 0x048
/-- UPD_CHUNKS (UPDATE page of a unit (R145)). -/
def updChunks : Nat := 0x050
/-- UPD_RETRIES (UPDATE page of a unit (R145)). -/
def updRetries : Nat := 0x058
/-- UPD_NONFIN (UPDATE page of a unit (R145)). -/
def updNonfin : Nat := 0x060
/-- UPD_SAT (UPDATE page of a unit (R145)). -/
def updSat : Nat := 0x068
/-- UPD_RESIDUE_FAILS (UPDATE page of a unit (R145)). -/
def updResidueFails : Nat := 0x070
/-- UPD_RECIPE_VALID (UPDATE page of a unit (R145)). -/
def updRecipeValid : Nat := 0x074
/-- UPD_HOME (UPDATE page of a unit (R145)). -/
def updHome : Nat := 0x078
/-- UPD_INJECT (UPDATE page of a unit (R145)). -/
def updInject : Nat := 0x800
/-- UPD_BIST (UPDATE page of a unit (R145)). -/
def updBist : Nat := 0x808
/-- HAM_STATE (HAMPER page (R180)). -/
def hamState : Nat := 0x040
/-- HAM_LSEL (HAMPER page (R180)). -/
def hamLsel : Nat := 0x044
/-- HAM_PC (HAMPER page (R180)). -/
def hamPc : Nat := 0x048
/-- HAM_BEAT (HAMPER page (R180)). -/
def hamBeat : Nat := 0x050
/-- HAM_ISSUED (HAMPER page (R180)). -/
def hamIssued : Nat := 0x058
/-- HAM_INTERLOCK (HAMPER page (R180)). -/
def hamInterlock : Nat := 0x060
/-- HAM_IFETCH_MISS (HAMPER page (R180)). -/
def hamIfetchMiss : Nat := 0x068
/-- HAM_TAKES (HAMPER page (R180)). -/
def hamTakes : Nat := 0x070
/-- HAM_STEALS (HAMPER page (R180)). -/
def hamSteals : Nat := 0x078
/-- HAM_STEALS_DROPPED (HAMPER page (R180)). -/
def hamStealsDropped : Nat := 0x080
/-- HAM_STEP_NONFIN (HAMPER page (R180)). -/
def hamStepNonfin : Nat := 0x088
/-- HAM_STEP_SAT (HAMPER page (R180)). -/
def hamStepSat : Nat := 0x08C
/-- HAM_STEP_MROWS (HAMPER page (R180)). -/
def hamStepMrows : Nat := 0x090
/-- HAM_FAULT_PC (HAMPER page (R180)). -/
def hamFaultPc : Nat := 0x098
/-- HAM_SREG_SEL (HAMPER page (R180)). -/
def hamSregSel : Nat := 0x800
/-- HAM_SREG_DATA (HAMPER page (R180)). -/
def hamSregData : Nat := 0x808
/-- FEED_STATE (FEEDER page (R472)). -/
def feedState : Nat := 0x040
/-- FEED_LINES (FEEDER page (R472)). -/
def feedLines : Nat := 0x048
/-- FEED_TRANS_LINES (FEEDER page (R472)). -/
def feedTransLines : Nat := 0x050
/-- FEED_CONVERTED (FEEDER page (R472)). -/
def feedConverted : Nat := 0x058
/-- FEED_NONFIN (FEEDER page (R472)). -/
def feedNonfin : Nat := 0x060
/-- FEED_SAT (FEEDER page (R472)). -/
def feedSat : Nat := 0x068
/-- FEED_LOAD_CHECKS (FEEDER page (R472)). -/
def feedLoadChecks : Nat := 0x070
/-- FEED_TURNS (FEEDER page (R472)). -/
def feedTurns : Nat := 0x078
/-- FEED_INJECT (FEEDER page (R472)). -/
def feedInject : Nat := 0x800
/-- VEC_STATE (VECTOR page (R116)). -/
def vecState : Nat := 0x040
/-- VEC_CALLS (VECTOR page (R116)). -/
def vecCalls : Nat := 0x048
/-- VEC_ELEMENTS (VECTOR page (R116)). -/
def vecElements : Nat := 0x050
/-- VEC_NONFIN (VECTOR page (R116)). -/
def vecNonfin : Nat := 0x058
/-- VEC_SAT (VECTOR page (R116)). -/
def vecSat : Nat := 0x060
/-- VEC_MASKED_ROWS (VECTOR page (R116)). -/
def vecMaskedRows : Nat := 0x068
/-- VEC_RESIDUE_FAILS (VECTOR page (R116)). -/
def vecResidueFails : Nat := 0x070
/-- VEC_RECIPE_VALID (VECTOR page (R116)). -/
def vecRecipeValid : Nat := 0x078
/-- VEC_RSTORE_SEL (VECTOR page (R116)). -/
def vecRstoreSel : Nat := 0x080
/-- VEC_RSTORE_DATA (VECTOR page (R116)). -/
def vecRstoreData : Nat := 0x084
/-- VEC_RSTORE_COMMIT (VECTOR page (R116)). -/
def vecRstoreCommit : Nat := 0x088
/-- VEC_RSTORE_FAULT (VECTOR page (R116)). -/
def vecRstoreFault : Nat := 0x08C
/-- VEC_LAST_SUMMARY0 (VECTOR page (R116)). -/
def vecLastSummary : Nat := 0x0C0
/-- VEC_INJECT (VECTOR page (R116)). -/
def vecInject : Nat := 0x800
/-- VEC_BIST (VECTOR page (R116)). -/
def vecBist : Nat := 0x808
/-- PAN_CONFLICT_BEATS (PANTRY page (R208)). -/
def panConflictBeats : Nat := 0x040
/-- PAN_CONFLICT_CYCLES (PANTRY page (R208)). -/
def panConflictCycles : Nat := 0x048
/-- PAN_SLOT_CONFLICTS (PANTRY page (R208)). -/
def panSlotConflicts : Nat := 0x050
/-- PAN_SLOT_INFO (PANTRY page (R208)). -/
def panSlotInfo : Nat := 0x058
/-- PAN_HAZARDS (PANTRY page (R208)). -/
def panHazards : Nat := 0x060
/-- PAN_HAZ_SEL (PANTRY page (R208)). -/
def panHazSel : Nat := 0x068
/-- PAN_HAZ_ENTRY (PANTRY page (R208)). -/
def panHazEntry : Nat := 0x070
/-- PAN_HAZ_BEAT (PANTRY page (R208)). -/
def panHazBeat : Nat := 0x078
/-- PAN_HAZ_CTRL (PANTRY page (R208)). -/
def panHazCtrl : Nat := 0x800
/-- STASH_STATE (STASH page (R92)). -/
def stashState : Nat := 0x040
/-- STASH_PUSHES (STASH page (R92)). -/
def stashPushes : Nat := 0x048
/-- STASH_POPS (STASH page (R92)). -/
def stashPops : Nat := 0x050
/-- STASH_SPILLED (STASH page (R92)). -/
def stashSpilled : Nat := 0x058
/-- STASH_HBM_ALLOC (STASH page (R92)). -/
def stashHbmAlloc : Nat := 0x060
/-- STASH_ERR_EXPECT (STASH page (R92)). -/
def stashErrExpect : Nat := 0x068
/-- STASH_ERR_FOUND (STASH page (R92)). -/
def stashErrFound : Nat := 0x06C
/-- STASH_ERR_INFO (STASH page (R92)). -/
def stashErrInfo : Nat := 0x070
/-- STASH_BASE_s (STASH page (R92)). -/
def stashBase : Nat := 0x100
/-- STASH_WMARK_s (STASH page (R92)). -/
def stashWmark : Nat := 0x108
/-- STASH_EXT_BASE_s (STASH page (R92)). -/
def stashExtBase : Nat := 0x110
/-- STASH_EXT_SIZE_s (STASH page (R92)). -/
def stashExtSize : Nat := 0x118
/-- STASH_TOP_H_s (STASH page (R92)). -/
def stashTopH : Nat := 0x120
/-- STASH_TOP_E_s (STASH page (R92)). -/
def stashTopE : Nat := 0x128
/-- STASH_DEPTH_s (STASH page (R92)). -/
def stashDepth : Nat := 0x130
/-- STASH_CTX_s (STASH page (R92)). -/
def stashCtx : Nat := 0x134
/-- STASH_PEAK_s (STASH page (R92)). -/
def stashPeak : Nat := 0x138
/-- LIST_STATE (LIST page (R228)). -/
def listState : Nat := 0x040
/-- LIST_BASE (LIST page (R228)). -/
def listBase : Nat := 0x048
/-- LIST_SIZE (LIST page (R228)). -/
def listSize : Nat := 0x04C
/-- LIST_STAGE (LIST page (R228)). -/
def listStage : Nat := 0x050
/-- LIST_STAGE_SIZE (LIST page (R228)). -/
def listStageSize : Nat := 0x054
/-- LIST_TAKE_ADDR (LIST page (R228)). -/
def listTakeAddr : Nat := 0x058
/-- LIST_STEAL_CFG (LIST page (R228)). -/
def listStealCfg : Nat := 0x05C
/-- LIST_COUNT (LIST page (R228)). -/
def listCount : Nat := 0x060
/-- LIST_PENDING (LIST page (R228)). -/
def listPending : Nat := 0x064
/-- LIST_CURSOR (LIST page (R228)). -/
def listCursor : Nat := 0x068
/-- LIST_POSTED (LIST page (R228)). -/
def listPosted : Nat := 0x070
/-- LIST_TAKEN (LIST page (R228)). -/
def listTaken : Nat := 0x078
/-- LIST_STOLEN_IN (LIST page (R228)). -/
def listStolenIn : Nat := 0x080
/-- LIST_STOLEN_OUT (LIST page (R228)). -/
def listStolenOut : Nat := 0x088
/-- LIST_PROBES_EMPTY (LIST page (R228)). -/
def listProbesEmpty : Nat := 0x090
/-- LIST_MERGES_OUT (LIST page (R228)). -/
def listMergesOut : Nat := 0x098
/-- LIST_MERGES_IN (LIST page (R228)). -/
def listMergesIn : Nat := 0x0A0
/-- LIST_STALL_BEATS (LIST page (R228)). -/
def listStallBeats : Nat := 0x0A8
/-- LIST_ITEM_NONFIN (LIST page (R228)). -/
def listItemNonfin : Nat := 0x0B0
/-- LIST_ITEM_SAT (LIST page (R228)). -/
def listItemSat : Nat := 0x0B4
/-- LIST_ITEM_MROWS (LIST page (R228)). -/
def listItemMrows : Nat := 0x0B8
/-- LIST_FLUSH (LIST page (R228)). -/
def listFlush : Nat := 0x800
/-- FRAME_STATE (FRAME page (R68)). -/
def frameState : Nat := 0x040
/-- FRAME_PROGRESS (FRAME page (R68)). -/
def frameProgress : Nat := 0x048
/-- FRAME_PASSES (FRAME page (R68)). -/
def framePasses : Nat := 0x050
/-- FRAME_ROWS_FED (FRAME page (R68)). -/
def frameRowsFed : Nat := 0x058
/-- FRAME_ROWS_MASKED (FRAME page (R68)). -/
def frameRowsMasked : Nat := 0x060
/-- FRAME_SAT_COUNT (FRAME page (R68)). -/
def frameSatCount : Nat := 0x068
/-- FRAME_SAT_FLAG (FRAME page (R68)). -/
def frameSatFlag : Nat := 0x070
/-- FRAME_ANCHOR (FRAME page (R68)). -/
def frameAnchor : Nat := 0x074
/-- FRAME_WMAX (FRAME page (R68)). -/
def frameWmax : Nat := 0x078
/-- FRAME_REPAIR0 (FRAME page (R68)). -/
def frameRepair : Nat := 0x080
/-- FRAME_RESIDUE_FAILS (FRAME page (R68)). -/
def frameResidueFails : Nat := 0x0C0
/-- FRAME_INJECT (FRAME page (R68)). -/
def frameInject : Nat := 0x800
/-- FRAME_BIST (FRAME page (R68)). -/
def frameBist : Nat := 0x808
/-- UC_STATE (UPDATE page of UC (R146)). -/
def ucState : Nat := 0x040
/-- UC_STEP (UPDATE page of UC (R146)). -/
def ucStep : Nat := 0x048
/-- UC_SEAL_EXPECT (UPDATE page of UC (R146)). -/
def ucSealExpect : Nat := 0x050
/-- UC_SEAL_MASK (UPDATE page of UC (R146)). -/
def ucSealMask : Nat := 0x058
/-- UC_NB (UPDATE page of UC (R146)). -/
def ucNb : Nat := 0x060
/-- UC_NORM_TOTAL0 (UPDATE page of UC (R146)). -/
def ucNormTotal : Nat := 0x068
/-- UC_NORM_INFO (UPDATE page of UC (R146)). -/
def ucNormInfo : Nat := 0x080
/-- UC_CLIP_SCALE (UPDATE page of UC (R146)). -/
def ucClipScale : Nat := 0x084
/-- UC_NORM_GROUP0 (UPDATE page of UC (R146)). -/
def ucNormGroup : Nat := 0x088
/-- UC_NORM_INBOX (UPDATE page of UC (R146)). -/
def ucNormInbox : Nat := 0x0A8
/-- UC_NORM_MISSING0 (UPDATE page of UC (R146)). -/
def ucNormMissing : Nat := 0x0B0
/-- UC_SWEEP_DESC (UPDATE page of UC (R146)). -/
def ucSweepDesc : Nat := 0x0D0
/-- UC_CTRL (UPDATE page of UC (R146)). -/
def ucCtrl : Nat := 0x0D8
/-- UC_JOURNAL_EVERY (UPDATE page of UC (R146)). -/
def ucJournalEvery : Nat := 0x0DC
/-- UC_SWEEPS (UPDATE page of UC (R146)). -/
def ucSweeps : Nat := 0x0E0
/-- UC_SEAL_REFUSALS (UPDATE page of UC (R146)). -/
def ucSealRefusals : Nat := 0x0E8
/-- UC_RSTORE_SEL (UPDATE page of UC (R146)). -/
def ucRstoreSel : Nat := 0x0F0
/-- UC_RSTORE_DATA (UPDATE page of UC (R146)). -/
def ucRstoreData : Nat := 0x0F4
/-- UC_RSTORE_COMMIT (UPDATE page of UC (R146)). -/
def ucRstoreCommit : Nat := 0x0F8
/-- UC_RSTORE_FAULT (UPDATE page of UC (R146)). -/
def ucRstoreFault : Nat := 0x0FC
/-- ARB_WINDOW (arbiter block (R336)). -/
def arbWindow : Nat := 0x400
/-- ARB_STATE (arbiter block (R336)). -/
def arbState : Nat := 0x404
/-- ARB_HOLD_NS (arbiter block (R336)). -/
def arbHoldNs : Nat := 0x408
/-- ARB_AUX (arbiter block (R336)). -/
def arbAux : Nat := 0x40C
/-- ARB_CUTOFFS (arbiter block (R336)). -/
def arbCutoffs : Nat := 0x410
/-- ARB_CUTOFF_INFO (arbiter block (R336)). -/
def arbCutoffInfo : Nat := 0x418
/-- ARB_ERR (arbiter block (R336)). -/
def arbErr : Nat := 0x41C
/-- ARB_CLASS0 (arbiter block (R336)). -/
def arbClass : Nat := 0x420
/-- ARB_CREDIT0 (arbiter block (R336)). -/
def arbCredit : Nat := 0x448
/-- ARB_GRANTS0 (arbiter block (R336)). -/
def arbGrants : Nat := 0x470
/-- ARB_WAIT_NS0 (arbiter block (R336)). -/
def arbWaitNs : Nat := 0x4C0
/-- ARB_STARVE_SERVED (arbiter block (R336)). -/
def arbStarveServed : Nat := 0x510
/-- ARB_PRIO0 (arbiter block (R336)). -/
def arbPrio : Nat := 0xC00
/-- PAGE_ID (common header (R462)). -/
def pageId : Nat := 0x000
/-- PAGE_VERSION (common header (R462)). -/
def pageVersion : Nat := 0x004
/-- PAGE_CAPS (common header (R462)). -/
def pageCaps : Nat := 0x008
/-- PAGE_CTRL (common header (R462)). -/
def pageCtrl : Nat := 0x010
/-- PAGE_STATUS (common header (R462)). -/
def pageStatus : Nat := 0x014
/-- PAGE_ERR (common header (R462)). -/
def pageErr : Nat := 0x018
/-- PAGE_ERR_COUNT (common header (R462)). -/
def pageErrCount : Nat := 0x020
/-- PAGE_EVENT_MASK (common header (R462)). -/
def pageEventMask : Nat := 0x028
/-- PAGE_EXPERT_KEY (common header (R462)). -/
def pageExpertKey : Nat := 0x030
end Reg

/-- The register map of the directory (R460). -/
def directoryRegs : List RegDesc :=
  [⟨"DIR_COUNT", Reg.dirCount, 1, 0, false, .ro, 0xFFFF, 0x0⟩,
   ⟨"DIR_SEL", Reg.dirSel, 1, 0, false, .rw, 0xFFFF, 0x0⟩,
   ⟨"DIR_ENTRY", Reg.dirEntry, 1, 0, true, .ro, 0xFFFFFFFFFFFFFFFF, 0x0⟩,
   ⟨"DIR_PRESENT0", Reg.dirPresent, 16, 8, true, .ro, 0xFFFFFFFFFFFFFFFF, 0x0⟩]

/-- The register map of the MGMT page (R211, R364, R437, R475), part 1. -/
def mgmtRegs0 : List RegDesc :=
  [⟨"MG_LOAD_ADDR", Reg.mgLoadAddr, 1, 0, true, .rw, 0xFFFFFFFFFFFFFFFF, 0x0⟩,
   ⟨"MG_LOAD_LEN", Reg.mgLoadLen, 1, 0, true, .rw, 0xFFFFFFFFFFFFFFFF, 0x0⟩,
   ⟨"MG_LOAD_CTRL", Reg.mgLoadCtrl, 1, 0, false, .wo, 0xFFFF00FF, 0x0⟩,
   ⟨"MG_LOAD_STATUS", Reg.mgLoadStatus, 1, 0, false, .ro, 0xFFFF0FF3, 0x0⟩,
   ⟨"MG_PATCH_ADDR", Reg.mgPatchAddr, 1, 0, true, .rw, 0xFFFFFFFFFFFFFFFF, 0x0⟩,
   ⟨"MG_LOAD_INFO", Reg.mgLoadInfo, 1, 0, true, .ro, 0xFFFFFFFFFFFFFFFF, 0x0⟩,
   ⟨"MG_WD_LIMIT", Reg.mgWdLimit, 1, 0, false, .rw, 0xFFFFFFFF, 0x7D0⟩,
   ⟨"MG_WD_INFO", Reg.mgWdInfo, 1, 0, false, .ro, 0xFFFFFFFF, 0x0⟩,
   ⟨"MG_WD_BEAT", Reg.mgWdBeat, 1, 0, true, .ro, 0xFFFFFFFFFFFFFFFF, 0x0⟩,
   ⟨"MG_PACKAGE_BEATS", Reg.mgPackageBeats, 1, 0, true, .ro, 0xFFFFFFFFFFFFFFFF, 0x0⟩,
   ⟨"MG_PHASES", Reg.mgPhases, 1, 0, false, .ro, 0x3, 0x0⟩,
   ⟨"VYV_SELF", Reg.vyvSelf, 1, 0, false, .rw, 0x1FF, 0x0⟩,
   ⟨"VYV_UDP_PORT", Reg.vyvUdpPort, 1, 0, false, .rw, 0xFFFF, 0x4D04⟩,
   ⟨"VYV_HOST_RTO", Reg.vyvHostRto, 1, 0, false, .rw, 0xFFFFFFFF, 0xC8⟩,
   ⟨"VYV_HOST_RETRIES", Reg.vyvHostRetries, 1, 0, false, .rw, 0xFF, 0xA⟩,
   ⟨"VYV_NEAR_TIMEOUT", Reg.vyvNearTimeout, 1, 0, false, .rw, 0xFFFFFFFF, 0x64⟩,
   ⟨"VYV_SESSIONS", Reg.vyvSessions, 1, 0, false, .ro, 0x3FFF, 0x0⟩,
   ⟨"VYV_EVENTS_LOST", Reg.vyvEventsLost, 1, 0, true, .ro, 0xFFFFFFFFFFFFFFFF, 0x0⟩,
   ⟨"VYV_DROPPED", Reg.vyvDropped, 1, 0, true, .ro, 0xFFFFFFFFFFFFFFFF, 0x0⟩,
   ⟨"VYV_PEER_SEL", Reg.vyvPeerSel, 1, 0, false, .rw, 0xFF, 0x0⟩]

/-- The register map of the MGMT page (R211, R364, R437, R475), part 2. -/
def mgmtRegs1 : List RegDesc :=
  [⟨"VYV_PEER_ADDR", Reg.vyvPeerAddr, 2, 8, true, .rw, 0xFFFFFFFFFFFFFFFF, 0x0⟩,
   ⟨"VYV_PEER_PORTS", Reg.vyvPeerPorts, 1, 0, false, .rw, 0x1FF, 0x0⟩,
   ⟨"VYV_HOST_ALLOW_k", Reg.vyvHostAllow, 8, 16, true, .rw, 0xFFFFFFFFFFFFFFFF, 0x0⟩,
   ⟨"VYV_HOST_ALLOW_k_LO", Reg.vyvHostAllowLo, 8, 16, true, .rw, 0xFFFFFFFFFFFFFFFF, 0x0⟩,
   ⟨"VYV_HOST_ALLOW_CFG_k", Reg.vyvHostAllowCfg, 8, 4, false, .rw, 0x1FF, 0x0⟩,
   ⟨"MG_CTX_SEL", Reg.mgCtxSel, 1, 0, false, .rw, 0xF, 0x0⟩,
   ⟨"MG_CTX_CTRL", Reg.mgCtxCtrl, 1, 0, false, .wo, 0x3F, 0x0⟩,
   ⟨"MG_CTX_STATUS", Reg.mgCtxStatus, 1, 0, false, .ro, 0x3FFF, 0x0⟩,
   ⟨"MG_CTX_IMAGE_ADDR", Reg.mgCtxImageAddr, 1, 0, true, .rw, 0xFFFFFFFFFFFFFFFF, 0x0⟩,
   ⟨"MG_CTX_IMAGE_SIZE", Reg.mgCtxImageSize, 1, 0, true, .rw, 0xFFFFFFFFFFFFFFFF, 0x0⟩,
   ⟨"MG_CTX_IMAGE_LEN", Reg.mgCtxImageLen, 1, 0, true, .ro, 0xFFFFFFFFFFFFFFFF, 0x0⟩,
   ⟨"MG_CTX_STOP_BEAT", Reg.mgCtxStopBeat, 1, 0, true, .ro, 0xFFFFFFFFFFFFFFFF, 0x0⟩,
   ⟨"MG_CTX_STOP_NS", Reg.mgCtxStopNs, 1, 0, true, .ro, 0xFFFFFFFFFFFFFFFF, 0x0⟩,
   ⟨"MG_CTX_MAP", Reg.mgCtxMap, 1, 0, false, .ro, 0xFFFFFFFF, 0x0⟩,
   ⟨"MG_CTX_PREEMPTS", Reg.mgCtxPreempts, 1, 0, true, .ro, 0xFFFFFFFFFFFFFFFF, 0x0⟩,
   ⟨"MG_CTX_RESTORES", Reg.mgCtxRestores, 1, 0, true, .ro, 0xFFFFFFFFFFFFFFFF, 0x0⟩,
   ⟨"MG_IDENT", Reg.mgIdent, 1, 0, false, .ro, 0xFFFFFFFF, 0x0⟩,
   ⟨"MG_FUSE_MAP", Reg.mgFuseMap, 1, 0, true, .ro, 0xFFFFFFFFFFFF, 0x0⟩,
   ⟨"MG_HAMPERS_ACTIVE", Reg.mgHampersActive, 1, 0, true, .ro, 0xFFFFFFFFFFFF, 0x0⟩,
   ⟨"MG_SERIAL", Reg.mgSerial, 1, 0, true, .ro, 0xFFFFFFFFFFFFFFFF, 0x0⟩]

/-- The register map of the MGMT page (R211, R364, R437, R475), part 3. -/
def mgmtRegs2 : List RegDesc :=
  [⟨"MG_MODULE_CLOCK", Reg.mgModuleClock, 1, 0, true, .ro, 0xFFFFFFFFFFFFFFFF, 0x0⟩,
   ⟨"MG_EVENTS_QUEUED", Reg.mgEventsQueued, 1, 0, false, .ro, 0x1FFF, 0x0⟩,
   ⟨"MG_FLASH_WRITES", Reg.mgFlashWrites, 1, 0, false, .ro, 0xFFFFFFFF, 0x0⟩,
   ⟨"MG_EVENT_TEST", Reg.mgEventTest, 1, 0, false, .rwx, 0xFFFF, 0x0⟩,
   ⟨"MG_FLASH_ERASE_LOG", Reg.mgFlashEraseLog, 1, 0, false, .rwx, 0x1, 0x0⟩]

/-- The register map of the MGMT page (R211, R364, R437, R475). -/
def mgmtRegs : List RegDesc := mgmtRegs0 ++ mgmtRegs1 ++ mgmtRegs2

/-- The register map of the FAULT page (R321). -/
def faultRegs : List RegDesc :=
  [⟨"FLT_STATE", Reg.fltState, 1, 0, false, .ro, 0x7F, 0x0⟩,
   ⟨"FLT_ATTEMPT", Reg.fltAttempt, 1, 0, false, .ro, 0xFFFFFFFF, 0x1⟩,
   ⟨"FLT_REPLAYS", Reg.fltReplays, 1, 0, true, .ro, 0xFFFFFFFFFFFFFFFF, 0x0⟩,
   ⟨"FLT_LOSS_NS", Reg.fltLossNs, 1, 0, true, .ro, 0xFFFFFFFFFFFFFFFF, 0x0⟩,
   ⟨"FLT_LOAD_CHECKS", Reg.fltLoadChecks, 1, 0, true, .ro, 0xFFFFFFFFFFFFFFFF, 0x0⟩,
   ⟨"FLT_STALE_DROPS", Reg.fltStaleDrops, 1, 0, true, .ro, 0xFFFFFFFFFFFFFFFF, 0x0⟩,
   ⟨"FLT_DOMAIN0", Reg.fltDomain, 4, 8, true, .rw, 0xFFFFFFFFFFFFFFFF, 0x0⟩,
   ⟨"FLT_REPLAY_LIMIT", Reg.fltReplayLimit, 1, 0, false, .rw, 0xFF, 0x3⟩,
   ⟨"FLT_CAUSE", Reg.fltCause, 1, 0, false, .ro, 0xFFFFF, 0x0⟩,
   ⟨"FLT_WIN_SEL", Reg.fltWinSel, 1, 0, false, .rw, 0xFFFF, 0x0⟩,
   ⟨"FLT_WIN_INFO", Reg.fltWinInfo, 1, 0, false, .ro, 0xFFFFFFFF, 0x0⟩,
   ⟨"FLT_LAG", Reg.fltLag, 1, 0, true, .ro, 0xFFFFFFFFFFFFFFFF, 0x0⟩,
   ⟨"FLT_LAG_SHARE", Reg.fltLagShare, 1, 0, false, .ro, 0xFFFF, 0x0⟩,
   ⟨"FLT_SUSPECTS", Reg.fltSuspects, 1, 0, true, .ro, 0xFFFFFFFFFFFFFFFF, 0x0⟩,
   ⟨"FLT_ESCAPES", Reg.fltEscapes, 1, 0, true, .ro, 0xFFFFFFFFFFFFFFFF, 0x0⟩,
   ⟨"FLT_REPORT", Reg.fltReport, 1, 0, true, .wo, 0xFFFFFFFFFFFFFFFF, 0x0⟩,
   ⟨"FLT_FLAG_CLEAR", Reg.fltFlagClear, 1, 0, false, .rwx, 0xFFFFFFFF, 0x0⟩]

/-- The register map of the POWER page (R456), part 1. -/
def powerRegs0 : List RegDesc :=
  [⟨"PWR_STATE", Reg.pwrState, 1, 0, false, .ro, 0x3FFF, 0x0⟩,
   ⟨"PWR_INPUT", Reg.pwrInput, 1, 0, false, .ro, 0xFFFFFFFF, 0x0⟩,
   ⟨"PWR_BUDGET", Reg.pwrBudget, 1, 0, false, .rw, 0xFFFF, 0xA28⟩,
   ⟨"PWR_DOM_SEL", Reg.pwrDomSel, 1, 0, false, .rw, 0xF, 0x0⟩,
   ⟨"PWR_DOM_INFO", Reg.pwrDomInfo, 1, 0, false, .ro, 0x3FFFF, 0x0⟩,
   ⟨"PWR_DOM_LIMIT", Reg.pwrDomLimit, 1, 0, false, .rw, 0x3FF03FF, 0x38402A8⟩,
   ⟨"PWR_BEAT_RATE", Reg.pwrBeatRate, 1, 0, false, .ro, 0xFFFFFFFF, 0x0⟩,
   ⟨"PWR_TJ_MAX", Reg.pwrTjMax, 1, 0, false, .ro, 0x3FF, 0x0⟩,
   ⟨"PWR_TJ_THROTTLE", Reg.pwrTjThrottle, 1, 0, false, .rw, 0xFF, 0x5F⟩,
   ⟨"PWR_SPEED_SEL", Reg.pwrSpeedSel, 1, 0, false, .rw, 0xFF, 0x0⟩,
   ⟨"PWR_SPEED", Reg.pwrSpeed, 1, 0, false, .ro, 0xFFFF, 0x0⟩,
   ⟨"PWR_COOLANT", Reg.pwrCoolant, 1, 0, false, .ro, 0xFFFF, 0x0⟩,
   ⟨"PWR_HALTS", Reg.pwrHalts, 1, 0, true, .ro, 0xFFFFFFFFFFFFFFFF, 0x0⟩,
   ⟨"PWR_HALT_NS", Reg.pwrHaltNs, 1, 0, true, .ro, 0xFFFFFFFFFFFFFFFF, 0x0⟩,
   ⟨"PWR_THROTTLE_NS", Reg.pwrThrottleNs, 1, 0, true, .ro, 0xFFFFFFFFFFFFFFFF, 0x0⟩,
   ⟨"PWR_ENERGY", Reg.pwrEnergy, 1, 0, true, .ro, 0xFFFFFFFFFFFFFFFF, 0x0⟩,
   ⟨"PWR_BOOT", Reg.pwrBoot, 1, 0, false, .ro, 0xFFFFFFFF, 0x0⟩,
   ⟨"PWR_RESET", Reg.pwrReset, 1, 0, false, .wo, 0x1, 0x0⟩,
   ⟨"PWR_BOOT_CFG", Reg.pwrBootCfg, 1, 0, false, .rwx, 0x1, 0x0⟩,
   ⟨"PWR_HARD_W", Reg.pwrHardW, 1, 0, false, .rwx, 0xFFFF, 0xBB8⟩]

/-- The register map of the POWER page (R456), part 2. -/
def powerRegs1 : List RegDesc :=
  [⟨"PWR_VOLT_FORCE", Reg.pwrVoltForce, 1, 0, false, .rwx, 0x83FF, 0x0⟩]

/-- The register map of the POWER page (R456). -/
def powerRegs : List RegDesc := powerRegs0 ++ powerRegs1

/-- The register map of the SECURE page (R421). -/
def secureRegs : List RegDesc :=
  [⟨"SEC_STATE", Reg.secState, 1, 0, false, .ro, 0x1F, 0x0⟩,
   ⟨"SEC_SVN", Reg.secSvn, 1, 0, false, .ro, 0xFFFFFF, 0x0⟩,
   ⟨"SEC_KEYSLOTS", Reg.secKeyslots, 1, 0, false, .ro, 0x3FF, 0x0⟩,
   ⟨"SEC_DEVICE_ID", Reg.secDeviceId, 1, 0, true, .ro, 0xFFFFFFFFFFFFFFFF, 0x0⟩,
   ⟨"SEC_FW_HASH0", Reg.secFwHash, 4, 8, true, .ro, 0xFFFFFFFFFFFFFFFF, 0x0⟩,
   ⟨"SEC_REPORT_ADDR", Reg.secReportAddr, 1, 0, true, .rw, 0xFFFFFFFFFFFFFFFF, 0x0⟩,
   ⟨"SEC_NONCE0", Reg.secNonce, 4, 8, true, .rw, 0xFFFFFFFFFFFFFFFF, 0x0⟩,
   ⟨"SEC_CTRL", Reg.secCtrl, 1, 0, false, .wo, 0x7, 0x0⟩,
   ⟨"SEC_STATUS", Reg.secStatus, 1, 0, false, .ro, 0xFFF, 0x0⟩,
   ⟨"SEC_OUT_LEN", Reg.secOutLen, 1, 0, true, .ro, 0xFFFFFFFFFFFFFFFF, 0x0⟩,
   ⟨"SEC_STAGE_ADDR", Reg.secStageAddr, 1, 0, true, .rw, 0xFFFFFFFFFFFFFFFF, 0x0⟩,
   ⟨"SEC_STAGE_LEN", Reg.secStageLen, 1, 0, true, .rw, 0xFFFFFFFFFFFFFFFF, 0x0⟩,
   ⟨"SEC_ANCHOR_HASH0", Reg.secAnchorHash, 16, 8, true, .ro, 0xFFFFFFFFFFFFFFFF, 0x0⟩,
   ⟨"SEC_ENTROPY_FAILS", Reg.secEntropyFails, 1, 0, true, .ro, 0xFFFFFFFFFFFFFFFF, 0x0⟩,
   ⟨"SEC_HANDSHAKE_FAILS", Reg.secHandshakeFails, 1, 0, true, .ro, 0xFFFFFFFFFFFFFFFF, 0x0⟩,
   ⟨"SEC_TIME_SKIPS", Reg.secTimeSkips, 1, 0, true, .ro, 0xFFFFFFFFFFFFFFFF, 0x0⟩,
   ⟨"SEC_SVN_COMMIT", Reg.secSvnCommit, 1, 0, false, .rwx, 0xFF, 0x0⟩,
   ⟨"SEC_KEY_REVOKE", Reg.secKeyRevoke, 1, 0, false, .rwx, 0x103, 0x0⟩,
   ⟨"SEC_TRUST_CTRL", Reg.secTrustCtrl, 1, 0, false, .rwx, 0x3F, 0x0⟩]

/-- The register map of the LEDGER page (R296). -/
def ledgerRegs : List RegDesc :=
  [⟨"LED_STATE", Reg.ledState, 1, 0, false, .ro, 0x7, 0x0⟩,
   ⟨"LED_CTX_SEL", Reg.ledCtxSel, 1, 0, false, .rw, 0xF, 0x0⟩,
   ⟨"LED_SEED_LO", Reg.ledSeedLo, 1, 0, true, .rw, 0xFFFFFFFFFFFFFFFF, 0x0⟩,
   ⟨"LED_SEED_HI", Reg.ledSeedHi, 1, 0, true, .rw, 0xFFFFFFFFFFFFFFFF, 0x0⟩,
   ⟨"LED_BASE", Reg.ledBase, 1, 0, true, .rw, 0xFFFFFFFFFFFFFFFF, 0x0⟩,
   ⟨"LED_SLOTS", Reg.ledSlots, 1, 0, false, .rw, 0xFFFF, 0x0⟩,
   ⟨"LED_EXPORT", Reg.ledExport, 1, 0, false, .rw, 0x1, 0x0⟩,
   ⟨"LED_HEAD", Reg.ledHead, 1, 0, true, .ro, 0xFFFFFFFFFFFFFFFF, 0x0⟩,
   ⟨"LED_ACKED", Reg.ledAcked, 1, 0, true, .ro, 0xFFFFFFFFFFFFFFFF, 0x0⟩,
   ⟨"LED_RECORDS", Reg.ledRecords, 1, 0, true, .ro, 0xFFFFFFFFFFFFFFFF, 0x0⟩,
   ⟨"LED_OVERWRITTEN", Reg.ledOverwritten, 1, 0, true, .ro, 0xFFFFFFFFFFFFFFFF, 0x0⟩,
   ⟨"LED_LH_SEL", Reg.ledLhSel, 1, 0, false, .rw, 0xFF3F, 0x0⟩,
   ⟨"LED_GSTEP", Reg.ledGstep, 1, 0, true, .ro, 0xFFFFFFFFFFFFFFFF, 0x0⟩,
   ⟨"LED_DIGEST", Reg.ledDigest, 1, 0, true, .ro, 0xFFFFFFFFFFFFFFFF, 0x0⟩,
   ⟨"LED_RESET_RING", Reg.ledResetRing, 1, 0, false, .rwx, 0x1, 0x0⟩]

/-- The register map of the SITECOUNT page (R298). -/
def siteCountRegs : List RegDesc :=
  [⟨"SC_STATE", Reg.scState, 1, 0, false, .ro, 0xFF, 0x0⟩,
   ⟨"SC_SOURCE", Reg.scSource, 1, 0, false, .rw, 0x7F, 0x0⟩,
   ⟨"SC_COUNT", Reg.scCount, 1, 0, true, .ro, 0xFFFFFFFFFFFFFFFF, 0x0⟩,
   ⟨"SC_OFFSET", Reg.scOffset, 1, 0, true, .ro, 0xFFFFFFFFFFFFFFFF, 0x0⟩,
   ⟨"SC_FREQ", Reg.scFreq, 1, 0, false, .ro, 0xFFFFFFFF, 0x0⟩,
   ⟨"SC_LOCK_WINDOW", Reg.scLockWindow, 1, 0, false, .rw, 0xFFFF, 0x14⟩,
   ⟨"SC_STEP_LIMIT", Reg.scStepLimit, 1, 0, false, .rw, 0xFFFFFFFF, 0x3E8⟩,
   ⟨"SC_HOLDOVER_LIMIT", Reg.scHoldoverLimit, 1, 0, false, .rw, 0xFFFFFFFF, 0x3C⟩,
   ⟨"SC_STEPS", Reg.scSteps, 1, 0, true, .ro, 0xFFFFFFFFFFFFFFFF, 0x0⟩,
   ⟨"SC_LAUNCH_SEL", Reg.scLaunchSel, 1, 0, false, .rw, 0xF, 0x0⟩,
   ⟨"SC_LAUNCH_AT", Reg.scLaunchAt, 1, 0, true, .ro, 0xFFFFFFFFFFFFFFFF, 0x0⟩,
   ⟨"SC_LAUNCH_LATE_NS", Reg.scLaunchLateNs, 1, 0, true, .ro, 0xFFFFFFFFFFFFFFFF, 0x0⟩,
   ⟨"SC_SET", Reg.scSet, 1, 0, true, .rwx, 0xFFFFFFFFFFFFFFFF, 0x0⟩]

/-- The register map of the TALLY page (R248), part 1. -/
def tallyRegs0 : List RegDesc :=
  [⟨"TLY_STATE", Reg.tlyState, 1, 0, false, .ro, 0xFF, 0x0⟩,
   ⟨"TLY_SEL", Reg.tlySel, 1, 0, false, .rw, 0xFFFF, 0x0⟩,
   ⟨"TLY_ENTRY", Reg.tlyEntry, 1, 0, true, .ro, 0xFFFFFFFFFFFFFFFF, 0x0⟩,
   ⟨"TLY_COUNT", Reg.tlyCount, 1, 0, false, .ro, 0xFFFFFFFF, 0x0⟩,
   ⟨"TLY_WAITERS", Reg.tlyWaiters, 1, 0, false, .ro, 0xFFFFFFFF, 0x0⟩,
   ⟨"TLY_BAR_SEL", Reg.tlyBarSel, 1, 0, false, .rw, 0x3F, 0x0⟩,
   ⟨"TLY_BAR_STATE", Reg.tlyBarState, 1, 0, true, .ro, 0xFFFFFFFFFFFF, 0x0⟩,
   ⟨"TLY_BAR_HAMPERS", Reg.tlyBarHampers, 1, 0, true, .ro, 0xFFFFFFFFFFFFFFFF, 0x0⟩,
   ⟨"TLY_BAR_CURRENT", Reg.tlyBarCurrent, 1, 0, true, .ro, 0xFFFFFFFFFFFFFFFF, 0x0⟩,
   ⟨"TLY_BAR_NEXT", Reg.tlyBarNext, 1, 0, true, .ro, 0xFFFFFFFFFFFFFFFF, 0x0⟩,
   ⟨"TLY_BAR_PEERS0", Reg.tlyBarPeers, 4, 8, true, .ro, 0xFFFFFFFFFFFFFFFF, 0x0⟩,
   ⟨"TLY_LEND_THRESH", Reg.tlyLendThresh, 1, 0, false, .rw, 0xFFFFFFFF, 0x7D0⟩,
   ⟨"TLY_SIGNALS", Reg.tlySignals, 1, 0, true, .ro, 0xFFFFFFFFFFFFFFFF, 0x0⟩,
   ⟨"TLY_RELEASES", Reg.tlyReleases, 1, 0, true, .ro, 0xFFFFFFFFFFFFFFFF, 0x0⟩,
   ⟨"TLY_ABANDONED", Reg.tlyAbandoned, 1, 0, true, .ro, 0xFFFFFFFFFFFFFFFF, 0x0⟩,
   ⟨"TLY_REMOTE_LOST", Reg.tlyRemoteLost, 1, 0, true, .ro, 0xFFFFFFFFFFFFFFFF, 0x0⟩,
   ⟨"TLY_LEND_EVENTS", Reg.tlyLendEvents, 1, 0, true, .ro, 0xFFFFFFFFFFFFFFFF, 0x0⟩,
   ⟨"TLY_FREE", Reg.tlyFree, 1, 0, false, .ro, 0x7FFFFF, 0x404000⟩,
   ⟨"TLY_REMOTE_WAITERS", Reg.tlyRemoteWaiters, 1, 0, false, .ro, 0x7FF, 0x0⟩,
   ⟨"TLY_ERR_INFO", Reg.tlyErrInfo, 1, 0, true, .ro, 0xFFFFFFFFF, 0x0⟩]

/-- The register map of the TALLY page (R248), part 2. -/
def tallyRegs1 : List RegDesc :=
  [⟨"TLY_COUNT_SET", Reg.tlyCountSet, 1, 0, false, .rwx, 0xFFFFFFFF, 0x0⟩,
   ⟨"TLY_BAR_REPAIR", Reg.tlyBarRepair, 1, 0, false, .rwx, 0x1, 0x0⟩]

/-- The register map of the TALLY page (R248). -/
def tallyRegs : List RegDesc := tallyRegs0 ++ tallyRegs1

/-- The register map of the RAMBLER page (R402), part 1. -/
def ramblerRegs0 : List RegDesc :=
  [⟨"RMB_STATE", Reg.rmbState, 1, 0, false, .ro, 0x3FF, 0x0⟩,
   ⟨"RMB_CFG", Reg.rmbCfg, 1, 0, false, .rw, 0xF07FF, 0x100⟩,
   ⟨"RMB_H", Reg.rmbH, 1, 0, false, .rw, 0xFFFF, 0x100⟩,
   ⟨"RMB_SHARD_LEN", Reg.rmbShardLen, 1, 0, false, .rw, 0x3FFF, 0x2000⟩,
   ⟨"RMB_DESC", Reg.rmbDesc, 1, 0, true, .rw, 0xFFFFFFFFFFFFFFFF, 0x0⟩,
   ⟨"RMB_CMD_BASE", Reg.rmbCmdBase, 1, 0, true, .rw, 0xFFFFFFFFFFFFFFFF, 0x0⟩,
   ⟨"RMB_CMD_CFG", Reg.rmbCmdCfg, 1, 0, false, .rw, 0x1FFF0FFF, 0x0⟩,
   ⟨"RMB_STALE_CFG", Reg.rmbStaleCfg, 1, 0, false, .rw, 0x8FFF, 0x0⟩,
   ⟨"RMB_LIMIT", Reg.rmbLimit, 1, 0, true, .ro, 0xFFFFFFFFFFFF, 0x0⟩,
   ⟨"RMB_ROUNDS", Reg.rmbRounds, 1, 0, true, .ro, 0xFFFFFFFFFFFFFFFF, 0x0⟩,
   ⟨"RMB_OUTBOX", Reg.rmbOutbox, 1, 0, true, .rw, 0xFFFFFFFFFFFFFFFF, 0x0⟩,
   ⟨"RMB_OUTBOX_SIZE", Reg.rmbOutboxSize, 1, 0, true, .rw, 0xFFFFFFFFFFFFFFFF, 0x0⟩,
   ⟨"RMB_ARCHIVE", Reg.rmbArchive, 1, 0, true, .rw, 0xFFFFFFFFFFFFFFFF, 0x0⟩,
   ⟨"RMB_ARCHIVE_ROUNDS", Reg.rmbArchiveRounds, 1, 0, false, .rw, 0xFFFF, 0x0⟩,
   ⟨"RMB_ARCHIVE_SLOT", Reg.rmbArchiveSlot, 1, 0, true, .ro, 0xFFFFFFFFFFFFFFFF, 0x0⟩,
   ⟨"RMB_MANIFEST", Reg.rmbManifest, 1, 0, true, .rw, 0xFFFFFFFFFFFFFFFF, 0x0⟩,
   ⟨"RMB_MANIFEST_SLOTS", Reg.rmbManifestSlots, 1, 0, false, .rw, 0xFFFF, 0x0⟩,
   ⟨"RMB_TIMERS", Reg.rmbTimers, 1, 0, false, .rw, 0xFFFF00FF, 0x7D00064⟩,
   ⟨"RMB_RESEND_US", Reg.rmbResendUs, 1, 0, false, .rw, 0xFFFFFFFF, 0xC350⟩,
   ⟨"RMB_SNAP_ROUND", Reg.rmbSnapRound, 1, 0, false, .rw, 0xFFFFFFFF, 0x0⟩]

/-- The register map of the RAMBLER page (R402), part 2. -/
def ramblerRegs1 : List RegDesc :=
  [⟨"RMB_SNAP_ADDR", Reg.rmbSnapAddr, 1, 0, true, .rw, 0xFFFFFFFFFFFFFFFF, 0x0⟩,
   ⟨"RMB_MEMBER0", Reg.rmbMember, 16, 4, false, .rw, 0xFFFFFFFF, 0x0⟩,
   ⟨"RMB_ROUTE_SEL", Reg.rmbRouteSel, 1, 0, false, .rw, 0x3F, 0x0⟩,
   ⟨"RMB_ROUTE_ADDR", Reg.rmbRouteAddr, 2, 8, true, .rw, 0xFFFFFFFFFFFFFFFF, 0x0⟩,
   ⟨"RMB_ROUTE_CFG", Reg.rmbRouteCfg, 1, 0, false, .rw, 0xFFFF0007, 0x0⟩,
   ⟨"RMB_PEER_INFO", Reg.rmbPeerInfo, 1, 0, false, .ro, 0x3F, 0x0⟩,
   ⟨"RMB_EPOCH", Reg.rmbEpoch, 1, 0, false, .ro, 0xFFFFFFFF, 0x0⟩,
   ⟨"RMB_EPOCH_COUNT", Reg.rmbEpochCount, 1, 0, false, .ro, 0xFFFFFFFF, 0x0⟩,
   ⟨"RMB_SHARDS_TX", Reg.rmbShardsTx, 1, 0, true, .ro, 0xFFFFFFFFFFFFFFFF, 0x0⟩,
   ⟨"RMB_SHARDS_RX", Reg.rmbShardsRx, 1, 0, true, .ro, 0xFFFFFFFFFFFFFFFF, 0x0⟩,
   ⟨"RMB_PARITY_SENT", Reg.rmbParitySent, 1, 0, true, .ro, 0xFFFFFFFFFFFFFFFF, 0x0⟩,
   ⟨"RMB_REISSUES", Reg.rmbReissues, 1, 0, true, .ro, 0xFFFFFFFFFFFFFFFF, 0x0⟩,
   ⟨"RMB_AUTH_FAILS", Reg.rmbAuthFails, 1, 0, true, .ro, 0xFFFFFFFFFFFFFFFF, 0x0⟩,
   ⟨"RMB_REPLAYED", Reg.rmbReplayed, 1, 0, true, .ro, 0xFFFFFFFFFFFFFFFF, 0x0⟩,
   ⟨"RMB_KEY_UNKNOWN", Reg.rmbKeyUnknown, 1, 0, true, .ro, 0xFFFFFFFFFFFFFFFF, 0x0⟩,
   ⟨"RMB_STALE_EPOCH", Reg.rmbStaleEpoch, 1, 0, true, .ro, 0xFFFFFFFFFFFFFFFF, 0x0⟩,
   ⟨"RMB_NONFIN", Reg.rmbNonfin, 1, 0, true, .ro, 0xFFFFFFFFFFFFFFFF, 0x0⟩,
   ⟨"RMB_SAT", Reg.rmbSat, 1, 0, true, .ro, 0xFFFFFFFFFFFFFFFF, 0x0⟩,
   ⟨"RMB_ARCHIVE_OVERWRITTEN", Reg.rmbArchiveOverwritten, 1, 0, true, .ro, 0xFFFFFFFFFFFFFFFF, 0x0⟩,
   ⟨"RMB_RESIDUE_FAILS", Reg.rmbResidueFails, 1, 0, false, .ro, 0xFFFFFFFF, 0x0⟩]

/-- The register map of the RAMBLER page (R402), part 3. -/
def ramblerRegs2 : List RegDesc :=
  [⟨"RMB_INJECT", Reg.rmbInject, 1, 0, false, .rwx, 0x1, 0x0⟩,
   ⟨"RMB_REKEY", Reg.rmbRekey, 1, 0, false, .rwx, 0x1, 0x0⟩]

/-- The register map of the RAMBLER page (R402). -/
def ramblerRegs : List RegDesc := ramblerRegs0 ++ ramblerRegs1 ++ ramblerRegs2

/-- The register map of the PORT page (R362), part 1. -/
def portRegs0 : List RegDesc :=
  [⟨"PORT_STATE", Reg.portState, 1, 0, false, .ro, 0xFFFFFF, 0x0⟩,
   ⟨"PORT_CFG", Reg.portCfg, 1, 0, false, .rw, 0x3, 0x0⟩,
   ⟨"PORT_MAX_FRAME", Reg.portMaxFrame, 1, 0, false, .rw, 0x3FFF, 0x5EE⟩,
   ⟨"PORT_PTP", Reg.portPtp, 1, 0, false, .rw, 0x3FF, 0x0⟩,
   ⟨"PORT_MAC_h", Reg.portMac, 2, 64, true, .rw, 0xFFFFFFFFFFFF, 0x0⟩,
   ⟨"PORT_VLAN_h", Reg.portVlan, 2, 64, false, .rw, 0xFFFF, 0x0⟩,
   ⟨"PORT_IP_h", Reg.portIp, 2, 64, true, .rw, 0xFFFFFFFFFFFFFFFF, 0x0⟩,
   ⟨"PORT_IP_h_LO", Reg.portIpLo, 2, 64, true, .rw, 0xFFFFFFFFFFFFFFFF, 0x0⟩,
   ⟨"PORT_GW_h", Reg.portGw, 2, 64, true, .rw, 0xFFFFFFFFFFFFFFFF, 0x0⟩,
   ⟨"PORT_GW_h_LO", Reg.portGwLo, 2, 64, true, .rw, 0xFFFFFFFFFFFFFFFF, 0x0⟩,
   ⟨"PORT_PREFIX_h", Reg.portPrefix, 2, 64, false, .rw, 0xFF, 0x0⟩,
   ⟨"PORT_TX_FRAMES", Reg.portTxFrames, 1, 0, true, .ro, 0xFFFFFFFFFFFFFFFF, 0x0⟩,
   ⟨"PORT_RX_FRAMES", Reg.portRxFrames, 1, 0, true, .ro, 0xFFFFFFFFFFFFFFFF, 0x0⟩,
   ⟨"PORT_RX_DROPPED", Reg.portRxDropped, 1, 0, true, .ro, 0xFFFFFFFFFFFFFFFF, 0x0⟩,
   ⟨"PORT_FCS_ERRORS", Reg.portFcsErrors, 1, 0, true, .ro, 0xFFFFFFFFFFFFFFFF, 0x0⟩,
   ⟨"PORT_PCHK_ERRORS", Reg.portPchkErrors, 1, 0, true, .ro, 0xFFFFFFFFFFFFFFFF, 0x0⟩,
   ⟨"PORT_FEC_CORRECTED", Reg.portFecCorrected, 1, 0, true, .ro, 0xFFFFFFFFFFFFFFFF, 0x0⟩,
   ⟨"PORT_FEC_UNCORRECTED", Reg.portFecUncorrected, 1, 0, true, .ro, 0xFFFFFFFFFFFFFFFF, 0x0⟩,
   ⟨"PORT_RETRAINS", Reg.portRetrains, 1, 0, true, .ro, 0xFFFFFFFFFFFFFFFF, 0x0⟩,
   ⟨"PORT_DOWN_NS", Reg.portDownNs, 1, 0, true, .ro, 0xFFFFFFFFFFFFFFFF, 0x0⟩]

/-- The register map of the PORT page (R362), part 2. -/
def portRegs1 : List RegDesc :=
  [⟨"PORT_LANE_SEL", Reg.portLaneSel, 1, 0, false, .rw, 0x7, 0x0⟩,
   ⟨"PORT_LANE_INFO", Reg.portLaneInfo, 1, 0, false, .ro, 0xFFFF, 0x0⟩,
   ⟨"PORT_LOOPBACK", Reg.portLoopback, 1, 0, false, .rwx, 0x1, 0x0⟩,
   ⟨"PORT_LANE_RETIRE", Reg.portLaneRetire, 1, 0, false, .rwx, 0x1FF, 0x0⟩]

/-- The register map of the PORT page (R362). -/
def portRegs : List RegDesc := portRegs0 ++ portRegs1

/-- The register map of the HBMC page (R270). -/
def hbmcRegs : List RegDesc :=
  [⟨"HBM_STATE", Reg.hbmState, 1, 0, false, .ro, 0x1FF, 0x0⟩,
   ⟨"HBM_CE", Reg.hbmCe, 1, 0, true, .ro, 0xFFFFFFFFFFFFFFFF, 0x0⟩,
   ⟨"HBM_UE", Reg.hbmUe, 1, 0, true, .ro, 0xFFFFFFFFFFFFFFFF, 0x0⟩,
   ⟨"HBM_WRITE_CHECKS", Reg.hbmWriteChecks, 1, 0, true, .ro, 0xFFFFFFFFFFFFFFFF, 0x0⟩,
   ⟨"HBM_SCHED_WAITS", Reg.hbmSchedWaits, 1, 0, true, .ro, 0xFFFFFFFFFFFFFFFF, 0x0⟩,
   ⟨"HBM_SCHED_WAIT_NS", Reg.hbmSchedWaitNs, 1, 0, true, .ro, 0xFFFFFFFFFFFFFFFF, 0x0⟩,
   ⟨"HBM_LAST_CE_ADDR", Reg.hbmLastCeAddr, 1, 0, true, .ro, 0xFFFFFFFFFFFFFFFF, 0x0⟩,
   ⟨"HBM_LAST_UE_ADDR", Reg.hbmLastUeAddr, 1, 0, true, .ro, 0xFFFFFFFFFFFFFFFF, 0x0⟩,
   ⟨"HBM_ROWS_RETIRED", Reg.hbmRowsRetired, 1, 0, false, .ro, 0xFFFFFFFF, 0x0⟩,
   ⟨"HBM_PC_RETIRED", Reg.hbmPcRetired, 1, 0, false, .ro, 0xFFFFFFFF, 0x0⟩,
   ⟨"HBM_PC_SEL", Reg.hbmPcSel, 1, 0, false, .rw, 0x1F, 0x0⟩,
   ⟨"HBM_PC_INFO", Reg.hbmPcInfo, 1, 0, false, .ro, 0xFFFFFFFF, 0x0⟩,
   ⟨"HBM_POISON_COUNT", Reg.hbmPoisonCount, 1, 0, false, .ro, 0x7F, 0x0⟩,
   ⟨"HBM_REFUGE_FREE", Reg.hbmRefugeFree, 1, 0, false, .ro, 0xF, 0x8⟩,
   ⟨"HBM_TEMP", Reg.hbmTemp, 1, 0, false, .ro, 0xFF, 0x0⟩,
   ⟨"HBM_SCRUB_HOURS", Reg.hbmScrubHours, 1, 0, false, .rw, 0xFF, 0xC⟩,
   ⟨"HBM_REFRESH_WAITS", Reg.hbmRefreshWaits, 1, 0, true, .ro, 0xFFFFFFFFFFFFFFFF, 0x0⟩,
   ⟨"HBM_INJECT", Reg.hbmInject, 1, 0, false, .rwx, 0x7, 0x0⟩,
   ⟨"HBM_INJECT_ADDR", Reg.hbmInjectAddr, 1, 0, true, .rwx, 0xFFFFFFFFFFFFFFFF, 0x0⟩,
   ⟨"HBM_RETIRE_ROW", Reg.hbmRetireRow, 1, 0, true, .rwx, 0xFFFFFFFFFFFFFFFF, 0x0⟩]

/-- The register map of the LPC page (R273). -/
def lpcRegs : List RegDesc :=
  [⟨"LPC_STATE", Reg.lpcState, 1, 0, false, .ro, 0x1FF, 0x0⟩,
   ⟨"LPC_CE", Reg.lpcCe, 1, 0, true, .ro, 0xFFFFFFFFFFFFFFFF, 0x0⟩,
   ⟨"LPC_UE", Reg.lpcUe, 1, 0, true, .ro, 0xFFFFFFFFFFFFFFFF, 0x0⟩,
   ⟨"LPC_WRITE_CHECKS", Reg.lpcWriteChecks, 1, 0, true, .ro, 0xFFFFFFFFFFFFFFFF, 0x0⟩,
   ⟨"LPC_LAST_CE_ADDR", Reg.lpcLastCeAddr, 1, 0, true, .ro, 0xFFFFFFFFFFFFFFFF, 0x0⟩,
   ⟨"LPC_LAST_UE_ADDR", Reg.lpcLastUeAddr, 1, 0, true, .ro, 0xFFFFFFFFFFFFFFFF, 0x0⟩,
   ⟨"LPC_REPAIRS", Reg.lpcRepairs, 1, 0, false, .ro, 0xFFFF, 0x0⟩,
   ⟨"LPC_REPAIRS_LEFT", Reg.lpcRepairsLeft, 1, 0, false, .ro, 0xFFFF, 0x4444⟩,
   ⟨"LPC_POISON_COUNT", Reg.lpcPoisonCount, 1, 0, false, .ro, 0x7F, 0x0⟩,
   ⟨"LPC_TEMP", Reg.lpcTemp, 1, 0, false, .ro, 0xFF, 0x0⟩,
   ⟨"LPC_SCRUB_HOURS", Reg.lpcScrubHours, 1, 0, false, .rw, 0xFF, 0xC⟩,
   ⟨"LPC_REFRESH_WAITS", Reg.lpcRefreshWaits, 1, 0, true, .ro, 0xFFFFFFFFFFFFFFFF, 0x0⟩,
   ⟨"LPC_INJECT", Reg.lpcInject, 1, 0, false, .rwx, 0x7, 0x0⟩,
   ⟨"LPC_INJECT_ADDR", Reg.lpcInjectAddr, 1, 0, true, .rwx, 0xFFFFFFFFFFFFFFFF, 0x0⟩]

/-- The register map of the UPDATE page of a unit (R145). -/
def updateRegs : List RegDesc :=
  [⟨"UPD_STATE", Reg.updState, 1, 0, false, .ro, 0x1FF, 0x0⟩,
   ⟨"UPD_CURSOR", Reg.updCursor, 1, 0, true, .ro, 0xFFFFFFFFFFFFFFFF, 0x0⟩,
   ⟨"UPD_CHUNKS", Reg.updChunks, 1, 0, true, .ro, 0xFFFFFFFFFFFFFFFF, 0x0⟩,
   ⟨"UPD_RETRIES", Reg.updRetries, 1, 0, true, .ro, 0xFFFFFFFFFFFFFFFF, 0x0⟩,
   ⟨"UPD_NONFIN", Reg.updNonfin, 1, 0, true, .ro, 0xFFFFFFFFFFFFFFFF, 0x0⟩,
   ⟨"UPD_SAT", Reg.updSat, 1, 0, true, .ro, 0xFFFFFFFFFFFFFFFF, 0x0⟩,
   ⟨"UPD_RESIDUE_FAILS", Reg.updResidueFails, 1, 0, false, .ro, 0xFFFFFFFF, 0x0⟩,
   ⟨"UPD_RECIPE_VALID", Reg.updRecipeValid, 1, 0, false, .ro, 0xFFFF, 0x0⟩,
   ⟨"UPD_HOME", Reg.updHome, 1, 0, false, .ro, 0xFFFFFFFF, 0x0⟩,
   ⟨"UPD_INJECT", Reg.updInject, 1, 0, false, .rwx, 0x1, 0x0⟩,
   ⟨"UPD_BIST", Reg.updBist, 1, 0, false, .rwx, 0x1, 0x0⟩]

/-- The register map of the HAMPER page (R180). -/
def hamperRegs : List RegDesc :=
  [⟨"HAM_STATE", Reg.hamState, 1, 0, false, .ro, 0x7FFF, 0x0⟩,
   ⟨"HAM_LSEL", Reg.hamLsel, 1, 0, false, .rw, 0x1, 0x0⟩,
   ⟨"HAM_PC", Reg.hamPc, 1, 0, true, .ro, 0xFFFFFFFFFFFFFFFF, 0x0⟩,
   ⟨"HAM_BEAT", Reg.hamBeat, 1, 0, true, .ro, 0xFFFFFFFFFFFFFFFF, 0x0⟩,
   ⟨"HAM_ISSUED", Reg.hamIssued, 1, 0, true, .ro, 0xFFFFFFFFFFFFFFFF, 0x0⟩,
   ⟨"HAM_INTERLOCK", Reg.hamInterlock, 1, 0, true, .ro, 0xFFFFFFFFFFFFFFFF, 0x0⟩,
   ⟨"HAM_IFETCH_MISS", Reg.hamIfetchMiss, 1, 0, true, .ro, 0xFFFFFFFFFFFFFFFF, 0x0⟩,
   ⟨"HAM_TAKES", Reg.hamTakes, 1, 0, true, .ro, 0xFFFFFFFFFFFFFFFF, 0x0⟩,
   ⟨"HAM_STEALS", Reg.hamSteals, 1, 0, true, .ro, 0xFFFFFFFFFFFFFFFF, 0x0⟩,
   ⟨"HAM_STEALS_DROPPED", Reg.hamStealsDropped, 1, 0, true, .ro, 0xFFFFFFFFFFFFFFFF, 0x0⟩,
   ⟨"HAM_STEP_NONFIN", Reg.hamStepNonfin, 1, 0, false, .ro, 0xFFFFFFFF, 0x0⟩,
   ⟨"HAM_STEP_SAT", Reg.hamStepSat, 1, 0, false, .ro, 0xFFFFFFFF, 0x0⟩,
   ⟨"HAM_STEP_MROWS", Reg.hamStepMrows, 1, 0, false, .ro, 0xFFFFFFFF, 0x0⟩,
   ⟨"HAM_FAULT_PC", Reg.hamFaultPc, 1, 0, true, .ro, 0xFFFFFFFFFFFFFFFF, 0x0⟩,
   ⟨"HAM_SREG_SEL", Reg.hamSregSel, 1, 0, false, .rwx, 0x1F, 0x0⟩,
   ⟨"HAM_SREG_DATA", Reg.hamSregData, 1, 0, true, .rwx, 0xFFFFFFFFFFFFFFFF, 0x0⟩]

/-- The register map of the FEEDER page (R472). -/
def feederRegs : List RegDesc :=
  [⟨"FEED_STATE", Reg.feedState, 1, 0, false, .ro, 0x3F, 0x0⟩,
   ⟨"FEED_LINES", Reg.feedLines, 1, 0, true, .ro, 0xFFFFFFFFFFFFFFFF, 0x0⟩,
   ⟨"FEED_TRANS_LINES", Reg.feedTransLines, 1, 0, true, .ro, 0xFFFFFFFFFFFFFFFF, 0x0⟩,
   ⟨"FEED_CONVERTED", Reg.feedConverted, 1, 0, true, .ro, 0xFFFFFFFFFFFFFFFF, 0x0⟩,
   ⟨"FEED_NONFIN", Reg.feedNonfin, 1, 0, true, .ro, 0xFFFFFFFFFFFFFFFF, 0x0⟩,
   ⟨"FEED_SAT", Reg.feedSat, 1, 0, true, .ro, 0xFFFFFFFFFFFFFFFF, 0x0⟩,
   ⟨"FEED_LOAD_CHECKS", Reg.feedLoadChecks, 1, 0, false, .ro, 0xFFFFFFFF, 0x0⟩,
   ⟨"FEED_TURNS", Reg.feedTurns, 1, 0, true, .ro, 0xFFFFFFFFFFFFFFFF, 0x0⟩,
   ⟨"FEED_INJECT", Reg.feedInject, 1, 0, false, .rwx, 0x1, 0x0⟩]

/-- The register map of the VECTOR page (R116). -/
def vectorRegs : List RegDesc :=
  [⟨"VEC_STATE", Reg.vecState, 1, 0, false, .ro, 0x1FF, 0x0⟩,
   ⟨"VEC_CALLS", Reg.vecCalls, 1, 0, true, .ro, 0xFFFFFFFFFFFFFFFF, 0x0⟩,
   ⟨"VEC_ELEMENTS", Reg.vecElements, 1, 0, true, .ro, 0xFFFFFFFFFFFFFFFF, 0x0⟩,
   ⟨"VEC_NONFIN", Reg.vecNonfin, 1, 0, true, .ro, 0xFFFFFFFFFFFFFFFF, 0x0⟩,
   ⟨"VEC_SAT", Reg.vecSat, 1, 0, true, .ro, 0xFFFFFFFFFFFFFFFF, 0x0⟩,
   ⟨"VEC_MASKED_ROWS", Reg.vecMaskedRows, 1, 0, true, .ro, 0xFFFFFFFFFFFFFFFF, 0x0⟩,
   ⟨"VEC_RESIDUE_FAILS", Reg.vecResidueFails, 1, 0, false, .ro, 0xFFFFFFFF, 0x0⟩,
   ⟨"VEC_RECIPE_VALID", Reg.vecRecipeValid, 1, 0, true, .ro, 0xFFFFFFFFFFFFFFFF, 0x0⟩,
   ⟨"VEC_RSTORE_SEL", Reg.vecRstoreSel, 1, 0, false, .rw, 0x7FF, 0x0⟩,
   ⟨"VEC_RSTORE_DATA", Reg.vecRstoreData, 1, 0, false, .rw, 0xFFFFFFFF, 0x0⟩,
   ⟨"VEC_RSTORE_COMMIT", Reg.vecRstoreCommit, 1, 0, false, .wo, 0x3F, 0x0⟩,
   ⟨"VEC_RSTORE_FAULT", Reg.vecRstoreFault, 1, 0, false, .ro, 0xFFFF, 0x0⟩,
   ⟨"VEC_LAST_SUMMARY0", Reg.vecLastSummary, 4, 8, true, .ro, 0xFFFFFFFFFFFFFFFF, 0x0⟩,
   ⟨"VEC_INJECT", Reg.vecInject, 1, 0, false, .rwx, 0x1FF, 0x0⟩,
   ⟨"VEC_BIST", Reg.vecBist, 1, 0, false, .rwx, 0x1, 0x0⟩]

/-- The register map of the PANTRY page (R208). -/
def pantryRegs : List RegDesc :=
  [⟨"PAN_CONFLICT_BEATS", Reg.panConflictBeats, 1, 0, true, .ro, 0xFFFFFFFFFFFFFFFF, 0x0⟩,
   ⟨"PAN_CONFLICT_CYCLES", Reg.panConflictCycles, 1, 0, true, .ro, 0xFFFFFFFFFFFFFFFF, 0x0⟩,
   ⟨"PAN_SLOT_CONFLICTS", Reg.panSlotConflicts, 1, 0, true, .ro, 0xFFFFFFFFFFFFFFFF, 0x0⟩,
   ⟨"PAN_SLOT_INFO", Reg.panSlotInfo, 1, 0, true, .ro, 0xFFFFFFFF0003FFFF, 0x0⟩,
   ⟨"PAN_HAZARDS", Reg.panHazards, 1, 0, true, .ro, 0xFFFFFFFFFFFFFFFF, 0x0⟩,
   ⟨"PAN_HAZ_SEL", Reg.panHazSel, 1, 0, false, .rw, 0xF, 0x0⟩,
   ⟨"PAN_HAZ_ENTRY", Reg.panHazEntry, 1, 0, true, .ro, 0xFFFFFFFFFFFFFFFF, 0x0⟩,
   ⟨"PAN_HAZ_BEAT", Reg.panHazBeat, 1, 0, true, .ro, 0xFFFFFFFFFFFFFFFF, 0x0⟩,
   ⟨"PAN_HAZ_CTRL", Reg.panHazCtrl, 1, 0, false, .rwx, 0x7, 0x0⟩]

/-- The register map of the STASH page (R92). -/
def stashRegs : List RegDesc :=
  [⟨"STASH_STATE", Reg.stashState, 1, 0, false, .ro, 0x3F, 0x0⟩,
   ⟨"STASH_PUSHES", Reg.stashPushes, 1, 0, true, .ro, 0xFFFFFFFFFFFFFFFF, 0x0⟩,
   ⟨"STASH_POPS", Reg.stashPops, 1, 0, true, .ro, 0xFFFFFFFFFFFFFFFF, 0x0⟩,
   ⟨"STASH_SPILLED", Reg.stashSpilled, 1, 0, true, .ro, 0xFFFFFFFFFFFFFFFF, 0x0⟩,
   ⟨"STASH_HBM_ALLOC", Reg.stashHbmAlloc, 1, 0, true, .ro, 0xFFFFFFFFFFFFFFFF, 0x0⟩,
   ⟨"STASH_ERR_EXPECT", Reg.stashErrExpect, 1, 0, false, .ro, 0xFFFFFFFF, 0x0⟩,
   ⟨"STASH_ERR_FOUND", Reg.stashErrFound, 1, 0, false, .ro, 0xFFFFFFFF, 0x0⟩,
   ⟨"STASH_ERR_INFO", Reg.stashErrInfo, 1, 0, false, .ro, 0xF07, 0x0⟩,
   ⟨"STASH_BASE_s", Reg.stashBase, 8, 64, true, .rw, 0xFFFFFFFFFFFFFFFF, 0x0⟩,
   ⟨"STASH_WMARK_s", Reg.stashWmark, 8, 64, true, .rw, 0xFFFFFFFFFFFFFFFF, 0x0⟩,
   ⟨"STASH_EXT_BASE_s", Reg.stashExtBase, 8, 64, true, .rw, 0xFFFFFFFFFFFFFFFF, 0x0⟩,
   ⟨"STASH_EXT_SIZE_s", Reg.stashExtSize, 8, 64, true, .rw, 0xFFFFFFFFFFFFFFFF, 0x0⟩,
   ⟨"STASH_TOP_H_s", Reg.stashTopH, 8, 64, true, .ro, 0xFFFFFFFFFFFFFFFF, 0x0⟩,
   ⟨"STASH_TOP_E_s", Reg.stashTopE, 8, 64, true, .ro, 0xFFFFFFFFFFFFFFFF, 0x0⟩,
   ⟨"STASH_DEPTH_s", Reg.stashDepth, 8, 64, false, .ro, 0xFFFFFFFF, 0x0⟩,
   ⟨"STASH_CTX_s", Reg.stashCtx, 8, 64, false, .rw, 0xF, 0x0⟩,
   ⟨"STASH_PEAK_s", Reg.stashPeak, 8, 64, true, .ro, 0xFFFFFFFFFFFFFFFF, 0x0⟩]

/-- The register map of the LIST page (R228), part 1. -/
def listRegs0 : List RegDesc :=
  [⟨"LIST_STATE", Reg.listState, 1, 0, false, .ro, 0x1FF, 0x0⟩,
   ⟨"LIST_BASE", Reg.listBase, 1, 0, false, .rw, 0xFFFFFFFF, 0x0⟩,
   ⟨"LIST_SIZE", Reg.listSize, 1, 0, false, .rw, 0xF, 0x0⟩,
   ⟨"LIST_STAGE", Reg.listStage, 1, 0, false, .rw, 0xFFFFFFFF, 0x0⟩,
   ⟨"LIST_STAGE_SIZE", Reg.listStageSize, 1, 0, false, .rw, 0xFFFFFFFF, 0x0⟩,
   ⟨"LIST_TAKE_ADDR", Reg.listTakeAddr, 1, 0, false, .rw, 0xFFFFFFFF, 0x0⟩,
   ⟨"LIST_STEAL_CFG", Reg.listStealCfg, 1, 0, false, .rw, 0xFFFF, 0x100B⟩,
   ⟨"LIST_COUNT", Reg.listCount, 1, 0, false, .ro, 0xFFFFFFFF, 0x0⟩,
   ⟨"LIST_PENDING", Reg.listPending, 1, 0, false, .ro, 0xFFFFFFFF, 0x0⟩,
   ⟨"LIST_CURSOR", Reg.listCursor, 1, 0, false, .ro, 0x3F, 0x0⟩,
   ⟨"LIST_POSTED", Reg.listPosted, 1, 0, true, .ro, 0xFFFFFFFFFFFFFFFF, 0x0⟩,
   ⟨"LIST_TAKEN", Reg.listTaken, 1, 0, true, .ro, 0xFFFFFFFFFFFFFFFF, 0x0⟩,
   ⟨"LIST_STOLEN_IN", Reg.listStolenIn, 1, 0, true, .ro, 0xFFFFFFFFFFFFFFFF, 0x0⟩,
   ⟨"LIST_STOLEN_OUT", Reg.listStolenOut, 1, 0, true, .ro, 0xFFFFFFFFFFFFFFFF, 0x0⟩,
   ⟨"LIST_PROBES_EMPTY", Reg.listProbesEmpty, 1, 0, true, .ro, 0xFFFFFFFFFFFFFFFF, 0x0⟩,
   ⟨"LIST_MERGES_OUT", Reg.listMergesOut, 1, 0, true, .ro, 0xFFFFFFFFFFFFFFFF, 0x0⟩,
   ⟨"LIST_MERGES_IN", Reg.listMergesIn, 1, 0, true, .ro, 0xFFFFFFFFFFFFFFFF, 0x0⟩,
   ⟨"LIST_STALL_BEATS", Reg.listStallBeats, 1, 0, true, .ro, 0xFFFFFFFFFFFFFFFF, 0x0⟩,
   ⟨"LIST_ITEM_NONFIN", Reg.listItemNonfin, 1, 0, false, .ro, 0xFFFFFFFF, 0x0⟩,
   ⟨"LIST_ITEM_SAT", Reg.listItemSat, 1, 0, false, .ro, 0xFFFFFFFF, 0x0⟩]

/-- The register map of the LIST page (R228), part 2. -/
def listRegs1 : List RegDesc :=
  [⟨"LIST_ITEM_MROWS", Reg.listItemMrows, 1, 0, false, .ro, 0xFFFFFFFF, 0x0⟩,
   ⟨"LIST_FLUSH", Reg.listFlush, 1, 0, false, .rwx, 0x1, 0x0⟩]

/-- The register map of the LIST page (R228). -/
def listRegs : List RegDesc := listRegs0 ++ listRegs1

/-- The register map of the FRAME page (R68). -/
def frameRegs : List RegDesc :=
  [⟨"FRAME_STATE", Reg.frameState, 1, 0, false, .ro, 0xFFFFFFFF, 0x0⟩,
   ⟨"FRAME_PROGRESS", Reg.frameProgress, 1, 0, true, .ro, 0xFFFFFFFFFFFFFFFF, 0x0⟩,
   ⟨"FRAME_PASSES", Reg.framePasses, 1, 0, true, .ro, 0xFFFFFFFFFFFFFFFF, 0x0⟩,
   ⟨"FRAME_ROWS_FED", Reg.frameRowsFed, 1, 0, true, .ro, 0xFFFFFFFFFFFFFFFF, 0x0⟩,
   ⟨"FRAME_ROWS_MASKED", Reg.frameRowsMasked, 1, 0, true, .ro, 0xFFFFFFFFFFFFFFFF, 0x0⟩,
   ⟨"FRAME_SAT_COUNT", Reg.frameSatCount, 1, 0, true, .ro, 0xFFFFFFFFFFFFFFFF, 0x0⟩,
   ⟨"FRAME_SAT_FLAG", Reg.frameSatFlag, 1, 0, false, .w1c, 0x1, 0x0⟩,
   ⟨"FRAME_ANCHOR", Reg.frameAnchor, 1, 0, false, .ro, 0x3FF, 0x0⟩,
   ⟨"FRAME_WMAX", Reg.frameWmax, 1, 0, false, .ro, 0xFFFF, 0x0⟩,
   ⟨"FRAME_REPAIR0", Reg.frameRepair, 16, 4, false, .ro, 0xFFFFFFFF, 0x0⟩,
   ⟨"FRAME_RESIDUE_FAILS", Reg.frameResidueFails, 1, 0, false, .ro, 0xFFFFFFFF, 0x0⟩,
   ⟨"FRAME_INJECT", Reg.frameInject, 1, 0, false, .rwx, 0x17F, 0x0⟩,
   ⟨"FRAME_BIST", Reg.frameBist, 1, 0, false, .rwx, 0x1, 0x0⟩]

/-- The register map of the UPDATE page of UC (R146). -/
def ucRegs : List RegDesc :=
  [⟨"UC_STATE", Reg.ucState, 1, 0, false, .ro, 0xFF, 0x0⟩,
   ⟨"UC_STEP", Reg.ucStep, 1, 0, true, .rw, 0xFFFFFFFFFFFF, 0x0⟩,
   ⟨"UC_SEAL_EXPECT", Reg.ucSealExpect, 1, 0, true, .rw, 0xFFFFFFFFFFFF, 0x0⟩,
   ⟨"UC_SEAL_MASK", Reg.ucSealMask, 1, 0, true, .ro, 0xFFFFFFFFFFFFFFFF, 0x0⟩,
   ⟨"UC_NB", Reg.ucNb, 1, 0, false, .ro, 0xFFFFFFFF, 0x0⟩,
   ⟨"UC_NORM_TOTAL0", Reg.ucNormTotal, 3, 8, true, .ro, 0xFFFFFFFFFFFFFFFF, 0x0⟩,
   ⟨"UC_NORM_INFO", Reg.ucNormInfo, 1, 0, false, .ro, 0x1FF, 0x0⟩,
   ⟨"UC_CLIP_SCALE", Reg.ucClipScale, 1, 0, false, .ro, 0xFFFFFFFF, 0x3F800000⟩,
   ⟨"UC_NORM_GROUP0", Reg.ucNormGroup, 4, 8, true, .rw, 0xFFFFFFFFFFFFFFFF, 0x0⟩,
   ⟨"UC_NORM_INBOX", Reg.ucNormInbox, 1, 0, true, .rw, 0xFFFFFFFFFFFFFFFF, 0x0⟩,
   ⟨"UC_NORM_MISSING0", Reg.ucNormMissing, 4, 8, true, .ro, 0xFFFFFFFFFFFFFFFF, 0x0⟩,
   ⟨"UC_SWEEP_DESC", Reg.ucSweepDesc, 1, 0, true, .rw, 0xFFFFFFFFFFFFFFFF, 0x0⟩,
   ⟨"UC_CTRL", Reg.ucCtrl, 1, 0, false, .wo, 0xF, 0x0⟩,
   ⟨"UC_JOURNAL_EVERY", Reg.ucJournalEvery, 1, 0, false, .rw, 0xFFFF, 0x100⟩,
   ⟨"UC_SWEEPS", Reg.ucSweeps, 1, 0, true, .ro, 0xFFFFFFFFFFFFFFFF, 0x0⟩,
   ⟨"UC_SEAL_REFUSALS", Reg.ucSealRefusals, 1, 0, true, .ro, 0xFFFFFFFFFFFFFFFF, 0x0⟩,
   ⟨"UC_RSTORE_SEL", Reg.ucRstoreSel, 1, 0, false, .rw, 0x1FF, 0x0⟩,
   ⟨"UC_RSTORE_DATA", Reg.ucRstoreData, 1, 0, false, .rw, 0xFFFFFFFF, 0x0⟩,
   ⟨"UC_RSTORE_COMMIT", Reg.ucRstoreCommit, 1, 0, false, .wo, 0x3F, 0x0⟩,
   ⟨"UC_RSTORE_FAULT", Reg.ucRstoreFault, 1, 0, false, .ro, 0x3FFF, 0x0⟩]

/-- The register map of the arbiter block (R336). -/
def arbiterRegs : List RegDesc :=
  [⟨"ARB_WINDOW", Reg.arbWindow, 1, 0, false, .rw, 0xFF03FF, 0x40100⟩,
   ⟨"ARB_STATE", Reg.arbState, 1, 0, false, .ro, 0x3FF7F, 0x0⟩,
   ⟨"ARB_HOLD_NS", Reg.arbHoldNs, 1, 0, false, .rw, 0xFFFFFFFF, 0x0⟩,
   ⟨"ARB_AUX", Reg.arbAux, 1, 0, false, .rw, 0x3F, 0x0⟩,
   ⟨"ARB_CUTOFFS", Reg.arbCutoffs, 1, 0, true, .ro, 0xFFFFFFFFFFFFFFFF, 0x0⟩,
   ⟨"ARB_CUTOFF_INFO", Reg.arbCutoffInfo, 1, 0, false, .ro, 0x3FF0F, 0x0⟩,
   ⟨"ARB_ERR", Reg.arbErr, 1, 0, false, .w1c, 0x7, 0x0⟩,
   ⟨"ARB_CLASS0", Reg.arbClass, 10, 4, false, .rw, 0xFF, 0x0⟩,
   ⟨"ARB_CREDIT0", Reg.arbCredit, 10, 4, false, .ro, 0xFFFF, 0x0⟩,
   ⟨"ARB_GRANTS0", Reg.arbGrants, 10, 8, true, .ro, 0xFFFFFFFFFFFFFFFF, 0x0⟩,
   ⟨"ARB_WAIT_NS0", Reg.arbWaitNs, 10, 8, true, .ro, 0xFFFFFFFFFFFFFFFF, 0x0⟩,
   ⟨"ARB_STARVE_SERVED", Reg.arbStarveServed, 1, 0, true, .ro, 0xFFFFFFFFFFFFFFFF, 0x0⟩,
   ⟨"ARB_PRIO0", Reg.arbPrio, 10, 4, false, .rwx, 0xFF01, 0x0⟩]

/-- The register map of the common header (R462). -/
def headerRegs : List RegDesc :=
  [⟨"PAGE_ID", Reg.pageId, 1, 0, false, .ro, 0xFFFF00FF, 0x0⟩,
   ⟨"PAGE_VERSION", Reg.pageVersion, 1, 0, false, .ro, 0xFFFFFF, 0x10001⟩,
   ⟨"PAGE_CAPS", Reg.pageCaps, 1, 0, true, .ro, 0xFFFFFFFFFFFFFFFF, 0x0⟩,
   ⟨"PAGE_CTRL", Reg.pageCtrl, 1, 0, false, .rw, 0x7, 0x1⟩,
   ⟨"PAGE_STATUS", Reg.pageStatus, 1, 0, false, .ro, 0xFFFFFFFF, 0x1⟩,
   ⟨"PAGE_ERR", Reg.pageErr, 1, 0, false, .w1c, 0xFFFFFFF, 0x0⟩,
   ⟨"PAGE_ERR_COUNT", Reg.pageErrCount, 1, 0, true, .ro, 0xFFFFFFFFFFFFFFFF, 0x0⟩,
   ⟨"PAGE_EVENT_MASK", Reg.pageEventMask, 1, 0, true, .rw, 0xFFFFFFFFFFFFFF, 0x0⟩,
   ⟨"PAGE_EXPERT_KEY", Reg.pageExpertKey, 1, 0, false, .rw, 0xFFFF, 0x0⟩]

/-- The row of a map that holds an offset, with the index of the instance. -/
def regFind : List RegDesc → Nat → Option (RegDesc × Nat)
  | [], _ => none
  | d :: t, off =>
    if d.off ≤ off ∧ (if d.stride = 0 then off = d.off
        else (off - d.off) % d.stride = 0 ∧ (off - d.off) / d.stride < d.count)
    then some (d, if d.stride = 0 then 0 else (off - d.off) / d.stride)
    else regFind t off

/-- Offsets below which a page holds only the common header. -/
def headerEnd : Nat := 0x040

end Sys2Proof.Machine
end

