-- ==== Sys2Proof/Machine/RamblerTypes.lean ====
section
/-!
DEFINITION. Machine/RamblerTypes.lean: the state of the ramblers' exchange group and of the secure engine as plain data
(15_far_exchange.md, R365–R403; 16_security.md, R404–R423).
-/
namespace Sys2Proof.Machine

/-- An outgoing message of a body, not yet acknowledged by its receiver (R379–R382): its data shards joined, and the parity shards sent. -/
structure FarMsg where
  site : Nat
  msg : Nat
  stream : Nat
  origin : Nat
  round : Nat
  off : Nat
  total : Nat
  l : Nat
  k : Nat
  data : List Byte
  parity : Nat
deriving DecidableEq, Repr

/-- A message being received, or one that has been decoded (R383): the shards held, by index. -/
structure InMsg where
  site : Nat
  msg : Nat
  stream : Nat
  origin : Nat
  round : Nat
  off : Nat
  total : Nat
  k : Nat
  shards : List (Nat × List Byte)
  decoded : Bool
deriving DecidableEq, Repr

/-- A body being received: the decoded parts by offset (R383). -/
structure InBody where
  site : Nat
  stream : Nat
  origin : Nat
  round : Nat
  total : Nat
  parts : List (Nat × List Byte)
  msgs : List Nat
deriving DecidableEq, Repr

/-- A round this member composed (R374–R378): its body's place in the outbox, and its counts (R393). -/
structure Composed where
  round : Nat
  step : Nat
  steps : Nat
  off : Nat
  len : Nat
  hash : List Byte
  nonfin : Nat
  sat : Nat
deriving DecidableEq, Repr

/-- A verified body (R383, R389, R398): its round and site, and where it lies. -/
structure Arrived where
  round : Nat
  site : Nat
  addr : Nat
  len : Nat
  hash : List Byte
deriving DecidableEq, Repr

/-- The command in progress (R370, R371). phase is that of a JOIN: 1 while the snapshot is awaited, 2 while archived bodies are; from_ is
the server's SNAP_ROUND. done is the composed round that a COMPOSE reports at its end. -/
structure RmbCmd where
  op : Nat
  step : Nat
  addr : Nat
  ctx : Nat
  tally : Option Nat
  status : Nat
  reason : Nat
  rounds : Nat
  cursor : Nat
  round : Option Nat
  done : Option Composed
  phase : Nat
  peer : Nat
  from_ : Nat
deriving DecidableEq, Repr

/-- A sender's key for an epoch, with the highest counter accepted and the counters accepted within the window below it (R388). -/
structure RxKey where
  epoch : Nat
  key : List Byte
  wrapped : List Byte
  high : Nat
  seen : List Nat
deriving DecidableEq, Repr

/-- A far session being or having been established (R419): its number, the transcript hash, and the peer's public key. -/
structure FarTrans where
  session : Nat
  hash : List Byte
  peerKey : List Byte
  initiator : Bool
deriving DecidableEq, Repr

/-- A peer site (R366, R367, R387, R388, R396, R418). hello is a FAR_HELLO sent, with its random; pending a handshake answered, trans that of
the session. ackSeen are the epochs and counters of the KEY_ACKs accepted. routes are those that are up, with the time of their last authentic message; hellos
the answers given in a second; newer tells since when an epoch above the oldest held is accepted. -/
structure FarPeer where
  hello : Option (Nat × List Byte)
  pending : Option FarTrans
  trans : Option FarTrans
  session : Option Nat
  keys : List RxKey
  newer : Option Nat
  acked : List Nat
  ackSeen : List (Nat × Nat)
  routes : List (Nat × Nat)
  hellos : Nat × Nat
  turn : Nat
  tableOk : Bool
  composed : Nat
  complete : Nat
  applied : Nat
deriving DecidableEq, Repr

/-- A peer nothing has been heard of. -/
def FarPeer.none_ : FarPeer :=
  { hello := none, pending := none, trans := none, session := none, keys := [], newer := none, acked := [], ackSeen := [], routes := [], hellos := (0, 0), turn := 0
    tableOk := true, composed := 0, complete := 0, applied := 0 }

/-- The exchange state that the rambler of I0 keeps (R368). latest is the latest composed round with its compose step (none after a
JOIN), base the step that STEPS counts from, archive the round in each slot, empties the empty bodies received, conflicts the rounds with two different bodies; key and nextKey are the keys of the transmit epoch and the one after it. -/
structure Rmb where
  slot : Nat
  cmd : Option RmbCmd
  paused : Option RmbCmd
  composed : List Composed
  latest : Option (Nat × Option Nat)
  base : Option Nat
  applied : Option Nat
  lastApply : Option (Nat × Nat)
  limit : Option Nat
  resetDue : Bool
  conflicts : List Nat
  arrived : List Arrived
  empties : List (Nat × Nat)
  archive : List (Nat × Nat)
  out : List FarMsg
  ins : List InMsg
  bodies : List InBody
  snap : Option (List Byte)
  nextMsg : Nat
  epoch : Nat
  count : Nat
  key : Option (List Byte)
  nextKey : Option (List Byte)
  epochNs : Option Nat
  peers : Vector FarPeer 16
deriving DecidableEq, Repr

/-- The ramblers after module reset (R401). -/
def Rmb.reset : Rmb :=
  { slot := 0, cmd := none, paused := none, composed := [], latest := none, base := none, applied := none, lastApply := none, limit := none
    resetDue := false, conflicts := [], arrived := [], empties := [], archive := [], out := [], ins := [], bodies := [], snap := none
    nextMsg := 0, epoch := 0, count := 0, key := none, nextKey := none, epochNs := none, peers := Vector.replicate 16 .none_ }

/-- What the model keeps of a verified firmware image in a slot (R407–R409): SVN, key slot, measurement, and the order of staging. -/
structure FwSlot where
  svn : Nat
  keySlot : Nat
  hash : List Byte
  order : Nat
deriving DecidableEq, Repr

/-- An operation of the secure engine in progress (R411, R414). -/
inductive SecOp where
  | report (cert : Bool)
  | fwStage
deriving DecidableEq, Repr

/-- The secure engine (R404–R423): fuses (counter, programmed and revoked key slots), flash (firmware slots, site chain, anchors), the slot
that runs, and the operation in progress with the status last reported. -/
structure Secure where
  svnFuses : Nat
  programmed : List Nat
  revoked : List Nat
  slots : Vector (Option FwSlot) 2
  boot : Nat
  running : FwSlot
  chain : List Byte
  anchors : List (Nat × List Byte)
  op : Option SecOp
  state : Nat
  code : Nat
  outLen : Nat
  entropyOk : Bool
  entropyUsed : Nat
deriving DecidableEq, Repr

/-- The secure engine of a part that runs the image of slot A: what the spec leaves to the part is named in log entry 42. -/
def Secure.reset : Secure :=
  let fw : FwSlot := { svn := 0, keySlot := 0, hash := List.replicate 32 0, order := 0 }
  { svnFuses := 0, programmed := [0, 1, 2, 3], revoked := [], slots := #v[some fw, none], boot := 0, running := fw, chain := [], anchors := []
    op := none, state := 0, code := 0, outLen := 0, entropyOk := true, entropyUsed := 0 }

end Sys2Proof.Machine
end

