-- ==== Sys2Proof/Machine/Formats.lean ====
section
/-!
DEFINITION. Machine/Formats.lean: the number formats, the two rounding modes and every conversion
(01_number_formats.md, R19–R42).
-/
namespace Sys2Proof.Machine

/-- An exact dyadic value m · 2^e. -/
structure Exact where
  m : Int
  e : Int
deriving DecidableEq, Repr

/-- The exact value zero. -/
def exactZero : Exact := ⟨0, 0⟩

/-- Exact sum. -/
def exactAdd (a b : Exact) : Exact :=
  let e := min a.e b.e
  ⟨a.m * 2 ^ (a.e - e).toNat + b.m * 2 ^ (b.e - e).toNat, e⟩

/-- Exact product. -/
def exactMul (a b : Exact) : Exact := ⟨a.m * b.m, a.e + b.e⟩

/-- Exact negation. -/
def exactNeg (a : Exact) : Exact := ⟨-a.m, a.e⟩

/-- a < b, exactly. -/
def exactLt (a b : Exact) : Bool := decide ((exactAdd a (exactNeg b)).m < 0)

/-- A value a floating format can hold: a NaN, an infinity, or a finite magnitude m · 2^e with its sign
(the sign of a zero is kept, R21). -/
inductive FVal where
  | nan
  | inf (neg : Bool)
  | fin (neg : Bool) (m : Nat) (e : Int)
deriving DecidableEq, Repr

/-- The FVal of an exact source: an exact zero carries no sign and reads +0 (R39). -/
def fvalOfExact (x : Exact) : FVal := .fin (decide (x.m < 0)) x.m.natAbs x.e

/-- The exact value of a finite FVal; zero for the others. -/
def exactOfFval : FVal → Exact
  | .fin n m e => ⟨if n then -(m : Int) else m, e⟩
  | _ => exactZero

/-- The two selectable rounding modes, SR with its 4 random bits (R33, R36). -/
inductive Rounding where
  | rne
  | sr (r : Nat)
deriving DecidableEq, Repr

/-- Round the magnitude m · 2^s to an integer: to nearest with ties to even (R35), or
floor(x + r/16) (R36). -/
def roundMag (md : Rounding) (m : Nat) (s : Int) : Nat :=
  if 0 ≤ s then m <<< s.toNat
  else
    let d := (-s).toNat
    match md with
    | .rne =>
      let q := m >>> d
      let rem := m - q <<< d
      let half := 1 <<< (d - 1)
      if rem < half then q else if half < rem then q + 1 else q + q % 2
    | .sr r => (16 * m + r <<< d) >>> (d + 4)

/-- floor(log2) of m · 2^e, for m ≠ 0. -/
def magLog2 (m : Nat) (e : Int) : Int := (Nat.log2 m : Int) + e

/-- The bit pattern of the magnitude m · 2^e rounded to a format of p significant bits whose least
subnormal is 2^qmin (R34, R39), before any treatment of overflow. -/
def packMag (p : Nat) (qmin : Int) (md : Rounding) (m : Nat) (e : Int) : Nat :=
  if m = 0 then 0
  else
    let q := max (magLog2 m e - (p - 1 : Nat)) qmin
    (q - qmin).toNat * 2 ^ (p - 1) + roundMag md m (e - q)

/-- The FP32 value of 32 bits (R21). -/
def fp32Val (b : W32) : FVal :=
  let n := b.toNat
  let s := decide (n / 2 ^ 31 = 1)
  let ex := bits n 30 23
  let f := bits n 22 0
  if ex = 255 then (if f = 0 then .inf s else .nan)
  else if ex = 0 then .fin s f (-149)
  else .fin s (f + 2 ^ 23) ((ex : Int) - 150)

/-- The canonical NaN of FP32 (R22). -/
def fp32Nan : W32 := 0x7FC00000#32

/-- BF16 bits widened to FP32 by sixteen zero bits, so any NaN payload is kept (R22). -/
def bf16Widen (b : BitVec 16) : W32 := b ++ 0#16

/-- The bits of FP32 from its sign and magnitude pattern. -/
def fp32Bits (neg : Bool) (mag : Nat) : W32 := BitVec.ofNat 32 (bit neg * 2 ^ 31 + mag)

/-- Storage formats by code (R19); code 4 is for update units only. -/
inductive Fmt where
  | bs16 | bs8 | bf16 | fp32 | split
deriving DecidableEq, Repr

/-- The format of a 3-bit code; the reserved codes name none (R19, R20). -/
def fmtOfCode (c : Nat) : Option Fmt :=
  match c with
  | 0 => some .bs16
  | 1 => some .bs8
  | 2 => some .bf16
  | 3 => some .fp32
  | 4 => some .split
  | _ => none

/-- The format of a code for a unit other than an update unit: code 4 is malformed there (R20). -/
def fmtOfCode4 (c : Nat) : Option Fmt := if c < 4 then fmtOfCode c else none

/-- Bytes of one element in its mantissa or element plane (R26, R98). -/
def fmtWidth : Fmt → Nat
  | .bs16 => 2
  | .bs8 => 1
  | .bf16 => 2
  | .fp32 => 4
  | .split => 2

/-- Whether a format is block-scaled (R23). -/
def fmtBlock : Fmt → Bool
  | .bs16 | .bs8 => true
  | _ => false

/-- The parameters of a block format: the bias w of R38, the largest mantissa, and the constant added
to floor(log2) for the block exponent. -/
structure BlockParams where
  w : Int
  mmax : Nat
  bias : Int
deriving DecidableEq, Repr

/-- BS16 (R23, R38). -/
def bs16Params : BlockParams := ⟨141, 32767, 127⟩
/-- BS8 (R23, R38). -/
def bs8Params : BlockParams := ⟨133, 127, 127⟩

/-- The block parameters of a block format (BS16's for the others, which use none). -/
def blockParams : Fmt → BlockParams
  | .bs8 => bs8Params
  | _ => bs16Params

/-- Counts of a conversion: saturation and non-finite (R37, R38, R40). -/
structure Counts where
  sat : Nat
  nonfin : Nat
deriving DecidableEq, Repr

/-- No counts. -/
def noCounts : Counts := ⟨0, 0⟩

/-- Sum of counts. -/
def addCounts (a b : Counts) : Counts := ⟨a.sat + b.sat, a.nonfin + b.nonfin⟩

/-- The value of mantissa m under block exponent E: m · 2^(E − w); all zero for E = 0 (R23, R24). -/
def blockVal (p : BlockParams) (m : Int) (E : Nat) : Exact :=
  if E = 0 then exactZero else ⟨m, (E : Int) - p.w⟩

/-- The largest finite nonzero magnitude of a block (R38's big), as an exact value. -/
def blockBig : List FVal → Exact
  | [] => exactZero
  | .fin _ m e :: t =>
    let b := blockBig t
    if exactLt b ⟨m, e⟩ then ⟨m, e⟩ else b
  | _ :: t => blockBig t

/-- The block exponent R38 selects, and whether the block is beyond the format's range. -/
def blockExp (p : BlockParams) (v : List FVal) : Nat × Bool :=
  let big := blockBig v
  if big.m = 0 then
    (if v.any (fun x => match x with | .inf _ => true | _ => false) then 254 else 0, false)
  else
    let b := magLog2 big.m.natAbs big.e + p.bias
    ((min (max b 1) 255).toNat, decide (255 < b))

/-- One mantissa of R38 under block exponent E, with its counts. -/
def blockMant (p : BlockParams) (E : Nat) (exceeds : Bool) (md : Rounding) : FVal → Int × Counts
  | .nan => (0, ⟨0, 1⟩)
  | .inf neg => (if neg then -(p.mmax : Int) else p.mmax, ⟨1, 0⟩)
  | .fin neg m e =>
    if E = 0 then (0, noCounts)
    else
      let t := roundMag md m (e + p.w - E)
      let c := if p.mmax < t && exceeds then (⟨1, 0⟩ : Counts) else noCounts
      let t := min t p.mmax
      (if neg then -(t : Int) else t, c)

/-- Conversion of one block of exact source values, each with its rounding (R38): the exponent, the
mantissas and the counts. -/
def toBlock (p : BlockParams) (vs : List (FVal × Rounding)) : Nat × List Int × Counts :=
  let (E, exceeds) := blockExp p (vs.map (·.1))
  let r := vs.map (fun v => blockMant p E exceeds v.2 v.1)
  (E, r.map (·.1), r.foldl (fun c x => addCounts c x.2) noCounts)

/-- Conversion into FP32 (R39) with R37's saturation: the bits and the saturation count. -/
def toFp32 (md : Rounding) : FVal → W32 × Nat
  | .nan => (fp32Nan, 0)
  | .inf n => (fp32Bits n 0x7F800000, 0)
  | .fin n m e =>
    let k := packMag 24 (-149) md m e
    if k < 0x7F800000 then (fp32Bits n k, 0) else (fp32Bits n 0x7F7FFFFF, 1)

/-- Conversion into BF16 (R39) with R37's saturation: the bits and the saturation count. -/
def toBf16 (md : Rounding) : FVal → BitVec 16 × Nat
  | .nan => (0x7FC0#16, 0)
  | .inf n => (BitVec.ofNat 16 (bit n * 2 ^ 15 + 0x7F80), 0)
  | .fin n m e =>
    let k := packMag 8 (-133) md m e
    if k < 0x7F80 then (BitVec.ofNat 16 (bit n * 2 ^ 15 + k), 0)
    else (BitVec.ofNat 16 (bit n * 2 ^ 15 + 0x7F7F), 1)

/-- Widening of a block element to FP32: exact unless E = 255 puts it beyond FP32, where it saturates
and counts one (R41). -/
def blockToFp32 (p : BlockParams) (m : Int) (E : Nat) : W32 × Nat :=
  toFp32 .rne (fvalOfExact (blockVal p m E))

end Sys2Proof.Machine
end

