-- ==== Sys2Proof/Machine/HamperTypes.lean ====
section
/-!
DEFINITION. Machine/HamperTypes.lean: the state of one logical hamper as plain data: its control core (R149),
its three frames (R43–R71), vector engine (R94–R110), stash unit (R81–R87), scheduled DMA (R172), work list
(R213–R223), norm accumulator (R124) and digest accumulators (R285).
-/
namespace Sys2Proof.Machine

/-- A logical hamper of the virtual grid (R199). -/
abbrev Lh := Fin 48

/-- A frame of a hamper: 0 F, 1 G0, 2 G1 (R6). -/
abbrev FrameIx := Fin 3

/-- A pantry write that takes effect at the end of the beat, with its place in the order of R184:
1 scheduled DMA, 2 stash pop, 3 vector store, 4–6 drains of F, G0, G1, 7 scalar store. -/
structure PWrite where
  prio : Nat
  addr : Nat
  data : List Byte
deriving DecidableEq, Repr

/-- A scheduled burst: device address, write, class of R192 (1 DMA, 2 STASH), engine (R209), bytes. -/
structure Burst where
  addr : Nat
  write : Bool
  cls : Nat
  engine : Nat
  n : Nat
deriving DecidableEq, Repr

/-- A register result still pending: register, value, first beat in which it is available, and whether the
instruction issued inside a window (R153). -/
structure PendReg where
  reg : Fin 32
  val : Word
  due : Nat
  win : Bool
deriving DecidableEq, Repr

/-- An engine operation handed over by the core, with the instruction's fields (R152, R156). -/
inductive EngineOp where
  | pass (f : FrameIx) (desc : Nat)
  | load (f : FrameIx) (desc : Nat)
  | turn (f : FrameIx) (desc : Nat)
  | vcall (desc : Nat)
  | rload (slot : Fin 64) (length : Nat) (addr : Nat)
  | push (stack : Fin 8) (desc : Nat)
  | pop (stack : Fin 8) (desc : Nat)
  | dma (desc : Nat)
  | normb (nb : Int)
  | post (own : Bool) (target : Nat) (desc : Nat)
deriving DecidableEq, Repr

/-- What every operation keeps from its issue: whether it was issued inside a window, the last beat of that
window (R176), the generator step at issue (R281) and the context. -/
structure OpTag where
  win : Bool
  winEnd : Nat
  gstep : StepNo
  ctx : Nat
deriving DecidableEq, Repr

/-- An issued engine operation waiting for its first beat b0 (R152). -/
structure EngineStart where
  b0 : Nat
  op : EngineOp
  tag : OpTag
deriving DecidableEq, Repr

/-- A drain summary record (R165). -/
structure DrainSum where
  maxExp : Nat
  satFlag : Bool
  residue : Bool
  malformed : Bool
  satCount : Nat
  maskedRows : Nat
deriving DecidableEq, Repr

/-- The drain summary before the first pass after launch (R165). -/
def DrainSum.zero : DrainSum := ⟨0, false, false, false, 0, 0⟩

/-- A vector summary record (R110). -/
structure VecSum where
  smax : W32
  ssum : W32
  scount : Nat
  smasked : Nat
  smrows : Nat
  snonfin : Nat
  ssat : Nat
  maxExp0 : Nat
  maxExp1 : Nat
  malformed : Bool
  residue : Bool
deriving DecidableEq, Repr

/-- The vector summary with every field at its identity (R110). -/
def VecSum.zero : VecSum := ⟨0xFF800000#32, 0, 0, 0, 0, 0, 0, 0, 0, false, false⟩

/-- A norm accumulator: N, its residue, its saturation mark and NB (R124). -/
structure NormAcc where
  n : Nat
  res : Nat
  mark : Bool
  nb : Int
deriving DecidableEq, Repr

/-- An empty norm accumulator of base NB (R124). -/
def NormAcc.empty (nb : Int) : NormAcc := ⟨0, 0, false, nb⟩

/-- What a control core waits for in the beat of a wait instruction (R173). -/
inductive WaitKind where
  | tally
  | barrier
deriving DecidableEq, Repr

/-- The issue state of a control core (R149, R180): idle, issuing, in a wait whose status goes to a register,
or in a SEAL wait for a step. -/
inductive RunState where
  | idle
  | issuing
  | waiting (k : WaitKind) (dst : Fin 32)
  | sealing (step : StepNo) (from_ : Nat)
deriving DecidableEq, Repr

/-- An open stealing window: its first and last beat, the address issue continues at, the registers as they
stand at the start of its first beat, and the generator step a successful TAKE brought in (R175, R177, R281). -/
structure Window where
  first : Nat
  last : Nat
  exitPc : Addr
  saved : Vector Word 32
  itemStep : Option StepNo
deriving DecidableEq, Repr

/-- A replay point (R304), with the step it belongs to (none for the launch's) and the wall time of its capture. -/
structure ReplayPoint where
  step : Option StepNo
  pc : Addr
  sregs : Vector Word 32
  drains : Vector DrainSum 3
  vsum : VecSum
  beat : Nat
  gstep : StepNo
  ns : Nat
deriving DecidableEq, Repr

/-- The three step counts of R166. -/
structure StepCounts where
  nonfin : Nat
  sat : Nat
  mrows : Nat
deriving DecidableEq, Repr

/-- No counts. -/
def StepCounts.zero : StepCounts := ⟨0, 0, 0⟩

/-- Sum of counts. -/
def StepCounts.add (a b : StepCounts) : StepCounts := ⟨a.nonfin + b.nonfin, a.sat + b.sat, a.mrows + b.mrows⟩

/-- The control core of a logical hamper (R149). start is the beat that counts as BEAT 1 (R163); next is the
first beat in which the next instruction may issue (R151), last the beat after that of the last issue. -/
structure Core where
  sregs : Vector Word 32
  pc : Addr
  run : RunState
  ended : Bool
  stopped : Bool
  launched : Bool
  ctx : Nat
  start : Int
  next : Nat
  last : Nat
  pend : List PendReg
  stores : List PWrite
  starts : List EngineStart
  stalled : List EngineStart
  interlocked : Bool
  window : Option Window
  drains : Vector DrainSum 3
  drainsWin : Vector (Option DrainSum) 3
  vsum : VecSum
  vsumWin : Option VecSum
  counts : StepCounts
  winCounts : StepCounts
  gstep : StepNo
  norm : NormAcc
  digests : List (Nat × Word)
  points : List ReplayPoint
  sealBeat : Option Nat
deriving DecidableEq, Repr

/-- One operand element as it travels: mantissa, exponent and carried residue (R45). -/
structure WElem where
  m : Int
  e : Nat
  r : Nat
deriving DecidableEq, Repr

/-- The zero element. -/
def WElem.zero : WElem := ⟨0, 0, 0⟩

/-- The weights of one cell row, sparse: column n holds key n, and in BS8 mode its second element key
128 + n (R45, R46). -/
abbrev TileRow := List (Nat × WElem)

/-- A weight tile, sparse by cell row. -/
abbrev Tile := List (Nat × TileRow)

/-- A weight load in progress (R48, R78). A refused one only runs its beats (R20), and so does one whose work was done in the tail of a
pre-emption (ran, R433). -/
structure LoadRun where
  b0 : Nat
  bs8 : Bool
  buf : Option Nat
  addr : Nat
  exp : Nat
  stride : Nat
  fmt : Fmt
  refused : Bool
  ran : Bool
  done : Bool
  tag : OpTag
deriving DecidableEq, Repr

/-- A TURN in progress (R77). A refused one only runs its beats (R20). -/
structure TurnRun where
  b0 : Nat
  buf : Nat
  bs8 : Bool
  addr : Nat
  exp : Nat
  stride : Nat
  fmt : Fmt
  refused : Bool
  ran : Bool
  done : Bool
  tag : OpTag
deriving DecidableEq, Repr

/-- A turning buffer: the stored rows read so far, each element as its bits and its exponent byte, its recorded
parameters, the beat of the TURN that filled it and of the last transposed load from it (R77, R78). -/
structure TurnBuf where
  rows : List (Nat × List (Nat × Nat))
  turned : Option Nat
  bs8 : Bool
  fmt : Fmt
  loaded : Option Nat
deriving DecidableEq, Repr

/-- A buffer no TURN has filled. -/
def TurnBuf.empty : TurnBuf := ⟨[], none, false, .bs16, none⟩

/-- One basket slot (R59). -/
structure Slot where
  v : Int
  res : Nat
  clamp : Bool
  anchor : Int
  occupied : Bool
deriving DecidableEq, Repr

/-- A cleared slot (R59, R60). -/
def Slot.empty : Slot := ⟨0, 0, false, 0, false⟩

/-- A rod: V as a signed 104-bit value, its residue and its clamp mark (R55). -/
structure Rod where
  v : Int
  res : Nat
  clamp : Bool
deriving DecidableEq, Repr

/-- An empty rod. -/
def Rod.zero : Rod := ⟨0, 0, false⟩

/-- The fields of a pass descriptor (R168). -/
structure PassDesc where
  rows : Nat
  bs8 : Bool
  swap : Bool
  meas : Bool
  sum : Bool
  carry : Bool
  rodOut : Nat
  sr : Bool
  zeroFill : Bool
  maskEn : Bool
  squares : Bool
  inTrans : Bool
  anchor : Int
  mxReg : Fin 32
  guard : Nat
  basketBase : Nat
  inFmt : Nat
  outFmt : Nat
  inAddr : Nat
  inExp : Nat
  inStride : Nat
  outAddr : Nat
  outExp : Nat
  outStride : Nat
  maskAddr : Nat
  tensor : W32
  idxBase : Nat
  idxRow : Nat
  reserved : Bool
deriving DecidableEq, Repr

/-- An input row of a pass on its way to the rods: the converted elements, and whether the row is masked. -/
structure InRow where
  masked : Bool
  elems : List WElem
deriving DecidableEq, Repr

/-- A row of a transposed pass while its lines arrive: the stored elements so far, as mantissa bits and
exponent byte (R75, R76). -/
abbrev RawRow := List (Nat × Nat)

/-- A pass in flight (R50, R51). A refused pass only runs its beats and posts MALFORMED. limit is the number
of rows that are fed (ROWS, or fewer after a pre-emption, R67), first the rows done before the pass was resumed (R433); done marks that its summary was posted. -/
structure PassRun where
  b0 : Nat
  d : PassDesc
  refused : Bool
  anchor : Int
  gen : Nat
  limit : Nat
  first : Nat
  fed : Nat
  raw : List (Nat × RawRow)
  rows : List (Nat × InRow)
  sums : List Rod
  drainBuf : List (Nat × List Rod)
  masked : List Nat
  sum_ : DrainSum
  done : Bool
  tag : OpTag
deriving DecidableEq, Repr

/-- A frame (R43–R71, R77, R201). tiles holds, per swap generation, the weights that passes of that
generation meet; gen is the newest generation. -/
structure Frame where
  tiles : List (Nat × Tile)
  modes : List (Nat × Bool)
  gen : Nat
  mw : List (Nat × Nat)
  shadow : Tile
  shadowBs8 : Bool
  shadowMw : Nat
  shadowValid : Bool
  lastLoad : Option Nat
  loadSinceSwap : Bool
  lastSwap : Option Nat
  lastPass : Option (Nat × Nat)
  waves : List (Nat × Nat)
  passes : List PassRun
  loads : List LoadRun
  turns : List TurnRun
  t0 : TurnBuf
  t1 : TurnBuf
  basket : List (Nat × Slot)
  inject : Option Nat
deriving DecidableEq, Repr

/-- A frame with nothing loaded, parked or running. -/
def Frame.idle : Frame :=
  ⟨[], [], 0, [], [], false, 0, false, none, false, none, none, [], [], [], [], .empty, .empty, [], none⟩

/-- One vector lane while it works on a group (R95). -/
structure Lane where
  v : List W32
  p : List Bool
deriving DecidableEq, Repr

/-- A lane at the start of a group. -/
def Lane.zero : Lane := ⟨List.replicate 16 0, List.replicate 4 false⟩

/-- One stream slot of a call descriptor (R97). -/
structure StreamDesc where
  addr : Nat
  exp : Nat
  stride : Nat
  fmt : Nat
  enable : Bool
  tensor : W32
  idxRow : Nat
  idxBase : Nat
  reserved : Bool
deriving DecidableEq, Repr

/-- A call descriptor (R97). -/
structure CallDesc where
  slot : Nat
  rows : Nat
  rowLen : Nat
  scalarBase : Nat
  streams : List StreamDesc
  maskAddr : Nat
  maskStride : Nat
  maskEn : Bool
  rngStream : W32
  rngIdxRow : Nat
  rngIdxBase : Nat
  reserved : Bool
deriving DecidableEq, Repr

/-- A vector call in progress (R97–R110). bytes are the descriptor lines read so far, code the recipe as it stood at
b0, len its beat count; rowMax, rowSum and rowHit are the row's part of the summary; stop asks it to stop at its next
break point, and cut is the beat, counted from b0, at which it did (R114); a resumed call idles until then (R433). -/
structure VecRun where
  b0 : Nat
  addr : Nat
  slot : Nat
  bytes : List Byte
  kregs : List W32
  valid : Bool
  code : List W32
  d : Option CallDesc
  refused : Bool
  len : Nat
  lanes : List Lane
  q : List W32
  red : List (Nat × W32)
  rowMax : W32
  rowSum : W32
  rowHit : Bool
  sum_ : VecSum
  residueHit : Bool
  stop : Bool
  cut : Option Nat
  done : Bool
  tag : OpTag
deriving DecidableEq, Repr

/-- An RLOAD in progress (R170). -/
structure RloadRun where
  b0 : Nat
  slot : Fin 64
  length : Nat
  addr : Nat
  words : List W32
  malformed : Bool
  ran : Bool
  done : Bool
  tag : OpTag
deriving DecidableEq, Repr

/-- The fields of a stash descriptor (R171). -/
structure StashDesc where
  tag : Nat
  micro : Nat
  fmt : Nat
  mantLen : Nat
  expLen : Nat
  mantAddr : Nat
  expAddr : Nat
  reserved : Bool
deriving DecidableEq, Repr

/-- A push or pop in progress (R83, R84, R86). base is the device address of the entry; ext tells an entry in
the extension part; found are the five fields of a pop's trailer once it is in; mism marks a pop that found a differing
trailer. -/
structure StashRun where
  b0 : Nat
  push : Bool
  stack : Fin 8
  d : StashDesc
  n : Nat
  ext : Bool
  base : Nat
  found : List Nat
  checked : Bool
  mism : Bool
  trailerIn : Bool
  payloadIn : Bool
  ran : Bool
  done : Bool
  tag : OpTag
deriving DecidableEq, Repr

/-- One stack of a stash unit (R81, R92). -/
structure Stack where
  base : Nat
  wmark : Nat
  extBase : Nat
  extSize : Nat
  topH : Nat
  topE : Nat
  depth : Nat
  ctx : Nat
  peak : Nat
deriving DecidableEq, Repr

/-- A stack after module reset (R89, R92). -/
def Stack.zero : Stack := ⟨0, 0, 0, 0, 0, 0, 0, 0, 0⟩

/-- The scheduled DMA of a hamper (R172): bursts read and not yet written to HBM3E wait in pendingWrites. -/
structure DmaRun where
  b0 : Nat
  src : Nat
  dst : Nat
  len : Nat
  toHbm : Bool
  tally : Option Nat
  pendingWrites : List (Nat × List Byte)
  ran : Bool
  done : Bool
  tag : OpTag
deriving DecidableEq, Repr

/-- An item of a work list (R213, R216): its ring slot, whether it is visible, its record's cost and flags, its
operand fetch, the generator step kept with it (R281), and the beat by which it must be visible. -/
structure ListItem where
  slot : Nat
  entry : Word
  cost : Nat
  pinned : Bool
  fetchAddr : Nat
  fetchLen : Nat
  record : List Byte
  visible : Bool
  gstep : StepNo
  due : Nat
deriving DecidableEq, Repr

/-- A merge read of a basket row (R222, R223): its source, its target and its tally, its first beat, and the
slots read so far. -/
structure MergeRead where
  srcFrame : FrameIx
  srcRow : Nat
  dstFrame : FrameIx
  dstRow : Nat
  dstLh : Nat
  dstModule : Option Nat
  tally : Option Nat
  first : Nat
  slots : List Slot
  ctx : Nat
deriving DecidableEq, Repr

/-- A steal in progress (R220, R221): probes still allowed, empty probes so far, the beat by which the next
answer is due, and the answer on its way. -/
structure Steal where
  left : Nat
  empty : Nat
  due : Nat
  answer : Option (List ListItem)
  victim : Nat
deriving DecidableEq, Repr

/-- The list unit of a logical hamper (R215–R223). The items stand head first. copies are records on their way to the
take buffer: the beat at whose end they are written, the pantry address and the bytes (R218). -/
structure ListUnit where
  items : List ListItem
  tail : Nat
  taken : Option Nat
  cursor : Nat
  steal : Option Steal
  merges : List MergeRead
  copies : List (Nat × Nat × List Byte)
deriving DecidableEq, Repr

/-- An empty list unit. -/
def ListUnit.empty : ListUnit := ⟨[], 0, none, 0, none, [], []⟩

/-- A logical hamper. writes are the engines' pantry writes of the current beat (R184);
lines and bursts are what completions and starts of the current beat touch and carry (R188, R191). -/
structure Hamper where
  core : Core
  frames : Vector Frame 3
  vec : List VecRun
  rloads : List RloadRun
  vecInject : Option Nat
  feedInject : Bool
  stash : List StashRun
  stackRegs : Vector Stack 8
  dma : List DmaRun
  list : ListUnit
  writes : List PWrite
  lines : List (Nat × Bool × Nat)
  bursts : List Burst
deriving DecidableEq, Repr

/-- A control core that has never run. -/
def Core.idle : Core :=
  { sregs := Vector.replicate 32 0, pc := 0, run := .idle, ended := false, stopped := false, launched := false
    ctx := 0, start := 0, next := 0, last := 0, pend := [], stores := [], starts := [], stalled := [], interlocked := false
    window := none, drains := Vector.replicate 3 .zero, drainsWin := Vector.replicate 3 none, vsum := .zero
    vsumWin := none, counts := .zero, winCounts := .zero, gstep := 0, norm := .empty 0, digests := []
    points := [], sealBeat := none }

/-- A logical hamper after module reset. -/
def Hamper.idle : Hamper :=
  { core := .idle, frames := Vector.replicate 3 .idle, vec := [], rloads := [], vecInject := none
    feedInject := false, stash := [], stackRegs := Vector.replicate 8 .zero, dma := [], list := .empty
    writes := [], lines := [], bursts := [] }

/-- The recipe store of a physical hamper's vector engine (R105, R106, R116): 64 slots of 32 words, and the
valid bit and length of each. -/
structure RecipeStore where
  words : List (Nat × W32)
  valid : List (Nat × Nat)
deriving DecidableEq, Repr

/-- A store with no valid recipe (R115). -/
def RecipeStore.empty : RecipeStore := ⟨[], []⟩

end Sys2Proof.Machine
end

