-- ==== Sys2Proof/Machine/UcTypes.lean ====
section
/-!
DEFINITION. Machine/UcTypes.lean: the state of the sweep controller UC, of the update units and of the ledger as
plain data (R118–R148, R283–R288).
-/
namespace Sys2Proof.Machine

/-- The state of the seal of UC_STEP (R121). -/
inductive SealState where
  | open_ | sealed | refused | withheld
deriving DecidableEq, Repr

/-- The state of the sweep (R146). -/
inductive SweepState where
  | idle | running | done | partial_ | failed
deriving DecidableEq, Repr

/-- A seal request (R120, R166, R225, R285): the step, the norm accumulator with NB, the hamper's and windows'
counts, the digests, the BEAT value and the launch that issued it, with the beat that launch started in, and the beat tq it left in (R174). -/
structure SealReq where
  lh : Lh
  step : StepNo
  norm : NormAcc
  counts : StepCounts
  digests : List (Nat × Word)
  beat : Nat
  ctx : Nat
  launchCount : Word
  handle : Nat
  launchBeat : Nat
  tq : Nat
deriving DecidableEq, Repr

/-- One segment of a sweep descriptor (R128). -/
structure Segment where
  count : Nat
  recipe : Nat
  pfmt : Nat
  gfmt : Nat
  m1form : Nat
  m2form : Nat
  pHi : Nat
  pLo : Nat
  gMant : Nat
  gExp : Nat
  m1a : Nat
  m1b : Nat
  m2a : Nat
  m2b : Nat
  tensor : W32
  tallyVid : Nat
  tallyEn : Bool
  idxBase : Nat
  ks : List W32
  reserved : Bool
deriving DecidableEq, Repr

/-- A sweep descriptor (R127), with its address and the CRC-32C of its bytes. -/
structure SweepDesc where
  addr : Nat
  step : Nat
  segCount : Nat
  clip : Bool
  skip : Bool
  clipMax : W32
  doneVid : Nat
  doneEn : Bool
  journal : Nat
  segs : List Segment
  crc : Nat
  reserved : Bool
deriving DecidableEq, Repr

/-- A sweep accepted: held for the seal, or running. normWait tells that it issues no chunk until the norm
closes (R130). signalled is the number of segments whose tallies were signalled. -/
structure Sweep where
  desc : SweepDesc
  ctx : Nat
  resume : Bool
  normWait : Bool
  signalled : Nat
deriving DecidableEq, Repr

/-- An update unit in a sweep (R137, R139, R145). counts are those of the committed chunks of the sweep. -/
structure UpdUnit where
  active : Bool
  stopped : Bool
  faultStop : Bool
  done : Bool
  seg : Nat
  cursor : Nat
  since : Nat
  nonfin : Nat
  sat : Nat
  digests : List (Nat × Word)
deriving DecidableEq, Repr

/-- A unit with no sweep. -/
def UpdUnit.idle : UpdUnit := ⟨false, false, false, false, 0, 0, 0, 0, 0, []⟩

/-- The open ledger record of the granted step (R286, R288). -/
structure OpenRec where
  step : StepNo
  seed : BitVec 128
  imageHash : List Byte
  stepBeats : Nat
  expect : Nat
  nonfin : Nat
  sat : Nat
  mrows : Nat
  normTotal : Nat
  nb : Int
  clip : W32
  digests : List (Nat × Word)
  launchCount : Word
  handle : Nat
  ctx : Nat
  attempts : Nat
  countSealed : Nat
deriving DecidableEq, Repr

/-- What the ramblers add to the record of a step (R392, R393): digests, the manifests of the rounds applied, and counts. -/
structure ExchRec where
  step : Nat
  digests : List (Nat × Word)
  manifests : List Byte
  nonfin : Nat
  sat : Nat
deriving DecidableEq, Repr

/-- The sweep controller (R118–R148). reqs are the collected requests, held those for the next step; a failure
charged to the next step waits in nextRefused or nextWithheld, with its context in nextCtx (R122, R123). lastReq holds, per hamper, the
step, the start of the launch and the BEAT of its last granted request, for STEP_BEATS (R288). leaving are requests on their way; normSeen the
members heard from, with the step (R125); attempts the refused or withheld attempts of the step; exch the ramblers' part of
records to come. -/
structure Uc where
  sealSt : SealState
  step : StepNo
  reqs : List SealReq
  held : List SealReq
  nextRefused : Bool
  nextWithheld : Bool
  nextCtx : Option Nat
  heldSweep : Option Sweep
  sweep : Option Sweep
  sweepState : SweepState
  normTotal : Nat
  normSat : Bool
  normNb : Int
  normPending : Bool
  normClosed : Bool
  normSeen : List (Nat × Nat)
  clip : W32
  rec_ : Option OpenRec
  lastReq : List (Nat × (Nat × Nat × Nat))
  leaving : List SealReq
  owner : Option Nat
  attempts : Nat
  exch : List ExchRec
deriving DecidableEq, Repr

/-- UC after module reset (R142, R146). -/
def Uc.reset : Uc :=
  { sealSt := .open_, step := 0, reqs := [], held := [], nextRefused := false, nextWithheld := false, nextCtx := none
    heldSweep := none, sweep := none, sweepState := .idle, normTotal := 0, normSat := false, normNb := 0
    normPending := false, normClosed := false, normSeen := [], clip := 0x3F800000#32, rec_ := none
    lastReq := [], leaving := [], owner := none, attempts := 0, exch := [] }

/-- The ledger ring (R286, R287): records exported and not yet acknowledged, by slot and step; records closed
and not yet exported; the last closed and the last acknowledged step. -/
structure Ledger where
  waiting : List (Nat × Nat)
  toExport : List Nat
  head : Nat
  acked : Nat
deriving DecidableEq, Repr

/-- The ledger after module reset. -/
def Ledger.reset : Ledger := ⟨[], [], 0, 0⟩

end Sys2Proof.Machine
end

