-- ==== Sys2Proof/Machine/ServiceTypes.lean ====
section
/-!
DEFINITION. Machine/ServiceTypes.lean: the state of the module's shared blocks as plain data: tallies and barriers
(R230–R247), memory controllers (R257–R267), arbiters (R324–R333), ports and sessions (R337–R361), the site
count (R289), the ledger ring (R286), fault windows (R310–R317), contexts (R424–R437) and power (R439–R455).
-/
namespace Sys2Proof.Machine

/-- Who a waiter is: a control core and the register its status goes to, a module of the site, or the host, the
latter two with the token they gave (R235, R244, R355). -/
inductive WaitSrc where
  | core (lh : Lh) (dst : Fin 32)
  | peer (module : Nat) (token : W32)
  | host (token : W32)
deriving DecidableEq, Repr

/-- A queued waiter: its source, its target or its n, and the context and VID it named (R234). -/
structure Waiter where
  src : WaitSrc
  n : Nat
  ctx : Nat
  vid : Nat
deriving DecidableEq, Repr

/-- A physical tally (R230), with the INIT value of its map record (R247). -/
structure Tally where
  count : Nat
  init : Nat
  observe : List Waiter
  consume : List Waiter
  owner : Option Nat
deriving DecidableEq, Repr

/-- A free physical tally. -/
def Tally.free : Tally := ⟨0, 0, [], [], none⟩

/-- A barrier slot (R239). waiters holds each waiter with the generation it waits for; told marks that the site members
were told of the local completion of GEN (R242). -/
structure BarSlot where
  hampers : Nat
  modules : Nat
  gen : Nat
  current : Nat
  next : Nat
  peersCur : Nat
  peersNext : Nat
  broken : Bool
  told : Bool
  owner : Option Nat
  vid : Nat
  waiters : List (Waiter × Nat)
deriving DecidableEq, Repr

/-- A free barrier slot. -/
def BarSlot.free : BarSlot := ⟨0, 0, 0, 0, 0, 0, 0, false, false, none, 0, []⟩

/-- The kind of a translation entry (R231). -/
inductive EntryKind where
  | unmapped | local_ | barrier | remote | host
deriving DecidableEq, Repr

/-- A translation entry (R231). -/
structure Entry where
  kind : EntryKind
  module : Nat
  target : Nat
deriving DecidableEq, Repr

/-- An unmapped entry. -/
def Entry.unmapped : Entry := ⟨.unmapped, 0, 0⟩

/-- A tally operation on its way to its bank (R234, R237). -/
inductive TallyOp where
  | signal
  | observe
  | consume
  | arrive (wait : Bool)
deriving DecidableEq, Repr

/-- A tally operation in flight to a bank or to the barrier unit: its operation, the core it came from (none for an
agent's signal), the register a status goes to, the VID with its context, the physical tally or slot it was
translated to, and the beat it was issued in. agent names the source, so that signals of one source to one tally
stay in order (R237). -/
structure TallyMsg where
  op : TallyOp
  lh : Option Lh
  dst : Fin 32
  ctx : Nat
  vid : Nat
  phys : Nat
  n : Nat
  agent : Nat
  beat : Nat
deriving DecidableEq, Repr

/-- A remote wait this module sent to another one (R244). -/
structure SentWait where
  lh : Lh
  dst : Fin 32
  module : Nat
  token : Nat
deriving DecidableEq, Repr

/-- The tally unit (R230–R248). lent are the dies whose core domain is lent, with what the voltage of each managed domain was
changed by: lowered for the die's core, raised for the memory-side domains (R246). -/
structure TallyState where
  tallies : List (Nat × Tally)
  slots : Vector BarSlot 64
  table : List (Nat × Entry)
  msgs : List TallyMsg
  sent : List SentWait
  token : Nat
  lent : List (Nat × List Nat)
deriving DecidableEq, Repr

/-- The tally unit after module reset (R245). -/
def TallyState.reset : TallyState := ⟨[], Vector.replicate 64 .free, [], [], [], 0, []⟩

/-- An open DMA on its way (R172). -/
structure OpenDma where
  lh : Lh
  src : Nat
  dst : Nat
  len : Nat
  tally : Option Nat
  ctx : Nat
deriving DecidableEq, Repr

/-- A basket row on its way to its target (R62, R223, R356): the target, the tally to signal, the occupied
slots by column, where it came from (none for this module), and the attempt it belongs to (none for no replay domain,
R309). -/
structure MergeMsg where
  dstLh : Lh
  dstFrame : FrameIx
  dstRow : Nat
  slots : List (Nat × Slot)
  tally : Option Nat
  ctx : Nat
  from_ : Option Nat
  attempt : Option Nat
deriving DecidableEq, Repr

/-- A row-tracking entry: the row's key and the times, in seconds, of its last correctable errors (R262). -/
structure RowTrack where
  row : Nat
  times : List Nat
deriving DecidableEq, Repr

/-- An HBM3E or LPDDR5X controller (R257–R267). pcs holds retired pseudo-channels with their larder slot; bank
and pcBusy feed the conflict model of R193, starve counts, per pseudo-channel with a waiting open-plane request, the scheduled bursts served meanwhile
(R333), and scrubDone the units scrubbed since power-up (R330). -/
structure MemCtl where
  trained : Bool
  poison : List Nat
  track : List RowTrack
  spares : List Nat
  rowCopy : Option Nat
  pcs : List (Nat × Nat)
  migrating : Option (Nat × Nat)
  repairing : Option (Nat × Nat)
  repairsLeft : Vector Nat 4
  chansRetired : List Nat
  scrubPos : Nat
  scrubbing : Bool
  lastRow : List (Nat × (Nat × Nat))
  pcBusy : List (Nat × (Nat × Bool))
  starve : List (Nat × Nat)
  scrubDone : Nat
deriving DecidableEq, Repr

/-- A trained controller with nothing retired, poisoned or in progress. -/
def MemCtl.reset : MemCtl :=
  { trained := true, poison := [], track := [], spares := [], rowCopy := none, pcs := [], migrating := none
    repairing := none, repairsLeft := Vector.replicate 4 4, chansRetired := [], scrubPos := 0
    scrubbing := false, lastRow := [], pcBusy := [], starve := [], scrubDone := 0 }

/-- The settings of one class at an arbiter: HIGH, QUOTA and WEIGHT (R327). -/
structure ArbClass where
  high : Bool
  quota : Nat
  weight : Nat
deriving DecidableEq, Repr

/-- An arbiter (R324–R333): the settings in effect in the current window, credits, grant counts of the
window, masked classes, the source served last in each class, the unit in progress and whether it is complete, and the unit cut off last. -/
structure Arb where
  window : Nat
  catchup : Nat
  classes : List ArbClass
  credit : List Int
  granted : List Nat
  masked : List Bool
  served : Nat
  owner : Option (Nat × Nat)
  parked : Bool
  behind : Bool
  lastSrc : List (Option Nat)
  cut : Option (Nat × Nat)
  inUnit : Bool
deriving DecidableEq, Repr

/-- The classes at module reset (R329). -/
def arbResetClasses : List ArbClass :=
  [⟨true, 32, 0⟩, ⟨true, 8, 0⟩, ⟨true, 16, 0⟩, ⟨false, 0, 48⟩, ⟨false, 0, 32⟩, ⟨false, 0, 20⟩,
   ⟨false, 0, 48⟩, ⟨false, 0, 20⟩, ⟨false, 0, 28⟩, ⟨false, 0, 0⟩]

/-- An arbiter at module reset: no window has begun. -/
def Arb.reset : Arb :=
  { window := 256, catchup := 4, classes := arbResetClasses, credit := List.replicate 10 0
    granted := List.replicate 10 0, masked := List.replicate 10 false, served := 256, owner := none
    parked := false, behind := false, lastSrc := List.replicate 10 none, cut := none, inUnit := false }

/-- The link of a port or port half (R362). -/
inductive Link where
  | down | training | up | outOfService
deriving DecidableEq, Repr

/-- A port: its links, its retired lanes, the half in use during fallback, the echo replies of each half by
second (R340), and since when the link is down, with whether the port then carried a launch's traffic (R320, R339, R362). -/
structure Port where
  link : Vector Link 2
  split : Bool
  retired : List Nat
  fallback : Option Nat
  echoes : List (Nat × Nat)
  downSince : Option (Nat × Bool)
deriving DecidableEq, Repr

/-- A message handed to a port or a session: kind code (R351, R384), fields in table order, data. -/
structure OutMsg where
  kind : Nat
  fields : List Nat
  data : List Byte
deriving DecidableEq, Repr

/-- Where a message goes: a host session, a module of the site, a far member by route, or the wire of a port
(replies of R340). -/
inductive Dest where
  | host (session : Nat)
  | peer (module : Nat)
  | far (site route : Nat)
  | wire (port half : Nat)
deriving DecidableEq, Repr

/-- A frame sent and not yet acknowledged: its SEQ, its message, its resends and its present timeout in µs
(R345). -/
structure Unacked where
  seq : Nat
  msg : OutMsg
  resends : Nat
  timeout : Nat
deriving DecidableEq, Repr

/-- A host session (R345, R358): appNext is the SEQ of the next message to take effect, rxNext the next SEQ
expected, rxSeen the frames received beyond it; waiting are messages held back by the limit of 256 frames. -/
structure HostSession where
  session : Nat
  port : Nat
  half : Nat
  addr : Nat
  appNext : Nat
  rxNext : Nat
  rxSeen : List Nat
  txNext : Nat
  unacked : List Unacked
  waiting : List OutMsg
deriving DecidableEq, Repr

/-- A near session (R347, R350): credits in 256-byte units. users are the contexts that sent or received a
merge, tally or notice on it since their seal opened (R348). -/
structure NearSession where
  module : Nat
  session : Nat
  port : Nat
  half : Nat
  up : Bool
  rxNext : Nat
  txNext : Nat
  unacked : List Unacked
  waiting : List OutMsg
  limit : Nat
  sent : Nat
  rxLimit : Nat
  rxLimitSent : Nat
  users : List Nat
deriving DecidableEq, Repr

/-- An event of the queue (R358, R359): code, source page, EVSEQ, site count, data, and the session and SEQ
of the frame that carries it. -/
structure Event where
  code : Nat
  page : Nat
  evseq : Nat
  count : Nat
  data : List Byte
  sentIn : Option (Nat × Nat)
deriving DecidableEq, Repr

/-- The lock state of the site count (R290, R298). -/
inductive Sync where
  | free | acquiring | locked | holdover | unlocked
deriving DecidableEq, Repr

/-- The site count (R289, R290). pendingSet is an SC_SET waiting for the next 1PPS edge. -/
structure SiteCount where
  count : Nat
  sync : Sync
  src : Nat
  near : Nat
  offset : Int
  freq : Int
  streak : Nat
  pendingSet : Option Nat
  ppsSeen : Bool
  refSeen : Bool
deriving DecidableEq, Repr

/-- What a launch named (R353): illegal and forced tell how it ended, for its end code. -/
structure Launch where
  handle : Nat
  count : Word
  at_ : Nat
  late : Bool
  startBeat : Nat
  startNs : Nat
  illegal : Bool
  forced : Bool
deriving DecidableEq, Repr

/-- A placed section of an image (R196): kind, logical hamper, device address, size, and number of the section. -/
structure Placed where
  kind : Nat
  lh : Nat
  addr : Nat
  size : Nat
  index : Nat
deriving DecidableEq, Repr

/-- A relocation record with the field's value in the image and, once placed, the device address of the field (R198). -/
structure RelocRec where
  target : Nat
  kind : Nat
  symbol : Option Nat
  section_ : Nat
  off : Nat
  orig : Nat
  addr : Nat
deriving DecidableEq, Repr

/-- A loaded program image (R195–R198, R413): its placed sections, the recipe slots it claims (by physical hamper, and of the update units),
the wheel entries it was granted, the PANTRY_INIT values of sections fixed in the pantry window, and its symbol records. -/
structure Image where
  handle : Nat
  mask : Nat
  pantryUse : Nat
  entrySec : Nat
  entries : List Nat
  placed : List Placed
  symbols : Nat
  patched : Bool
  hash : List Byte
  patchHash : List Byte
  vslots : List (Nat × Nat)
  uslots : List Nat
  grants : List Nat
  pinit : List (Nat × List Byte)
  relocs : List RelocRec
deriving DecidableEq, Repr

/-- The state of a context (R425). -/
inductive CtxState where
  | empty | loaded | held | running | stopping | preempted | restoring | resetting
deriving DecidableEq, Repr

/-- A saved section 1–9 of a context image for one logical hamper (R430): the hamper's whole state at its
break points. -/
structure SavedHamper where
  lh : Lh
  h : Hamper
  pantry : List (Nat × Byte)
deriving DecidableEq, Repr

/-- The contents of a context image (R429, R430): p is the beat of the dies at P, stopBeat its BEAT value; the section contents are
kept as data, since the spec lays out the header only (log entry 36). -/
structure SavedImage where
  addr : Nat
  mode : Nat
  restartDue : Bool
  stopBeat : Nat
  p : Nat
  launch : Option Launch
  hash : List Byte
  patchHash : List Byte
  seed : BitVec 128
  ucStep : Nat
  mask : Nat
  hampers : List SavedHamper
  tallies : List (Nat × Tally)
  slots : List (Nat × BarSlot)
  reqs : List SealReq
  len : Nat
  check : List Byte
deriving DecidableEq, Repr

/-- A context (R424–R437). -/
structure Context where
  state : CtxState
  image : Option Image
  launch : Option Launch
  lastStart : Nat
  lateNs : Nat
  seed : BitVec 128
  mode : Nat
  stopAt : Option Nat
  saved : Option SavedImage
  restartDue : Bool
  code : Nat
  imageLen : Nat
  stopBeat : Nat
  stopNs : Nat
  acceptedNs : Nat
  imageAddr : Nat
  imageSize : Nat
deriving DecidableEq, Repr

/-- An empty context. -/
def Context.empty : Context :=
  { state := .empty, image := none, launch := none, lastStart := 0, lateNs := 0, seed := 0, mode := 0
    stopAt := none, saved := none, restartDue := false, code := 0, imageLen := 0, stopBeat := 0, stopNs := 0
    acceptedNs := 0, imageAddr := 0, imageSize := 0 }

/-- The loader's command in progress, with the addresses its registers held (R197, R198). -/
inductive LoadCmd where
  | load (ctx addr len : Nat)
  | unload (handle : Nat)
  | patch (handle addr : Nat)
deriving DecidableEq, Repr

/-- The loader (R211): the command in progress, and what MG_LOAD_STATUS and MG_LOAD_INFO last reported. -/
structure Loader where
  cmd : Option LoadCmd
  state : Nat
  code : Nat
  handle : Nat
  info : Nat
deriving DecidableEq, Repr

/-- A restart in progress (R305) and the attempt it leads to (R308). -/
structure Restart where
  ctx : Nat
  goal : Nat
  fromNs : Nat
deriving DecidableEq, Repr

/-- A tally message of a domain member held for a later attempt (R309, R355). -/
structure HeldMsg where
  op : Nat
  module : Nat
  ctx : Nat
  attempt : Nat
  vid : Nat
  value : Nat
  token : W32
deriving DecidableEq, Repr

/-- The fault logic (R304–R317, R321). events holds every counted fault with its unit code and second; lag the
laggard counters of R316, lagSeen their values at the last evaluation, lagHist the charges of the last ten evaluations, newest
first, lagRaised the 10 mV steps raised for a unit and lagSuspect the units that are suspects (R317); suspended messages of R309 wait
in held. -/
structure FaultState where
  attempt : Nat
  refusals : Nat
  restart : Option Restart
  events : List (Nat × Nat)
  lag : List (Nat × Nat)
  lagSeen : List (Nat × Nat)
  lagHist : List (Nat × List Nat)
  lagRaised : List (Nat × Nat)
  lagSuspect : List Nat
  draining : Bool
  replace : Bool
  causeUnit : Nat
  causeKind : Nat
  failed : List Nat
  held : List HeldMsg
deriving DecidableEq, Repr

/-- Why beat advance is halted (R452, R454). -/
structure Halts where
  power : Bool
  thermal : Bool
  debug : Bool
deriving DecidableEq, Repr

/-- Where the module stands in its start-up and resets (R439, R444–R446). -/
inductive Phase where
  | off
  | starting (kind : Nat) (held : Bool)
  | bootFail
  | powerFault (group : Nat)
  | tripped
  | running
  | warm
deriving DecidableEq, Repr

/-- The power manager (R448–R456) and the start-up state. samples are the last input powers in mW, newest
first; exceeds, under and hot count the samples of the conditions of R452; energy is in units of 10⁻⁵ mJ; marks are the package's beats
at the last samples, newest first; startNs and resetNs are the clock at the last power-on and at the last start or reset. -/
structure Power where
  phase : Phase
  halts : Halts
  haltFrom : Nat
  samples : List Nat
  exceeds : Nat
  under : Nat
  hot : Nat
  energy : Nat
  marks : List Nat
  mv : Vector Nat 10
  floor : Vector Nat 8
  ceiling : Vector Nat 8
  forced : Vector (Option Nat) 8
  inputLow : Bool
  inputMv : Nat
  throttled : Bool
  tj : Nat
  tjDie : Nat
  bootKind : Nat
  memtest : Bool
  tripBefore : Bool
  elapsedMs : Nat
  readySent : Bool
  faultGroup : Nat
  bootStep : Nat
  startNs : Nat
  resetNs : Nat
deriving DecidableEq, Repr

/-- The configuration flash (R267, R312, R339, R455, R462): retired rows and pseudo-channels per stack, retired
lanes per port, counted faults, the row-tracking entries of the memory controllers, the replace flag, the thermal trip, and the values of the flash-backed registers. -/
structure Flash where
  rows : List (Nat × Nat)
  pcs : List (Nat × Nat × Nat)
  lanes : List (Nat × Nat)
  faults : List (Nat × Nat)
  tracks : List ((Bool × Nat) × List RowTrack)
  flag : Option (Nat × Nat)
  trip : Bool
  regs : List (Nat × Nat)
  writes : Nat
deriving DecidableEq, Repr

/-- The header state of a page that is not a plain register (R436, R464, R465, R469): PAGE_CTRL.ENABLE inverted, a drain
running, DRAINED, FAULT, disabled by self-test, DEBUG, and the expert level unlocked. -/
structure PageFlags where
  disabled : Bool
  draining : Bool
  drained : Bool
  fault : Bool
  off : Bool
  debug : Bool
  unlocked : Bool
deriving DecidableEq, Repr

/-- The flags of a page after module reset. -/
def PageFlags.reset : PageFlags := ⟨false, false, false, false, false, false, false⟩

/-- What the part is: fixed or fused at manufacture (R2, R3, R44, R404). hampersOn is the fuse map of enabled
physical hampers. -/
structure Part where
  hampersOn : List Nat
  gradeB40 : Bool
  steppingB0 : Bool
  serial : Nat
  repair : List (Nat × Nat)
  repairsLeft : List (Nat × Nat)
deriving DecidableEq, Repr

end Sys2Proof.Machine
end

