-- ==== Sys2Proof/Machine/State.lean ====
section
/-!
DEFINITION. Machine/State.lean: the state of the module, the reasons a step can stop, and the state after reset.
-/
namespace Sys2Proof.Machine

/-- Why a step faults. No operation of the device raises an exception or traps (R10), and no command of the
model ends in a fault; the one constructor keeps the type closed. -/
inductive Fault where
  /-- Raised by nobody: R10 gives every operation a defined result. Safe: a fault proves nothing. -/
  | none_
deriving DecidableEq, Repr

/-- Why a step is refused. -/
inductive Refusal where
  /-- Raised by Machine/Dispatch.lean for a command the model gives no meaning yet, by its mnemonic. Safe. -/
  | notModelled (mnemonic : String)
deriving DecidableEq, Repr

/-- The module. pending are the commands waiting, first in first out; free is the model's own counter behind
the free values of Config (log entry 3). -/
structure State where
  pending : List Instr
  free : Nat
  part : Part
  flash : Flash
  mem : List (Nat × Byte)
  regs : List (Nat × Nat)
  pages : List (Nat × PageFlags)
  wheels : List (Nat × Nat)
  hazards : List (Nat × List (Nat × Nat))
  dies : Vector Nat 4
  hampers : Vector Hamper 48
  stores : Vector RecipeStore 48
  ustore : RecipeStore
  units : Vector UpdUnit 20
  uc : Uc
  ledger : Ledger
  tly : TallyState
  dmas : List OpenDma
  merges : List MergeMsg
  ctxs : Vector Context 16
  images : List SavedImage
  loader : Loader
  flt : FaultState
  hbm : Vector MemCtl 16
  lpc : Vector MemCtl 16
  arbs : Vector Arb 58
  ports : Vector Port 10
  hostSessions : List HostSession
  nearSessions : List NearSession
  sink : Option Nat
  events : List Event
  evseq : Nat
  outbox : List (Dest × Nat × OutMsg)
  answer : List Byte
  hostHeld : List OutMsg
  sc : SiteCount
  rmb : Rmb
  sec : Secure
  clockNs : Nat
  power : Power
deriving DecidableEq, Repr

/-- The module right after reset: powered up, trained and READY, with nothing loaded (R439, R443, R444). Every
register stands at the reset value of its table; what the spec does not fix is named in log entries 1, 2 and 4. -/
def State.reset : State :=
  { pending := [], free := 0
    part := { hampersOn := List.range 48, gradeB40 := false, steppingB0 := false, serial := 0, repair := []
              repairsLeft := [] }
    flash := { rows := [], pcs := [], lanes := [], faults := [], tracks := [], flag := none, trip := false, regs := []
               writes := 0 }
    mem := [], regs := [], pages := [], wheels := [], hazards := [], dies := Vector.replicate 4 0
    hampers := Vector.replicate 48 .idle, stores := Vector.replicate 48 .empty, ustore := .empty
    units := Vector.replicate 20 .idle, uc := .reset, ledger := .reset, tly := .reset, dmas := []
    merges := [], ctxs := Vector.replicate 16 .empty, images := []
    loader := { cmd := none, state := 0, code := 0, handle := 0, info := 0 }
    flt := { attempt := 1, refusals := 0, restart := none, events := [], lag := [], lagSeen := [], lagHist := []
             lagRaised := [], lagSuspect := [], draining := false, replace := false, causeUnit := 0, causeKind := 0, failed := [], held := [] }
    hbm := Vector.replicate 16 .reset, lpc := Vector.replicate 16 .reset, arbs := Vector.replicate 58 .reset
    ports := Vector.replicate 10 { link := Vector.replicate 2 .down, split := false, retired := []
                                   fallback := none, echoes := [], downSince := none }
    hostSessions := [], nearSessions := [], sink := none, events := [], evseq := 0, outbox := [], answer := [], hostHeld := []
    sc := { count := 0, sync := .free, src := 0, near := 0, offset := 0, freq := 0, streak := 0
            pendingSet := none, ppsSeen := false, refSeen := false }
    rmb := .reset, sec := .reset
    clockNs := 0
    power := { phase := .running, halts := ⟨false, false, false⟩, haltFrom := 0, samples := [], exceeds := 0
               under := 0, hot := 0, energy := 0, marks := [], mv := #v[800, 800, 800, 800, 800, 800, 800, 800, 750, 750]
               floor := Vector.replicate 8 680, ceiling := Vector.replicate 8 900
               forced := Vector.replicate 8 none, inputLow := false, inputMv := 48000, throttled := false
               tj := 0, tjDie := 0, bootKind := 0, memtest := false
               tripBefore := false, elapsedMs := 0, readySent := true, faultGroup := 0, bootStep := 0
               startNs := 0, resetNs := 0 } }

end Sys2Proof.Machine
end

