-- ==== Sys2Proof/Machine/Ops.lean ====
section
/-!
DEFINITION. Machine/Ops.lean: the named operations over the state: free values, memory (R11, R12, R251–R256), the
virtual grid (R199–R201), register banks (R13, R458) and the parts of a hamper.
-/
namespace Sys2Proof.Machine

/-! ## Free values -/

/-- Draw a free number and advance the counter behind it (log entry 3). -/
def draw (s : State) : Nat × State := (Config.freeNat s.free, { s with free := s.free + 1 })

/-- Draw n free bytes (log entry 3). -/
def drawBytes (n : Nat) (s : State) : List Byte × State :=
  ((List.range n).map (fun i => Config.freeByte (s.free + i)), { s with free := s.free + n })

/-! ## Memory: one sparse store keyed by device address -/

/-- A byte of memory; an unlisted address reads 0 (log entry 4). -/
def memGet (m : List (Nat × Byte)) (a : Nat) : Byte := sparseGet 0 m a

/-- Write a byte, keeping the canonical form. -/
def memPut (m : List (Nat × Byte)) (a : Nat) (b : Byte) : List (Nat × Byte) := sparseSet 0 m a b

/-- Read n bytes from address a on. -/
def memRead (m : List (Nat × Byte)) (a : Nat) : Nat → List Byte
  | 0 => []
  | n + 1 => memGet m a :: memRead m (a + 1) n

/-- Write a byte list from address a on. -/
def memWrite (m : List (Nat × Byte)) (a : Nat) : List Byte → List (Nat × Byte)
  | [] => m
  | b :: bs => memWrite (memPut m a b) (a + 1) bs

/-- Clear the n bytes from address a on to the value of an unlisted address. -/
def memClear (m : List (Nat × Byte)) (a n : Nat) : List (Nat × Byte) :=
  m.filter (fun c => decide (c.1 < a) || decide (a + n ≤ c.1))

/-- The listed bytes of a range, with addresses counted from a. -/
def memSlice (m : List (Nat × Byte)) (a n : Nat) : List (Nat × Byte) :=
  (m.filter (fun c => decide (a ≤ c.1) && decide (c.1 < a + n))).map (fun c => (c.1 - a, c.2))

/-- Put back a slice taken by memSlice. -/
def memUnslice (m : List (Nat × Byte)) (a n : Nat) (sl : List (Nat × Byte)) : List (Nat × Byte) :=
  sl.foldl (fun m c => memPut m (a + c.1) c.2) (memClear m a n)

/-- The canonical form of memory: addresses strictly rising, and no entry equal to what an unlisted address
reads as. -/
def Memory.wf (m : List (Nat × Byte)) : Bool := sparseWf (0 : Byte) m

/-- The number a little-endian field of memory holds (R11). -/
def memNat (m : List (Nat × Byte)) (a n : Nat) : Nat := natOfLE (memRead m a n)

/-! ## The address map (R12, R254) -/

/-- Bytes of the HBM3E tier (R12). -/
def hbmEnd : Nat := 0x90_0000_0000
/-- Base of the LPDDR5X tier (R12). -/
def lpBase : Nat := 0x1_0000_0000_0000
/-- Bytes of the LPDDR5X tier (R12). -/
def lpSize : Nat := 0x100_0000_0000
/-- First address of the larder (R254). -/
def larderBase : Nat := 0x1_00FD_C000_0000
/-- Base of the pantry global window (R12, R255). -/
def pantryBase : Nat := 0xE_0000_0000_0000
/-- Spacing of the logical hampers in the pantry window: 8 MiB (R255). -/
def pantryStride : Nat := 0x80_0000
/-- Base of the register window (R13). -/
def pageBase : Nat := 0xF_0000_0000_0000
/-- Bytes of the register window (R12). -/
def pageWindow : Nat := 0x1000_0000

/-- The physical hampers of die d that the fuse map enables, as local indices (R200). -/
def enabledOn (s : State) (d : Nat) : List Nat :=
  (List.range 12).filter (fun k => s.part.hampersOn.contains (12 * d + k))

/-- The physical hamper logical hamper lh runs on (R200). -/
def physOf (s : State) (lh : Nat) : Nat :=
  let d := lh / 12
  let k := lh % 12
  let e := enabledOn s d
  12 * d + e.getD (if k < e.length then k else k - e.length) k

/-- Whether a logical hamper runs in phase 1 of its physical hamper (R200, R201). -/
def isSecond (s : State) (lh : Nat) : Bool := decide ((enabledOn s (lh / 12)).length ≤ lh % 12)

/-- The logical hampers of a physical hamper, first one first (R200). -/
def logicalsOf (s : State) (h : Nat) : List Nat :=
  (List.range 48).filter (fun l => decide (physOf s l = h))

/-- Whether a physical hamper holds two logical hampers (R200, R461). -/
def isFolded (s : State) (h : Nat) : Bool := decide (1 < (logicalsOf s h).length)

/-- Bytes of the pantry partition of a logical hamper: 8 MiB, or 4 MiB when folded (R256). -/
def pantrySize (s : State) (lh : Nat) : Nat :=
  if isFolded s (physOf s lh) then 0x40_0000 else 0x80_0000

/-- The device address of byte o of the pantry of a logical hamper (R255). -/
def pantryAddr (lh o : Nat) : Nat := pantryBase + lh * pantryStride + o

/-- Whether the phases of a logical beat are two (R201). -/
def twoPhases (s : State) : Bool := s.part.hampersOn.length != 48

/-- The regions of the map (R12). -/
inductive Region where
  | hbm | lpddr | larder | pantry | pages | outside
deriving DecidableEq, Repr

/-- The region of an address (R12, R254). -/
def regionOf (a : Nat) : Region :=
  if a < hbmEnd then .hbm
  else if lpBase ≤ a ∧ a < lpBase + lpSize then (if larderBase ≤ a then .larder else .lpddr)
  else if pantryBase ≤ a ∧ a < pantryBase + 48 * pantryStride then .pantry
  else if pageBase ≤ a ∧ a < pageBase + pageWindow then .pages
  else .outside

/-- Whether n bytes from a lie in the pantry window, each within its hamper's partition (R255, R256). -/
def pantryRangeOk (s : State) (a n : Nat) : Bool :=
  let o := a - pantryBase
  let l0 := o / pantryStride
  let l1 := (o + n - 1) / pantryStride
  decide (pantryBase ≤ a) && decide (o + n ≤ 48 * pantryStride) &&
  (List.range (l1 + 1 - l0)).all (fun i =>
    let l := l0 + i
    decide ((if l = l1 then (o + n - 1) % pantryStride + 1 else pantryStride) ≤ pantrySize s l))

/-- Whether n bytes from a lie in HBM3E (R12). -/
def hbmRangeOk (a n : Nat) : Bool := decide (a + n ≤ hbmEnd)

/-- Whether n bytes from a lie in LPDDR5X outside the larder (R12, R254). -/
def lpRangeOk (a n : Nat) : Bool := decide (lpBase ≤ a) && decide (a + n ≤ larderBase)

/-- Whether n bytes from a lie within one region of device memory or the pantry window, outside the larder and the
register window (R12, R254, R352). -/
def bulkRangeOk (s : State) (a n : Nat) : Bool :=
  hbmRangeOk a n || lpRangeOk a n || pantryRangeOk s a n

/-- Whether n bytes from a lie in device memory, outside the larder. -/
def deviceRangeOk (a n : Nat) : Bool := hbmRangeOk a n || lpRangeOk a n

/-- The stack S(4D + J) that holds an HBM3E address (R251). -/
def stackOf (a : Nat) : Nat := 4 * bits a 35 34 + bits a 33 32

/-- The pseudo-channel P of an HBM3E address (R251). -/
def pcOf (a : Nat) : Nat := 2 * bits a 12 9 + bits a 8 8

/-- The row of an HBM3E address (R252). -/
def rowOf (a : Nat) : Nat := (bits a 39 36 % 3) * 8192 + bits a 31 19

/-- The bank of an HBM3E address within its pseudo-channel: SID, BG, BANK (R252). -/
def bankOf (a : Nat) : Nat := (bits a 39 36 / 3) * 16 + bits a 16 15 * 4 + bits a 18 17

/-- A key naming the row of an HBM3E address within its stack (R252). -/
def rowKey (a : Nat) : Nat := (pcOf a * 64 + bankOf a) * 24576 + rowOf a

/-- The die an HBM3E address belongs to (R251). -/
def dieOfHbm (a : Nat) : Nat := bits a 35 34

/-- The package of an LPDDR5X tier offset (R253). -/
def packageOf (o : Nat) : Nat := bits o 11 8

/-- The channel of an LPDDR5X tier offset (R253). -/
def chanOf (o : Nat) : Nat := bits o 7 6

/-- A key naming the row of an LPDDR5X tier offset within its package (R253). -/
def lpRowKey (o : Nat) : Nat :=
  ((chanOf o * 2 + bits o 21 21) * 16 + bits o 18 17 * 4 + bits o 20 19) * 262144 + bits o 39 22

/-! ## Register pages and banks (R13, R458) -/

/-- Type codes of the pages (R458), with UC's page as code 20 of the model (R146) beside UPDATE's 12. -/
def pageType (k : Nat) : Option (Nat × Nat) :=
  if k < 8 then some (k, 0)
  else if k < 0x00A then some (8, k - 8)
  else if 0x010 ≤ k ∧ k < 0x01A then some (9, k - 0x010)
  else if 0x020 ≤ k ∧ k < 0x030 then some (10, k - 0x020)
  else if 0x030 ≤ k ∧ k < 0x040 then some (11, k - 0x030)
  else if 0x040 ≤ k ∧ k < 0x055 then some (12, k - 0x040)
  else if 0x100 ≤ k ∧ k < 0x400 then
    let h := (k - 0x100) / 16
    let b := k % 16
    if b < 6 then some (13 + b, h) else if b < 9 then some (19, 3 * h + (b - 6)) else none
  else none

/-- Whether a page exists: R458, with the pages of fused-off hampers absent. -/
def pagePresent (s : State) (k : Nat) : Bool :=
  (pageType k).isSome && (decide (k < 0x100) || s.part.hampersOn.contains ((k - 0x100) / 16))

/-- The MGMT page. -/
def mgmtPage : Nat := 1
/-- The FAULT page. -/
def faultPage : Nat := 2
/-- The POWER page. -/
def powerPage : Nat := 3
/-- The SECURE page. -/
def securePage : Nat := 4
/-- The LEDGER page. -/
def ledgerPage : Nat := 5
/-- The SITECOUNT page. -/
def scPage : Nat := 6
/-- The TALLY page. -/
def tallyPage : Nat := 7
/-- The RAMBLER page of an I/O die. -/
def ramblerPage (i : Nat) : Nat := 8 + i
/-- The PORT page of a port. -/
def portPage (i : Nat) : Nat := 0x10 + i
/-- The HBMC page of a stack. -/
def hbmcPage (i : Nat) : Nat := 0x20 + i
/-- The LPC page of a package. -/
def lpcPage (i : Nat) : Nat := 0x30 + i
/-- The UPDATE page of a unit. -/
def updPage (u : Nat) : Nat := 0x40 + u
/-- The UPDATE page of UC. -/
def ucPage : Nat := 0x54

/-- The page of block sub (0 HAMPER, 1 FEEDER, 2 VECTOR, 3 PANTRY, 4 STASH, 5 LIST, 6–8 FRAME) of the physical
hamper a logical hamper runs on. -/
def hamPage (s : State) (lh sub : Nat) : Nat := 0x100 + 0x10 * physOf s lh + sub

/-- The register bank of block sub of a logical hamper: registers that follow HAM_LSEL (R180, R463). -/
def lbank (lh sub : Nat) : Nat := 0x1000 + 0x10 * lh + sub

/-- The bank of the peer table entry of a module (R364). -/
def peerBank (module : Nat) : Nat := 0x2000 + module

/-- The bank of a route of a rambler (R402). -/
def routeBank (die site route : Nat) : Nat := 0x2200 + 64 * die + 4 * site + route

/-- The register map of a bank. -/
def bankRegs (bank : Nat) : List RegDesc :=
  let ty := if 0x1000 ≤ bank then
      (let b := bank % 16; if 0x1300 ≤ bank then 99 else if b < 6 then 13 + b else if b < 9 then 19 else 99)
    else match pageType bank with
      | some (t, _) => t
      | none => 99
  match ty with
  | 0 => directoryRegs
  | 1 => mgmtRegs ++ arbiterRegs
  | 2 => faultRegs
  | 3 => powerRegs
  | 4 => secureRegs
  | 5 => ledgerRegs
  | 6 => siteCountRegs
  | 7 => tallyRegs
  | 8 => ramblerRegs
  | 9 => if bank < 0x012 then portRegs ++ arbiterRegs else portRegs
  | 10 => hbmcRegs ++ arbiterRegs
  | 11 => lpcRegs ++ arbiterRegs
  | 12 => if bank = 0x054 then ucRegs else updateRegs
  | 13 => hamperRegs
  | 14 => feederRegs
  | 15 => vectorRegs
  | 16 => pantryRegs
  | 17 => stashRegs
  | 18 => listRegs
  | 19 => frameRegs
  | _ => []

/-- The row of the register map that covers an offset of a bank. -/
def regDesc (bank off : Nat) : Option (RegDesc × Nat) :=
  if off < headerEnd then regFind headerRegs off else regFind (bankRegs bank) off

/-- The reset value of a register (R16, R329, R336). -/
def regDefault (bank off : Nat) : Nat :=
  match regDesc bank off with
  | none => 0
  | some (d, i) =>
    if d.off = Reg.arbHoldNs ∧ d.name = "ARB_HOLD_NS" then (if 0x10 ≤ bank ∧ bank < 0x20 then 0x4E20 else 0x7D0)
    else if d.off = Reg.arbAux ∧ d.name = "ARB_AUX" then (if 0x20 ≤ bank ∧ bank < 0x30 then 0x20 else 0)
    else if d.name = "ARB_CLASS0" then (arbResetClasses.getD i ⟨false, 0, 0⟩).weight
    else if d.name = "ARB_PRIO0" then
      (let c := arbResetClasses.getD i ⟨false, 0, 0⟩; bit c.high + 256 * c.quota)
    else d.reset

/-- The key of a register of a bank. -/
def regKey (bank off : Nat) : Nat := bank * 0x1000 + off

/-- The stored value of a register; one not stored holds its reset value. -/
def getReg (s : State) (bank off : Nat) : Nat := sparseGet (regDefault bank off) s.regs (regKey bank off)

/-- Store a register. -/
def setReg (s : State) (bank off v : Nat) : State :=
  { s with regs := sparseSet (regDefault bank off) s.regs (regKey bank off) v }

/-- The width of a register in bits (R14). -/
def regWidth (bank off : Nat) : Nat :=
  match regDesc bank off with
  | some (d, _) => if d.wide then 64 else 32
  | none => 64

/-- Add to a counter register; it stops at its largest value (R467). -/
def countReg (s : State) (bank off n : Nat) : State :=
  if n = 0 then s else setReg s bank off (satAdd (regWidth bank off) (getReg s bank off) n)

/-- Count in a register of a page, addressed by block and offset of the logical hamper. -/
def countLh (s : State) (lh sub off n : Nat) : State := countReg s (lbank lh sub) off n

/-! ## The flags of a page -/

/-- The header flags of a page. -/
def getFlags (s : State) (page : Nat) : PageFlags := sparseGet .reset s.pages page

/-- Set the header flags of a page. -/
def setFlags (s : State) (page : Nat) (f : PageFlags) : State :=
  { s with pages := sparseSet .reset s.pages page f }

/-! ## Hampers -/

/-- A logical hamper by number; out of range reads an idle one. -/
def getH (s : State) (lh : Nat) : Hamper := s.hampers[lh]?.getD .idle

/-- Replace a logical hamper. -/
def setH (s : State) (lh : Nat) (h : Hamper) : State :=
  { s with hampers := s.hampers.setIfInBounds lh h }

/-- Apply a function to a logical hamper. -/
def modH (s : State) (lh : Nat) (f : Hamper → Hamper) : State := setH s lh (f (getH s lh))

/-- Apply a function to a control core. -/
def modCore (s : State) (lh : Nat) (f : Core → Core) : State :=
  modH s lh (fun h => { h with core := f h.core })

/-- Apply a function to a frame. -/
def modFrame (s : State) (lh f : Nat) (g : Frame → Frame) : State :=
  modH s lh (fun h => { h with frames := h.frames.setIfInBounds f (g (h.frames[f]?.getD .idle)) })

/-- A frame of a hamper. -/
def getFrame (h : Hamper) (f : Nat) : Frame := h.frames[f]?.getD .idle

/-- A context by number. -/
def getCtx (s : State) (c : Nat) : Context := s.ctxs[c]?.getD .empty

/-- Replace a context. -/
def setCtx (s : State) (c : Nat) (x : Context) : State := { s with ctxs := s.ctxs.setIfInBounds c x }

/-- Apply a function to a context. -/
def modCtx (s : State) (c : Nat) (f : Context → Context) : State := setCtx s c (f (getCtx s c))

/-- The current beat of the die of a logical hamper. -/
def beatOf (s : State) (lh : Nat) : Nat := s.dies[lh / 12]?.getD 0

/-- The package's completed beats, MG_PACKAGE_BEATS: those every die has completed (R211). -/
def packageBeats (s : State) : Nat := s.dies.toList.foldl Nat.min (s.dies.toList.headD 0)

/-- Bytes of the pantry of a logical hamper. -/
def pantryRead (s : State) (lh a n : Nat) : List Byte := memRead s.mem (pantryAddr lh a) n

/-- The module clock in seconds (R311, R475). -/
def clockSec (s : State) : Nat := s.clockNs / 1000000000

/-- Whether a launch of a context runs: RUNNING or STOPPING (R425, R437). -/
def ctxRuns (x : Context) : Bool := x.state == .running || x.state == .stopping

/-- Whether any launch runs. -/
def anyLaunch (s : State) : Bool := s.ctxs.toList.any ctxRuns

/-- The logical hampers of a mask. -/
def maskList (mask : Nat) : List Nat := (List.range 48).filter (fun l => mask.testBit l)

/-- The hamper mask of the image of a context. -/
def ctxMask (s : State) (c : Nat) : Nat :=
  match (getCtx s c).image with
  | some im => im.mask
  | none => 0

end Sys2Proof.Machine
end

