-- ==== Sys2Proof/Machine/Flags.lean ====
section
/-!
DEFINITION. Machine/Flags.lean: the sticky error bits of the pages (R466, R467), the sending of messages over host and
near sessions (R345, R350) and the event queue (R358, R359, R468).
-/
namespace Sys2Proof.Machine

/-! ## PAGE_ERR -/

/-- Set a bit of a page's PAGE_ERR and count the error (R466, R467). -/
def setErr (s : State) (page b : Nat) : State :=
  countReg (setReg s page Reg.pageErr (getReg s page Reg.pageErr ||| 2 ^ b)) page Reg.pageErrCount 1

/-- Set an error bit when a condition holds. -/
def setErrIf (c : Bool) (s : State) (page b : Nat) : State := if c then setErr s page b else s

/-- Set an error bit of a block of the physical hamper under a logical hamper. -/
def setErrLh (s : State) (lh sub b : Nat) : State := setErr s (hamPage s lh sub) b

/-- ACCESS_SIZE (R466). -/
def errAccessSize : Nat := 24
/-- EXPERT_DENIED (R466). -/
def errExpertDenied : Nat := 25
/-- OUT_OF_MAP (R466). -/
def errOutOfMap : Nat := 26
/-- PARITY (R466). -/
def errParity : Nat := 27

/-- A write of an expert field: it takes effect while the page is unlocked, otherwise it is ignored with EXPERT_DENIED (R15, R17). -/
def expertOnly (s : State) (page : Nat) (f : State → State) : State :=
  if (getFlags s page).unlocked then f s else setErr s page errExpertDenied

/-- Whether a block is out of service: drained or draining, or disabled by self-test (R436, R442). -/
def pageOff (s : State) (page : Nat) : Bool :=
  let f := getFlags s page
  f.drained || f.draining || f.off

/-- The bits of PAGE_ERR set through a W1C write are cleared (R15). -/
def clearErr (s : State) (page v : Nat) : State :=
  setReg s page Reg.pageErr (getReg s page Reg.pageErr &&& (v ^^^ 0xFFFFFFFF))

/-! ## Sending -/

/-- The host session of a number. -/
def hostSess (s : State) (n : Nat) : Option HostSession := s.hostSessions.find? (fun x => decide (x.session = n))

/-- Replace a host session. -/
def setHostSess (s : State) (x : HostSession) : State :=
  { s with hostSessions := s.hostSessions.map (fun y => if y.session = x.session then x else y) }

/-- Put a frame on a host session: at most 256 unacknowledged, later ones wait (R345). -/
def hostPush (s : State) (x : HostSession) (m : OutMsg) : State :=
  if x.unacked.length < 256 then
    let u : Unacked := { seq := x.txNext, msg := m, resends := 0, timeout := getReg s mgmtPage Reg.vyvHostRto }
    let x' := { x with unacked := x.unacked ++ [u], txNext := (x.txNext + 1) % 2 ^ 32 }
    let s := setHostSess s x'
    countReg { s with outbox := s.outbox ++ [(.host x.session, x.txNext, m)] } (portPage x.port) Reg.portTxFrames 1
  else setHostSess s { x with waiting := x.waiting ++ [m] }

/-- Send a message to the host on a session, if it exists. -/
def hostSend (s : State) (session : Nat) (m : OutMsg) : State :=
  match hostSess s session with
  | some x => hostPush s x m
  | none => s

/-- The near session to a module. -/
def nearSess (s : State) (module : Nat) : Option NearSession :=
  s.nearSessions.find? (fun x => decide (x.module = module))

/-- Replace a near session. -/
def setNearSess (s : State) (x : NearSession) : State :=
  { s with nearSessions := s.nearSessions.map (fun y => if y.module = x.module then x else y) }

/-- Whether a near session to a module is up. -/
def nearUp (s : State) (module : Nat) : Bool :=
  match nearSess s module with
  | some x => x.up
  | none => false

/-- LENGTH of a message: the bytes of its fields by kind (R345, R352–R357, R359), then its data. -/
def msgLen (m : OutMsg) : Nat :=
  (match m.kind with
   | 0x03 => 4
   | 0x04 => 8
   | 0x10 => 16
   | 0x11 => 16
   | 0x12 => 8
   | 0x18 => 16
   | 0x19 => 16
   | 0x1A => 12
   | 0x1B => 8
   | 0x20 => 24
   | 0x21 => 12
   | 0x28 => 17
   | 0x30 => 16
   | 0x38 => 8
   | 0x39 => 8
   | 0x40 => 8
   | 0x41 => 1
   | 0x42 => 16
   | _ => 0) + m.data.length

/-- Credit units of a frame: ceil((40 + LENGTH)/256); ACK messages cost nothing (R350). -/
def frameUnits (m : OutMsg) : Nat := if m.kind = 4 then 0 else ceilDiv (40 + msgLen m) 256

/-- Whether a near session's credit lets a frame of u units leave: limit − S − u, as a signed 16-bit value, is zero or
positive (R350). -/
def creditOk (x : NearSession) (u : Nat) : Bool :=
  decide (0 ≤ toSigned 16 (ofSigned 16 ((x.limit : Int) - x.sent - u)))

/-- Put a frame on a near session, or let it wait for credit (R350). -/
def nearPush (s : State) (x : NearSession) (m : OutMsg) : State :=
  if x.waiting = [] && creditOk x (frameUnits m) then
    let x' := { x with sent := (x.sent + frameUnits m) % 2 ^ 16, txNext := (x.txNext + 1) % 2 ^ 32
                       rxLimitSent := x.rxLimit
                       unacked := if m.kind = 4 then x.unacked
                         else x.unacked ++ [{ seq := x.txNext, msg := m, resends := 0, timeout := 0 }] }
    let s := setNearSess s x'
    countReg { s with outbox := s.outbox ++ [(.peer x.module, x.txNext, m)] } (portPage x.port) Reg.portTxFrames 1
  else setNearSess s { x with waiting := x.waiting ++ [m] }

/-- Send a message to a module of the site, if its session is up; the context's use of the session is recorded for
R348. -/
def nearSend (s : State) (module ctx : Nat) (m : OutMsg) : State :=
  match nearSess s module with
  | some x =>
    if x.up then nearPush s { x with users := if x.users.contains ctx then x.users else ctx :: x.users } m else s
  | none => s

/-- Let waiting frames of a near session leave while credit allows, at most n of them (R350). -/
def nearDrain : Nat → State → Nat → State
  | 0, s, _ => s
  | n + 1, s, module =>
    match nearSess s module with
    | some x =>
      match x.waiting with
      | m :: rest =>
        if creditOk x (frameUnits m) then
          let s := nearPush s { x with waiting := [] } m
          nearDrain n (match nearSess s module with
            | some y => setNearSess s { y with waiting := rest }
            | none => s) module
        else s
      | [] => s
    | none => s

/-- Let waiting frames of a host session leave while fewer than 256 are unacknowledged (R345). -/
def hostDrain : Nat → State → Nat → State
  | 0, s, _ => s
  | n + 1, s, session =>
    match hostSess s session with
    | some x =>
      match x.waiting with
      | m :: rest => if x.unacked.length < 256 then hostDrain n (hostPush s { x with waiting := rest } m) session else s
      | [] => s
    | none => s

/-! ## Events -/

/-- Kind code of EVENT (R351). -/
def kindEvent : Nat := 0x30

/-- The EVENT message of an event (R359). -/
def eventMsg (e : Event) : OutMsg :=
  { kind := kindEvent, fields := [e.code, e.page, e.evseq, e.count], data := e.data }

/-- Send an event of the queue to the sink, recording the frame that carries it (R358). -/
def sendEvent (s : State) (e : Event) : State :=
  match s.sink.bind (hostSess s) with
  | none => s
  | some x =>
    if x.unacked.length < 256 then
      let s := hostPush s x (eventMsg e)
      { s with events := s.events.map (fun y => if y.evseq = e.evseq then { y with sentIn := some (x.session, x.txNext) } else y) }
    else s

/-- Send every queued event not yet sent, oldest first, as far as the sink's session takes frames (R358). -/
def sendEvents (s : State) : State :=
  s.events.foldl (fun s e => if e.sentIn = none then sendEvent s e else s) s

/-- The bit of PAGE_EVENT_MASK that suppresses an event code (R468). -/
def maskBit (code : Nat) : Nat := 8 * bits code 7 4 + bits code 3 0

/-- READY and MODULE_REPLACE are always queued (R468). -/
def unmaskable (code : Nat) : Bool := code == 0x0001 || code == 0x0033

/-- Emit an event from a page: suppressed by the page's mask, lost when the queue is full, otherwise queued and sent to the
sink (R358, R359, R468). EVSEQ counts lost events too. -/
def emit (s : State) (code page : Nat) (data : List Byte) : State :=
  if (getReg s page Reg.pageEventMask).testBit (maskBit code) && !unmaskable code then s
  else
    let seq := s.evseq
    let s := { s with evseq := (seq + 1) % 2 ^ 32 }
    if 4096 ≤ s.events.length then countReg s mgmtPage Reg.vyvEventsLost 1
    else
      let e : Event := { code := code, page := page, evseq := seq, count := s.sc.count, data := padTo 32 data, sentIn := none }
      sendEvent { s with events := s.events ++ [e] } e

/-- Event codes (R360). -/
def evReady : Nat := 0x0001
/-- LOADED (R360). -/
def evLoaded : Nat := 0x0002
/-- LAUNCH_DONE (R360). -/
def evLaunchDone : Nat := 0x0003
/-- SEALED (R360). -/
def evSealed : Nat := 0x0010
/-- SEAL_REFUSED (R360). -/
def evSealRefused : Nat := 0x0011
/-- SEAL_WITHHELD (R360). -/
def evSealWithheld : Nat := 0x0012
/-- STEP_REPLAY (R360). -/
def evStepReplay : Nat := 0x0013
/-- STEP_ABANDONED (R360). -/
def evStepAbandoned : Nat := 0x0014
/-- DOMAIN_LATE (R360). -/
def evDomainLate : Nat := 0x0015
/-- LEDGER_CLOSED (R360). -/
def evLedgerClosed : Nat := 0x0016
/-- PROGRAM_FAULT (R360). -/
def evProgramFault : Nat := 0x0020
/-- STASH_ERROR (R360). -/
def evStashError : Nat := 0x0021
/-- SPILL (R360). -/
def evSpill : Nat := 0x0022
/-- TALLY_ERROR (R360). -/
def evTallyError : Nat := 0x0023
/-- TALLY_RELEASE (R360). -/
def evTallyRelease : Nat := 0x0024
/-- BARRIER_BROKEN (R360). -/
def evBarrierBroken : Nat := 0x0025
/-- HAZARD (R360). -/
def evHazard : Nat := 0x0026
/-- BEAT_WATCHDOG (R360). -/
def evBeatWatchdog : Nat := 0x0030
/-- FAULT_COUNTED (R360). -/
def evFaultCounted : Nat := 0x0031
/-- SUSPECT_UNIT (R360). -/
def evSuspectUnit : Nat := 0x0032
/-- MODULE_REPLACE (R360). -/
def evModuleReplace : Nat := 0x0033
/-- ESCAPE_REPORTED (R360). -/
def evEscapeReported : Nat := 0x0034
/-- MEMORY_UE (R360). -/
def evMemoryUe : Nat := 0x0040
/-- ROW_RETIRED (R360). -/
def evRowRetired : Nat := 0x0041
/-- PC_RETIRED (R360). -/
def evPcRetired : Nat := 0x0042
/-- CHANNEL_RETIRED (R360). -/
def evChannelRetired : Nat := 0x0043
/-- LEDGER_OVERWRITE (R360). -/
def evLedgerOverwrite : Nat := 0x0050
/-- COUNT_STEPPED (R360). -/
def evCountStepped : Nat := 0x0051
/-- SOURCE_LOST (R360). -/
def evSourceLost : Nat := 0x0052
/-- LAUNCH_LATE (R360). -/
def evLaunchLate : Nat := 0x0053
/-- LANE_RETIRED (R360). -/
def evLaneRetired : Nat := 0x0060
/-- PORT_OUT_OF_SERVICE (R360). -/
def evPortOutOfService : Nat := 0x0061
/-- SESSION_LOST (R360). -/
def evSessionLost : Nat := 0x0062
/-- ARB_CUTOFF (R360). -/
def evArbCutoff : Nat := 0x0063
/-- ARB_ERROR (R360). -/
def evArbError : Nat := 0x0064

end Sys2Proof.Machine
end

