-- ==== Sys2Proof/Machine/Hashes.lean ====
section
/-!
DEFINITION. Machine/Hashes.lean: SHA-256, CRC-32C and the Reed–Solomon arithmetic over GF(2^8). The spec
names these functions and their polynomials; SHA-256's constants are those of its standard
(PRESUMED, safe where the standard is the one the spec names; log entry 11).
-/
namespace Sys2Proof.Machine

/-- The first 32 bits of the fractional part of the k-th root (given as a power m with exponent) of p. -/
def fracRoot (deg p : Nat) : Nat → Nat → Nat
  | 0, r => r % 2 ^ 32
  | k + 1, r =>
    let t := r + 2 ^ k
    fracRoot deg p k (if t ^ deg ≤ p * 2 ^ (32 * deg) then t else r)

/-- The first 64 primes. -/
def primes64 : List Nat :=
  [2, 3, 5, 7, 11, 13, 17, 19, 23, 29, 31, 37, 41, 43, 47, 53, 59, 61, 67, 71, 73, 79, 83, 89, 97, 101,
   103, 107, 109, 113, 127, 131] ++
  [137, 139, 149, 151, 157, 163, 167, 173, 179, 181, 191, 193, 197, 199, 211, 223, 227, 229, 233, 239,
   241, 251, 257, 263, 269, 271, 277, 281, 283, 293, 307, 311]

/-- The round constants of SHA-256: the cube roots of the first 64 primes. -/
def shaK : List W32 := primes64.map (fun p => BitVec.ofNat 32 (fracRoot 3 p 36 0))

/-- The initial hash of SHA-256: the square roots of the first eight primes. -/
def shaH0 : List W32 := (primes64.take 8).map (fun p => BitVec.ofNat 32 (fracRoot 2 p 37 0))

/-- Extend a message schedule, newest word first, by n words. -/
def shaSchedule : Nat → List W32 → List W32
  | 0, w => w
  | n + 1, w =>
    let a := w.getD 14 0
    let b := w.getD 1 0
    let s0 := a.rotateRight 7 ^^^ a.rotateRight 18 ^^^ (a >>> 3)
    let s1 := b.rotateRight 17 ^^^ b.rotateRight 19 ^^^ (b >>> 10)
    shaSchedule n ((w.getD 15 0 + s0 + w.getD 6 0 + s1) :: w)

/-- The working variables a–h. -/
structure ShaVars where
  a : W32
  b : W32
  c : W32
  d : W32
  e : W32
  f : W32
  g : W32
  h : W32
deriving DecidableEq, Repr

/-- One SHA-256 round. -/
def shaRound (v : ShaVars) (kw : W32 × W32) : ShaVars :=
  let s1 := v.e.rotateRight 6 ^^^ v.e.rotateRight 11 ^^^ v.e.rotateRight 25
  let ch := (v.e &&& v.f) ^^^ (~~~v.e &&& v.g)
  let t1 := v.h + s1 + ch + kw.1 + kw.2
  let s0 := v.a.rotateRight 2 ^^^ v.a.rotateRight 13 ^^^ v.a.rotateRight 22
  let mj := (v.a &&& v.b) ^^^ (v.a &&& v.c) ^^^ (v.b &&& v.c)
  ⟨t1 + (s0 + mj), v.a, v.b, v.c, v.d + t1, v.e, v.f, v.g⟩

/-- The words of a 64-byte block, big-endian. -/
def shaWords : Nat → List Byte → List W32
  | 0, _ => []
  | n + 1, bs => BitVec.ofNat 32 (natOfBE (bs.take 4)) :: shaWords n (bs.drop 4)

/-- Compress one block into the hash. -/
def shaBlock (h : List W32) (blk : List Byte) : List W32 :=
  let w := (shaSchedule 48 (shaWords 16 blk).reverse).reverse
  let v0 : ShaVars := ⟨h.getD 0 0, h.getD 1 0, h.getD 2 0, h.getD 3 0, h.getD 4 0, h.getD 5 0, h.getD 6 0, h.getD 7 0⟩
  let v := (shaK.zip w).foldl shaRound v0
  [v0.a + v.a, v0.b + v.b, v0.c + v.c, v0.d + v.d, v0.e + v.e, v0.f + v.f, v0.g + v.g, v0.h + v.h]

/-- Compress n blocks. -/
def shaBlocks : Nat → List Byte → List W32 → List W32
  | 0, _, h => h
  | n + 1, bs, h => shaBlocks n (bs.drop 64) (shaBlock h (bs.take 64))

/-- The padded message. -/
def shaPad (bs : List Byte) : List Byte :=
  let z := (119 - bs.length % 64) % 64
  bs ++ [0x80#8] ++ List.replicate z 0 ++ (bytesLE 8 (8 * bs.length)).reverse

/-- SHA-256: 32 bytes in the order the standard writes them. -/
def sha256 (bs : List Byte) : List Byte :=
  let p := shaPad bs
  (shaBlocks (p.length / 64) p shaH0).flatMap (fun w => (bytesLE 4 w.toNat).reverse)

/-- Eight steps of the reflected CRC-32C register. -/
def crcStep : Nat → Nat → Nat
  | 0, c => c
  | n + 1, c => crcStep n (if c % 2 = 1 then (c / 2) ^^^ 0x82F63B78 else c / 2)

/-- CRC-32C of a byte list (R344, R381). -/
def crc32c (bs : List Byte) : Nat :=
  (bs.foldl (fun c b => crcStep 8 (c ^^^ b.toNat)) 0xFFFFFFFF) ^^^ 0xFFFFFFFF

/-- Product in GF(2^8) with the polynomial 0x11D (R380), over n bits of b. -/
def gfMulGo : Nat → Nat → Nat → Nat → Nat
  | 0, _, _, acc => acc
  | n + 1, a, b, acc =>
    gfMulGo n (if a < 128 then 2 * a else (2 * a) ^^^ 0x11D) (b / 2) (if b % 2 = 1 then acc ^^^ a else acc)

/-- Product in GF(2^8) (R380). -/
def gfMul (a b : Nat) : Nat := gfMulGo 8 a b 0

/-- a to the n-th power in GF(2^8). -/
def gfPow (a : Nat) : Nat → Nat
  | 0 => 1
  | n + 1 => gfMul a (gfPow a n)

/-- The inverse of a nonzero element: a^254. -/
def gfInv (a : Nat) : Nat := gfPow a 254

end Sys2Proof.Machine
end

