-- ==== Sys2Proof/Machine/SweepOps.lean ====
section
/-!
DEFINITION. Machine/SweepOps.lean: the sweep descriptor, the chunks of a segment and the journal
(05_update_units.md, R118, R127–R129, R137–R141).
-/
namespace Sys2Proof.Machine

/-! ## The descriptor -/

/-- A little-endian field of a byte list (R11). -/
def fieldN (bs : List Byte) (off n : Nat) : Nat := natOfLE ((bs.drop off).take n)

/-- The segment of 128 bytes of a sweep descriptor (R128). -/
def parseSegment (bs : List Byte) : Segment :=
  let forms := fieldN bs 0x04 4
  let tally := fieldN bs 0x4C 4
  { count := fieldN bs 0x00 4, recipe := bits forms 3 0, pfmt := bits forms 6 4, gfmt := bits forms 10 8
    m1form := bits forms 13 12, m2form := bits forms 15 14
    pHi := fieldN bs 0x08 8, pLo := fieldN bs 0x10 8, gMant := fieldN bs 0x18 8, gExp := fieldN bs 0x20 8
    m1a := fieldN bs 0x28 8, m1b := fieldN bs 0x30 8, m2a := fieldN bs 0x38 8, m2b := fieldN bs 0x40 8
    tensor := BitVec.ofNat 32 (fieldN bs 0x48 4), tallyVid := bits tally 11 0, tallyEn := tally.testBit 15
    idxBase := fieldN bs 0x50 8
    ks := (List.range 8).map (fun i => BitVec.ofNat 32 (fieldN bs (0x60 + 4 * i) 4))
    reserved := forms.testBit 7 || forms.testBit 11 || decide (bits forms 31 16 ≠ 0) ||
      decide (bits tally 14 12 ≠ 0) || decide (bits tally 31 16 ≠ 0) || decide (fieldN bs 0x58 8 ≠ 0) }

/-- The sweep descriptor at an address (R127, R128). -/
def readSweepDesc (s : State) (addr : Nat) : SweepDesc :=
  let h := memRead s.mem addr 64
  let n := bits (fieldN h 0x08 4) 6 0
  let flags := fieldN h 0x0C 4
  let done := fieldN h 0x14 4
  let segs := (List.range (min n 64)).map (fun j => parseSegment (memRead s.mem (addr + 0x40 + 0x80 * j) 128))
  { addr := addr, step := fieldN h 0x00 6, segCount := fieldN h 0x08 4, clip := flags.testBit 0, skip := flags.testBit 1
    clipMax := BitVec.ofNat 32 (fieldN h 0x10 4), doneVid := bits done 11 0, doneEn := done.testBit 15
    journal := fieldN h 0x18 8, segs := segs
    crc := crc32c (memRead s.mem addr (0x40 + 0x80 * min n 64))
    reserved := decide (bits flags 31 2 ≠ 0) || decide (bits done 14 12 ≠ 0) || decide (bits done 31 16 ≠ 0) ||
      decide (fieldN h 0x20 32 ≠ 0) || decide (bits (fieldN h 0x00 8) 63 48 ≠ 0) }

/-! ## Chunks -/

/-- The home unit of a chunk by the address of its first P_HI byte (R118). -/
def homeUnit (a : Nat) : Nat := if a < hbmEnd then stackOf a else 16 + packageOf (a - lpBase) / 4

/-- Bytes of an element in the P_HI plane: 4 for FP32, 2 for the split form (R129). -/
def pWidth (g : Segment) : Nat := if g.pfmt = 3 then 4 else 2

/-- Chunks of a segment (R129). -/
def segChunks (g : Segment) : Nat := ceilDiv g.count 128

/-- The chunks of a segment whose home is unit u, in increasing order (R118, R137). -/
def unitChunks (g : Segment) (u : Nat) : List Nat :=
  (List.range (segChunks g)).filter (fun k => decide (homeUnit (g.pHi + pWidth g * 128 * k) = u))

/-- Elements of a block plane, padded to whole blocks (R27). -/
def padded (n : Nat) : Nat := 32 * ceilDiv n 32

/-- The planes of one moment of n elements: full, two planes of 2n bytes; compact, n padded bytes and an exponent plane (R128, R129). -/
def momentRanges (form a b n : Nat) : List (Nat × Nat) :=
  match form with
  | 1 => [(a, 2 * n), (b, 2 * n)]
  | 2 => [(a, padded n), (b, ceilDiv n 32)]
  | _ => []

/-- The ranges of a segment's parameter, gradient and moment planes (R128, R129). -/
def segRanges (g : Segment) : List (Nat × Nat) :=
  let n := g.count
  (if g.pfmt = 3 then [(g.pHi, 4 * n)] else [(g.pHi, 2 * n), (g.pLo, 2 * n)]) ++
  (match g.gfmt with
   | 0 => [(g.gMant, 2 * padded n), (g.gExp, ceilDiv n 32)]
   | 2 => [(g.gMant, 2 * n)]
   | _ => [(g.gMant, 4 * n)]) ++
  momentRanges g.m1form g.m1a g.m1b n ++ momentRanges g.m2form g.m2a g.m2b n

/-! ## The journal -/

/-- A 64-byte block with its CRC-32C in the last four bytes (R138, R139). -/
def withCheck (bs : List Byte) : List Byte := padTo 60 bs ++ bytesLE 4 (crc32c (padTo 60 bs))

/-- The journal header (R138). -/
def journalHeader (d : SweepDesc) (state : Nat) (closed : Bool) (g : Nat) (c : W32) : List Byte :=
  withCheck (bytesLE 8 d.step ++ bytesLE 8 d.addr ++ bytesLE 4 d.crc ++ bytesLE 4 state ++
    bytesLE 24 (if closed then g else 0) ++ bytesLE 4 c.toNat ++ bytesLE 4 (bit closed))

/-- A unit's journal record (R139). -/
def journalRecord (step : Nat) (u : UpdUnit) (state : Nat) : List Byte :=
  withCheck (bytesLE 8 step ++ bytesLE 4 u.seg ++ bytesLE 4 u.cursor ++ bytesLE 4 state ++ bytesLE 4 u.nonfin ++
    bytesLE 4 u.sat)

/-- An update unit by number. -/
def getUnit (s : State) (u : Nat) : UpdUnit := s.units[u]?.getD .idle

/-- Replace an update unit. -/
def setUnit (s : State) (u : Nat) (x : UpdUnit) : State := { s with units := s.units.setIfInBounds u x }

/-- A unit writes its journal record: STATE 0 RUNNING, 1 DONE, 2 FAULT (R139). -/
def writeRecord (s : State) (u state : Nat) : State :=
  match s.uc.sweep with
  | none => s
  | some w =>
    let x := getUnit s u
    setUnit { s with mem := memWrite s.mem (w.desc.journal + 0x40 + 0x40 * u) (journalRecord w.desc.step x state) } u
      { x with since := 0 }

/-- UC writes the journal header: STATE 1 RUNNING, 2 PARTIAL, 3 DONE, 4 FAILED (R138). -/
def writeHeader (s : State) (state : Nat) : State :=
  match s.uc.sweep with
  | none => s
  | some w =>
    let bs := journalHeader w.desc state s.uc.normClosed s.uc.normTotal s.uc.clip
    { s with mem := memWrite s.mem w.desc.journal bs }

/-- A unit stops at its chunk boundary: it writes its record and issues no further chunk (R137, R139, R142). -/
def stopUnit (s : State) (u : Nat) : State :=
  let x := getUnit s u
  if x.active && !x.stopped && !x.done then
    let s := writeRecord s u 0
    setUnit s u { getUnit s u with stopped := true }
  else s

/-- Whether every unit of the sweep has stopped or finished. -/
def allHalted (s : State) : Bool := s.units.toList.all (fun x => !x.active || x.stopped || x.done)

/-- The sweep becomes PARTIAL: UC writes the header, and the units leave it; the norm registers, and a wait for the norm, are kept
(R141, R142). -/
def sweepPartial (s : State) : State :=
  let s := writeHeader s 2
  { s with uc := { s.uc with sweepState := .partial_, sweep := none }
           units := s.units.map (fun x => { x with active := false }) }

/-- Stop a running sweep PARTIAL: every unit stops at its chunk boundary and writes its record (R141, R142, R314). -/
def stopSweep (s : State) : State :=
  if s.uc.sweepState = .running then sweepPartial ((List.range 20).foldl stopUnit s) else s

end Sys2Proof.Machine
end

