-- ==== Sys2Proof/Machine/Tally.lean ====
section
/-!
DEFINITION. Machine/Tally.lean: the shared operations of tallies and barriers (09_tallies.md, R230–R249).
-/
namespace Sys2Proof.Machine

/-! ## Translation -/

/-- The translation entry of a VID of a context (R231). -/
def getEntry (s : State) (ctx vid : Nat) : Entry := sparseGet .unmapped s.tly.table (ctx * 4096 + vid)

/-- A physical tally (R230). -/
def getTally (s : State) (p : Nat) : Tally := sparseGet .free s.tly.tallies p

/-- Replace a physical tally. -/
def setTally (s : State) (p : Nat) (t : Tally) : State :=
  { s with tly := { s.tly with tallies := sparseSet .free s.tly.tallies p t } }

/-- A barrier slot (R239). -/
def getSlot (s : State) (i : Nat) : BarSlot := s.tly.slots[i]?.getD .free

/-- Replace a barrier slot. -/
def setSlot (s : State) (i : Nat) (b : BarSlot) : State :=
  { s with tly := { s.tly with slots := s.tly.slots.setIfInBounds i b } }

/-! ## Errors (R249) -/

/-- Causes of TLY_ERR_INFO (R248): 0 unmapped, 1 wrong kind, 2 saturation, 3 not member, 4 early, 5 generation,
6 session loss. -/
def tallyErr (s : State) (b ctx vid module cause slot : Nat) : State :=
  let info := vid % 4096 + 4096 * (ctx % 16) + 2 ^ 16 * module + 2 ^ 24 * cause + 2 ^ 28 * slot
  let s := setReg (setErr s tallyPage b) tallyPage Reg.tlyErrInfo info
  emit s evTallyError tallyPage (bytesLE 8 info ++ [BitVec.ofNat 8 b])

/-- Source module of a local party in TLY_ERR_INFO (R248). -/
def localParty : Nat := 0xFF

/-! ## Messages -/

/-- Own module index (R364). -/
def selfModule (s : State) : Nat := getReg s mgmtPage Reg.vyvSelf % 256

/-- Whether the module belongs to a site (R364). -/
def inSite (s : State) : Bool := (getReg s mgmtPage Reg.vyvSelf).testBit 8

/-- A TALLY message (R355): OP, STATUS, VID, VALUE, TOKEN, COUNT, MODULE, then the header's context, STEP and ATTEMPT. -/
def tallyMsg (s : State) (op status vid value token count ctx : Nat) : OutMsg :=
  { kind := 0x28, data := []
    fields := [op, status, vid, value, token, count, selfModule s, ctx, s.uc.step.toNat, s.flt.attempt] }

/-- Send a message to the host: on the event sink's session, else on the first host session; with no session it waits
for one (log entry 20). -/
def toHost (s : State) (m : OutMsg) : State :=
  match s.sink.bind (hostSess s) with
  | some x => hostPush s x m
  | none =>
    match s.hostSessions with
    | x :: _ => hostPush s x m
    | [] => { s with hostHeld := s.hostHeld ++ [m] }

/-! ## Release of waiters -/

/-- The status a wait writes: 0 released, 1 ABANDONED (R173). -/
def statusWord (abandoned : Bool) : Word := if abandoned then 1 else 0

/-- Write a scalar register; s0 discards (R149). -/
def setSreg (c : Core) (r : Fin 32) (v : Word) : Core :=
  if r = 0 then c else { c with sregs := c.sregs.set r v }

/-- Read a scalar register; s0 reads zero (R149). -/
def sreg (c : Core) (r : Fin 32) : Word := if r = 0 then 0 else c.sregs[r]

/-- End the wait of a control core: the status goes to its register and the beat's instruction completes (R173). -/
def endWait (c : Core) (v : Word) : Core :=
  match c.run with
  | .waiting _ dst => { setSreg c dst v with run := .issuing }
  | _ => c

/-- Answer a waiter with a status and the count after release (R173, R234, R244). -/
def release (s : State) (w : Waiter) (abandoned : Bool) (count : Nat) : State :=
  let s := countReg s tallyPage (if abandoned then Reg.tlyAbandoned else Reg.tlyReleases) 1
  match w.src with
  | .core lh _ => modCore s lh (fun c => endWait c (statusWord abandoned))
  | .host token =>
    emit s evTallyRelease tallyPage
      (bytesLE 2 w.vid ++ [BitVec.ofNat 8 w.ctx, BitVec.ofNat 8 (bit abandoned)] ++ bytesLE 4 count ++ bytesLE 4 token.toNat)
  | .peer m token => nearSend s m w.ctx (tallyMsg s 4 (bit abandoned) w.vid 0 token.toNat count w.ctx)

/-- Answer a list of waiters. -/
def releaseAll (s : State) (ws : List Waiter) (abandoned : Bool) (count : Nat) : State :=
  ws.foldl (fun s w => release s w abandoned count) s

/-- Serve the consume queue: the head is released while its n is at most the count (R236). -/
def serveConsume : Nat → List Waiter → List (Waiter × Nat) → Nat × List Waiter × List (Waiter × Nat)
  | c, [], done => (c, [], done)
  | c, w :: ws, done => if w.n ≤ c then serveConsume (c - w.n) ws (done ++ [(w, c - w.n)]) else (c, w :: ws, done)

/-- Serve the queues of a tally after a change of its count (R236). -/
def serve (s : State) (p : Nat) : State :=
  let t := getTally s p
  let met := t.observe.filter (fun w => decide (w.n ≤ t.count))
  let left := t.observe.filter (fun w => decide (t.count < w.n))
  let (c, q, done) := serveConsume t.count t.consume []
  let s := setTally s p { t with count := c, observe := left, consume := q }
  let s := releaseAll s met false t.count
  done.foldl (fun s x => release s x.1 false x.2) s

/-- A signal of n at its physical tally: saturating addition, then the queues are served (R233, R234). -/
def signalAt (s : State) (p n ctx vid module : Nat) : State :=
  let t := getTally s p
  let s := countReg s tallyPage Reg.tlySignals 1
  let s := if 2 ^ 32 ≤ t.count + n then tallyErr s 1 ctx vid module 2 0 else s
  serve (setTally s p { t with count := satAdd 32 t.count n }) p

/-- An observe-wait at its physical tally (R234, R235). -/
def observeAt (s : State) (p : Nat) (w : Waiter) : State :=
  let t := getTally s p
  if w.n ≤ t.count then release s w false t.count
  else setTally s p { t with observe := t.observe ++ [w] }

/-- A consume-wait at its physical tally (R234, R235). -/
def consumeAt (s : State) (p : Nat) (w : Waiter) : State :=
  let t := getTally s p
  if w.n = 0 then release s w false t.count
  else if t.consume = [] ∧ w.n ≤ t.count then
    release (setTally s p { t with count := t.count - w.n }) w false (t.count - w.n)
  else setTally s p { t with consume := t.consume ++ [w] }

/-- Whether a waiter came from another module or the host. -/
def isRemote (w : Waiter) : Bool :=
  match w.src with
  | .core _ _ => false
  | _ => true

/-- Remote-waiter entries in use (R244). -/
def remoteWaiters (s : State) : Nat :=
  (s.tly.tallies.map (fun x => (x.2.observe.filter isRemote).length + (x.2.consume.filter isRemote).length)).sum

/-- The cause a wrong operation records: unmapped or wrong kind (R232, R248). -/
def kindCause (e : Entry) : Nat := if e.kind = .unmapped then 0 else 1

/-- Lose a signal to a module with no session (R245). -/
def loseSignal (s : State) (ctx vid module : Nat) : State :=
  tallyErr (countReg s tallyPage Reg.tlyRemoteLost 1) 5 ctx vid module 6 0

/-- Put an operation on its way to a bank (R237). -/
def enqueue (s : State) (m : TallyMsg) : State := { s with tly := { s.tly with msgs := s.tly.msgs ++ [m] } }

/-- Send a signal of n for a context: translated at issue, then on its way to its bank, to another module, or to the
host (R173, R232, R244). agent numbers the source. -/
def sendSignal (s : State) (lh : Option Lh) (agent ctx vid n beat : Nat) : State :=
  let e := getEntry s ctx vid
  match e.kind with
  | .local_ => enqueue s { op := .signal, lh := lh, dst := 0, ctx := ctx, vid := vid, phys := e.target, n := n
                           agent := agent, beat := beat }
  | .remote =>
    if nearUp s e.module then nearSend s e.module ctx (tallyMsg s 0 0 e.target n 0 0 ctx)
    else loseSignal s ctx vid e.module
  | .host => toHost s (tallyMsg s 0 0 e.target n 0 0 ctx)
  | _ => tallyErr s 0 ctx vid localParty (kindCause e) 0

/-- Source number of the signals of an agent that is not a control core. -/
def agentOf (k i : Nat) : Nat := 64 + 256 * k + i

/-! ## Barriers -/

/-- Release every waiter of a slot ABANDONED. -/
def abandonSlot (s : State) (i : Nat) : State :=
  let b := getSlot s i
  releaseAll (setSlot s i { b with waiters := [] }) (b.waiters.map (·.1)) true 0

/-- A slot becomes BROKEN (R243). -/
def breakSlot (s : State) (i : Nat) : State :=
  let s := abandonSlot s i
  let b := getSlot s i
  let s := setSlot s i { b with broken := true }
  emit s evBarrierBroken tallyPage
    ([BitVec.ofNat 8 i, BitVec.ofNat 8 (b.owner.getD 0)] ++ bytesLE 2 b.vid ++ bytesLE 4 b.gen)

/-- The members of a module mask other than this module. -/
def otherMembers (s : State) (mask : Nat) : List Nat :=
  (List.range 256).filter (fun m => mask.testBit m && decide (m ≠ selfModule s))

/-- Whether mask a covers mask b. -/
def covers (a b : Nat) : Bool := b &&& a == b

/-- Whether GEN of a slot is locally complete (R241). -/
def locallyComplete (b : BarSlot) : Bool := covers b.current b.hampers

/-- Serve a slot: tell the site members of a local completion, and complete GEN when its condition holds, at most n
times (R241, R242). -/
def serveSlot : Nat → State → Nat → State
  | 0, s, _ => s
  | n + 1, s, i =>
    let b := getSlot s i
    if !locallyComplete b || b.broken then s
    else
      let others := otherMembers s b.modules
      let tell := decide (b.modules ≠ 0) && !b.told
      let s := if tell then
          others.foldl (fun s m => nearSend s m (b.owner.getD 0) (tallyMsg s 3 0 b.vid b.gen 0 0 (b.owner.getD 0)))
            (setSlot s i { b with told := true })
        else s
      if b.modules = 0 ∨ others.all (fun m => b.peersCur.testBit m) then
        let now := (b.waiters.filter (fun w => decide (w.2 = b.gen))).map (·.1)
        let later := b.waiters.filter (fun w => decide (w.2 ≠ b.gen))
        let s := setSlot s i { b with gen := (b.gen + 1) % 2 ^ 32, current := b.next, next := 0
                                      peersCur := b.peersNext, peersNext := 0, told := false, waiters := later }
        serveSlot n (releaseAll s now false 0) i
      else s

/-- The result of an arrival: refused, or recorded for a generation (R240). -/
inductive ArriveResult where
  | refused
  | recorded (gen : Nat)
deriving DecidableEq, Repr

/-- Record an arrival of a party of HAMPERS at a slot (R240). -/
def recordArrival (s : State) (i party ctx vid : Nat) : State × ArriveResult :=
  let b := getSlot s i
  if b.broken then (s, .refused)
  else if !b.hampers.testBit party then (tallyErr s 2 ctx vid localParty 3 i, .refused)
  else if !b.current.testBit party then
    (setSlot s i { b with current := b.current ||| 2 ^ party }, .recorded b.gen)
  else if !b.next.testBit party then
    (setSlot s i { b with next := b.next ||| 2 ^ party }, .recorded ((b.gen + 1) % 2 ^ 32))
  else (tallyErr s 3 ctx vid localParty 4 i, .refused)

/-- A control core's arrival at a slot, with or without a wait (R240). -/
def arriveCore (s : State) (i : Nat) (lh : Lh) (dst : Fin 32) (wait : Bool) (ctx vid : Nat) : State :=
  let (s, r) := recordArrival s i lh ctx vid
  match r with
  | .refused =>
    if wait then release s { src := .core lh dst, n := 0, ctx := ctx, vid := vid } true 0
    else modCore s lh (fun c => endWait c 1)
  | .recorded g =>
    let s := if wait then
        (let b := getSlot s i
         setSlot s i { b with waiters := b.waiters ++ [({ src := .core lh dst, n := 0, ctx := ctx, vid := vid }, g)] })
      else modCore s lh (fun c => endWait c 0)
    serveSlot 3 s i

/-- The host's arrival at a slot, for bit 48 (R239, R240). -/
def arriveHost (s : State) (i ctx vid : Nat) : State :=
  let (s, _) := recordArrival s i 48 ctx vid
  serveSlot 3 s i

/-- A site member's arrival message for generation g (R242). -/
def arrivePeer (s : State) (i module g ctx vid : Nat) : State :=
  let b := getSlot s i
  if b.broken then s
  else if g = b.gen then serveSlot 3 (setSlot s i { b with peersCur := b.peersCur ||| 2 ^ module }) i
  else if g = (b.gen + 1) % 2 ^ 32 then
    if b.peersNext.testBit module then breakSlot (tallyErr s 3 ctx vid module 4 i) i
    else setSlot s i { b with peersNext := b.peersNext ||| 2 ^ module }
  else breakSlot (tallyErr s 4 ctx vid module 5 i) i

/-! ## Abandoning (R245) -/

/-- The physical tallies a context owns. -/
def talliesOf (s : State) (c : Nat) : List Nat :=
  (s.tly.tallies.filter (fun x => decide (x.2.owner = some c))).map (·.1)

/-- The barrier slots a context owns. -/
def slotsOf (s : State) (c : Nat) : List Nat :=
  (List.range 64).filter (fun i => decide ((getSlot s i).owner = some c))

/-- Release every waiter of a tally ABANDONED; its count stays. -/
def abandonTally (s : State) (p : Nat) : State :=
  let t := getTally s p
  releaseAll (setTally s p { t with observe := [], consume := [] }) (t.observe ++ t.consume) true t.count

/-- Return a tally to INIT, its waiters released ABANDONED (R233, R245, R305, R354). -/
def resetTally (s : State) (p : Nat) : State :=
  let s := abandonTally s p
  let t := getTally s p
  setTally s p { t with count := t.init }

/-- Return a slot to GEN 0 with empty masks and BROKEN clear, its waiters released ABANDONED (R245, R354). -/
def resetSlot (s : State) (i : Nat) : State :=
  let s := abandonSlot s i
  let b := getSlot s i
  setSlot s i { b with gen := 0, current := 0, next := 0, peersCur := 0, peersNext := 0, broken := false, told := false }

/-- Clear the masks of a slot and BROKEN, keeping GEN (R305). -/
def clearSlot (s : State) (i : Nat) : State :=
  let s := abandonSlot s i
  let b := getSlot s i
  setSlot s i { b with current := 0, next := 0, peersCur := 0, peersNext := 0, broken := false, told := false }

/-- Tell the members of a site barrier that this module abandons it (R245). -/
def tellAbandon (s : State) (i : Nat) : State :=
  let b := getSlot s i
  if b.modules = 0 then s
  else (otherMembers s b.modules).foldl
    (fun s m => nearSend s m (b.owner.getD 0) (tallyMsg s 5 0 b.vid 0 0 0 (b.owner.getD 0))) s

/-- The signals of a context still on their way, dropped and counted in TLY_REMOTE_LOST (R245). -/
def dropSignals (s : State) (c : Nat) : State :=
  let n := (s.tly.msgs.filter (fun m => decide (m.ctx = c) && decide (m.op = .signal))).length
  let s := { s with tly := { s.tly with msgs := s.tly.msgs.filter (fun m => decide (m.ctx ≠ c)) } }
  countReg s tallyPage Reg.tlyRemoteLost n

/-- Forget the remote waits of a control core: their answers find nobody (R179, R305). -/
def forgetSent (s : State) (lh : Nat) : State :=
  { s with tly := { s.tly with sent := s.tly.sent.filter (fun w => decide (w.lh.val ≠ lh)) } }

/-- Withdraw the wait and arrival requests of a control core that are still on their way or queued: its wait is
abandoned (R179, R245). -/
def withdrawWaits (s : State) (lh : Nat) : State :=
  let mine := fun (w : Waiter) => match w.src with
    | .core l _ => decide (l.val = lh)
    | _ => false
  { s with tly := { s.tly with
      msgs := s.tly.msgs.filter (fun m => !(decide (m.lh.map (·.val) = some lh) && decide (m.op ≠ .signal)))
      sent := s.tly.sent.filter (fun w => decide (w.lh.val ≠ lh))
      tallies := s.tly.tallies.foldl (fun l x => sparseSet .free l x.1
        { x.2 with observe := x.2.observe.filter (fun w => !mine w), consume := x.2.consume.filter (fun w => !mine w) })
        s.tly.tallies
      slots := s.tly.slots.map (fun b => { b with waiters := b.waiters.filter (fun w => !mine w.1) }) } }

/-- Loss of the session to a module (R245): remote waits sent to it are released ABANDONED, its slots break, and the
signals not acknowledged are counted. -/
def loseModule (s : State) (module lost : Nat) : State :=
  let mine := s.tly.sent.filter (fun w => decide (w.module = module))
  let s := { s with tly := { s.tly with sent := s.tly.sent.filter (fun w => decide (w.module ≠ module)) } }
  let s := mine.foldl (fun s w =>
      modCore (countReg s tallyPage Reg.tlyAbandoned 1) w.lh (fun c => endWait c 1)) s
  let s := countReg s tallyPage Reg.tlyRemoteLost lost
  let s := if lost ≠ 0 ∨ mine ≠ [] then tallyErr s 5 0 0 module 6 0 else s
  (List.range 64).foldl (fun s i =>
    let b := getSlot s i
    if b.owner.isSome && b.modules.testBit module && !b.broken then breakSlot s i else s) s

end Sys2Proof.Machine
end

