-- ==== Sys2Proof/Machine/Faults.lean ====
section
/-!
DEFINITION. Machine/Faults.lean: charging of failures to the seal (R121–R123), restarts and abandoned steps
(R304–R308), the windows of counted faults (R310–R312) and permanent faults (R314).
-/
namespace Sys2Proof.Machine

/-! ## Stopping the programs of a context -/

/-- The logical hampers that run a context. -/
def hampersOf (s : State) (c : Nat) : List Nat :=
  (List.range 48).filter (fun l => (getH s l).core.launched && decide ((getH s l).core.ctx = c))

/-- Whether the logical hamper's physical frames, engines and core work in phase with a window open. -/
def inWindow (c : Core) : Bool := c.window.isSome

/-- Stop the engine operations of a hamper at their next break points: passes at the row boundary reached (R67), vector
calls at the end of the group or row in progress (R114). The rest run to their end. -/
def stopEngines (h : Hamper) : Hamper :=
  { h with
    frames := h.frames.map (fun f => { f with passes := f.passes.map (fun p => { p with limit := Nat.min p.limit p.fed }) })
    vec := h.vec.map (fun v => { v with stop := true })
    core := { h.core with starts := [], stalled := [] } }

/-- Stop issue in a hamper: open windows and waits are abandoned; a waiter that queues at a tally or slot stays there until it is released
ABANDONED (steps 1 and 3 of R305, R245). -/
def stopIssue (s : State) (lh : Nat) : State :=
  let s := forgetSent s lh
  modH s lh (fun h =>
    let h := stopEngines h
    { h with core := { h.core with stopped := true, run := .idle, window := none, pend := []
                                   interlocked := false, sealBeat := none } })

/-- Stop every hamper of a context (step 1 of R305). -/
def stopContext (s : State) (c : Nat) : State := (hampersOf s c).foldl stopIssue s

/-- End the programs of a context: its cores are ended and what their engines still hold is dropped (R179, R435). -/
def endHamper (h : Hamper) : Hamper :=
  { h with core := { h.core with run := .idle, ended := true, stopped := false, window := none, pend := [], stores := []
                                 starts := [], stalled := [], interlocked := false, sealBeat := none }
           vec := [], rloads := [], stash := [], dma := [], writes := [], lines := []
           frames := h.frames.map (fun f => { f with passes := [], loads := [], turns := [], waves := [], lastPass := none }) }

/-! ## The seal -/

/-- UC forgets the requests and accumulators of an attempt, and a sweep held for the seal (R121–R123). -/
def discardAttempt (s : State) : State :=
  let held := s.uc.heldSweep.isSome
  let s := { s with uc := { s.uc with reqs := [], held := [], heldSweep := none, normPending := false } }
  setErrIf held s ucPage 1

/-- DATA of a seal event: step, attempt, context (the layout is the model's, log entry 21). -/
def sealData (s : State) (ctx : Nat) : List Byte :=
  bytesLE 8 s.uc.step.toNat ++ bytesLE 2 s.flt.attempt ++ [BitVec.ofNat 8 ctx]

/-- The replay domain: the modules other than this one that FLT_DOMAIN names (R308). -/
def domainOthers (s : State) : List Nat :=
  otherMembers s (getReg s faultPage Reg.fltDomain + 2 ^ 64 * getReg s faultPage (Reg.fltDomain + 8) +
    2 ^ 128 * getReg s faultPage (Reg.fltDomain + 16) + 2 ^ 192 * getReg s faultPage (Reg.fltDomain + 24))

/-- A NOTICE: TYPE, context, step, attempt (R357). -/
def noticeMsg (ty ctx step attempt : Nat) : OutMsg := { kind := 0x41, fields := [ty, ctx, step, attempt], data := [] }

/-- Send a notice to every other member of the replay domain (R308, R314). -/
def sendNotices (s : State) (ty ctx : Nat) : State :=
  (domainOthers s).foldl (fun s m => nearSend s m ctx (noticeMsg ty ctx s.uc.step.toNat s.flt.attempt)) s

/-- The replay point a restart at UC_STEP uses: the one that belongs to the step, or the launch's (R304). -/
def replayPoint (s : State) (c : Core) : Option ReplayPoint :=
  (c.points.find? (fun p => p.step == some s.uc.step)).orElse (fun _ => c.points.find? (fun p => p.step == none))

/-- The wall time of the replay point of the attempt: the earliest of the context's hampers (R304, R320). -/
def attemptNs (s : State) (c : Nat) : Nat :=
  (hampersOf s c).foldl (fun m l => match replayPoint s (getH s l).core with
    | some p => Nat.min m p.ns
    | none => m) s.clockNs

/-- Begin the restart of a step in a context, or abandon the step at the replay limit (R305, R307). A context whose tail runs toward a
pre-emption restarts when it is restored (R427, R434). -/
def beginRestart (s : State) (c goal : Nat) : State :=
  let limit := Nat.max 1 (getReg s faultPage Reg.fltReplayLimit % 256)
  let s := stopContext s c
  if (getCtx s c).stopAt.isSome && decide (s.flt.refusals < limit) then modCtx s c (fun x => { x with restartDue := true })
  else if limit ≤ s.flt.refusals then
    let s := emit (setErr s faultPage 0) evStepAbandoned faultPage (sealData s c)
    let s := (hampersOf s c).foldl (fun s l => modCore s l (fun k => { k with ended := true, stopped := false })) s
    modCtx s c (fun x => { x with launch := x.launch.map (fun l => { l with forced := true }) })
  else
    { s with flt := { s.flt with restart := some { ctx := c, goal := goal, fromNs := attemptNs s c } } }

/-- Refuse the open seal: REFUSED, the attempt discarded, notices sent, and the step restarted in the context that
issued the requests, or in the context of the failure when none has come yet (R122, R305, R308, log entry 22). -/
def refuseSeal (s : State) (ctx : Option Nat) (goal : Nat) (restart : Bool) : State :=
  let c := s.uc.owner.orElse (fun _ => ctx)
  let s := { s with uc := { s.uc with sealSt := .refused, owner := c, attempts := s.uc.attempts + 1 } }
  let s := countReg s ucPage Reg.ucSealRefusals 1
  let s := emit s evSealRefused ucPage (sealData s (c.getD 0))
  let s := discardAttempt s
  let s := sendNotices s 0 (c.getD 0)
  let s := { s with flt := { s.flt with refusals := s.flt.refusals + 1 } }
  match c with
  | some c => if restart && ctxRuns (getCtx s c) then beginRestart s c goal else s
  | none => s

/-- Withhold the open seal (R121, R122). -/
def withholdSeal (s : State) (ctx : Option Nat) : State :=
  let c := s.uc.owner.orElse (fun _ => ctx)
  let s := { s with uc := { s.uc with sealSt := .withheld, owner := c, attempts := s.uc.attempts + 1 } }
  discardAttempt (emit s evSealWithheld ucPage (sealData s (c.getD 0)))

/-- Charge a residue or shift-check failure to the step: it refuses an OPEN seal at once, and is charged to the next
step while SEALED (R122, R123). -/
def chargeSeal (s : State) (ctx : Option Nat) : State :=
  match s.uc.sealSt with
  | .open_ => refuseSeal s ctx (s.flt.attempt + 1) (!s.flt.replace)
  | .sealed => { s with uc := { s.uc with nextRefused := true, nextCtx := s.uc.nextCtx.orElse (fun _ => ctx) } }
  | _ => s

/-- Charge a stash error to the step (R88, R122). -/
def chargeStash (s : State) (ctx : Option Nat) : State :=
  match s.uc.sealSt with
  | .open_ => withholdSeal s ctx
  | .sealed => { s with uc := { s.uc with nextWithheld := true, nextCtx := s.uc.nextCtx.orElse (fun _ => ctx) } }
  | _ => s

/-! ## Counted faults and permanent faults -/

/-- Unit code of a hamper (R310). -/
def unitHamper (h : Nat) : Nat := h
/-- Unit code of an update unit (R310). -/
def unitUpdate (u : Nat) : Nat := 0x1000 + u
/-- Unit code of an HBM3E stack (R310). -/
def unitStack (i : Nat) : Nat := 0x2000 + i
/-- Unit code of an LPDDR5X package (R310). -/
def unitPackage (i : Nat) : Nat := 0x3000 + i
/-- Unit code of a bridge (R310). -/
def unitBridge (i : Nat) : Nat := 0x4000 + i
/-- Unit code of a gate (R310). -/
def unitGate (i : Nat) : Nat := 0x5000 + i
/-- Unit code of a SerDes lane (R310). -/
def unitLane (p l : Nat) : Nat := 0x6000 + 8 * p + l
/-- Unit code of a rambler (R310). -/
def unitRambler (i : Nat) : Nat := 0x7000 + i

/-- The pages a unit's FAULT flag shows in (R465). -/
def unitPages (u : Nat) : List Nat :=
  let i := u % 256
  match u / 0x1000 with
  | 0 => if i < 48 then (List.range 9).map (fun b => 0x100 + 0x10 * i + b) else []
  | 1 => if i < 20 then [updPage i] else []
  | 2 => if i < 16 then [hbmcPage i] else []
  | 3 => if i < 16 then [lpcPage i] else []
  | 7 => if i < 2 then [ramblerPage i] else []
  | _ => []

/-- Emit FAULT_COUNTED: unit code, count in the window, threshold (R311). -/
def faultCounted (s : State) (u count threshold : Nat) : State :=
  emit s evFaultCounted faultPage (bytesLE 2 u ++ bytesLE 2 count ++ bytesLE 2 threshold)

/-- A permanent fault: the module is flagged, the open seal is refused without a restart, the sweep of a failed unit
stops PARTIAL, every context stops, and the module drain runs until MODULE_DRAIN_COMPLETE (R314). kind is that of
FLT_CAUSE: 1 window reached, 2 memory exhausted, 3 unacknowledged unit, 4 charged by host (R321). -/
def permanentFault (s : State) (u kind : Nat) : State :=
  let s := setReg s faultPage Reg.fltCause (u + 2 ^ 16 * kind)
  let s := { s with flash := { s.flash with flag := some (u, kind), writes := s.flash.writes + 1 }
                    flt := { s.flt with replace := true, draining := true, causeUnit := u, causeKind := kind
                                        failed := if s.flt.failed.contains u then s.flt.failed else u :: s.flt.failed } }
  let s := (unitPages u).foldl (fun s p => setFlags s p { getFlags s p with fault := true }) s
  let s := emit s evModuleReplace faultPage (bytesLE 2 u ++ bytesLE 2 kind)
  let s := if s.uc.sealSt = .open_ then refuseSeal s none s.flt.attempt false else s
  let s := { s with flt := { s.flt with restart := none } }
  let s := if decide (u / 0x1000 = 1) && (getUnit s (u % 256)).active then stopSweep s else s
  (List.range 16).foldl (fun s c => if ctxRuns (getCtx s c) then stopContext s c else s) s

/-- The events of a unit within a window of w seconds (R311). -/
def inWindowCount (s : State) (u w : Nat) : Nat :=
  (s.flt.events.filter (fun e => decide (e.1 = u) && decide (clockSec s ≤ e.2 + w))).length

/-- Record a counted event in the flash and in its window (R311, R312). -/
def recordEvent (s : State) (u : Nat) : State :=
  let e := (u, clockSec s)
  { s with flt := { s.flt with events := s.flt.events ++ [e] }
           flash := { s.flash with faults := s.flash.faults ++ [e], writes := s.flash.writes + 1 } }

/-- Count a failure of a hamper, update unit, bridge, gate or rambler in its 24 h window; the third is permanent
(R311). kind is the FLT_CAUSE kind of the permanent fault. -/
def countFaultAs (s : State) (u kind : Nat) : State :=
  let s := recordEvent s u
  let n := inWindowCount s u 86400
  let s := faultCounted s u n 3
  if 3 ≤ n && !s.flt.failed.contains u then permanentFault s u kind else s

/-- Count a failure found by the module's own checks (R311). -/
def countFault (s : State) (u : Nat) : State := countFaultAs s u 1

/-- A fault whose first event is permanent (R311). -/
def countPermanent (s : State) (u kind : Nat) : State :=
  permanentFault (faultCounted (recordEvent s u) u 1 1) u kind

/-- A residue, load-check, shift-check or parity failure of a unit while it worked for a context: charged to the step
and counted against the unit (R300, R311). -/
def residueFailure (s : State) (u : Nat) (ctx : Option Nat) : State := countFault (chargeSeal s ctx) u

/-- A residue failure of the physical hamper under a logical hamper. -/
def hamperFailure (s : State) (lh : Nat) : State :=
  residueFailure s (unitHamper (physOf s lh)) (some (getH s lh).core.ctx)

/-- A load-check failure (R301). -/
def loadCheckFailure (s : State) (lh : Nat) : State :=
  hamperFailure (countReg s faultPage Reg.fltLoadChecks 1) lh

end Sys2Proof.Machine
end

