-- ==== Sys2Proof/Machine/Memory.lean ====
section
/-!
DEFINITION. Machine/Memory.lean: what the memory controllers add to a read or a write: codes, poison, row tracking, retirement
and repair (10_memory_tiers.md, R257–R274).
-/
namespace Sys2Proof.Machine

/-! ## Controllers and units -/

/-- The controller of a device address: HBM3E stack or LPDDR5X package, and its number (R251, R253). -/
def ctlOf (a : Nat) : Bool × Nat := if a < hbmEnd then (true, stackOf a) else (false, packageOf (a - lpBase))

/-- A controller. -/
def getCtl (s : State) (c : Bool × Nat) : MemCtl := ((if c.1 then s.hbm else s.lpc)[c.2]?).getD .reset

/-- Replace a controller. -/
def setCtl (s : State) (c : Bool × Nat) (m : MemCtl) : State :=
  if c.1 then { s with hbm := s.hbm.setIfInBounds c.2 m } else { s with lpc := s.lpc.setIfInBounds c.2 m }

/-- The page of a controller. -/
def ctlPage (c : Bool × Nat) : Nat := if c.1 then hbmcPage c.2 else lpcPage c.2

/-- The unit code of a controller's memory (R310). -/
def ctlUnit (c : Bool × Nat) : Nat := if c.1 then unitStack c.2 else unitPackage c.2

/-- Bytes of an access unit: 32 in HBM3E, 64 in LPDDR5X (R260). -/
def unitSize (hbm : Bool) : Nat := if hbm then 32 else 64

/-- First address of the access unit that holds a. -/
def unitAddr (a : Nat) : Nat := a / unitSize (decide (a < hbmEnd)) * unitSize (decide (a < hbmEnd))

/-- The row of a device address within its controller (R252, R253). -/
def ctlRow (a : Nat) : Nat := if a < hbmEnd then rowKey a else lpRowKey (a - lpBase)

/-- The pseudo-channel of a row key of a stack. -/
def rowPc (k : Nat) : Nat := k / 24576 / 64

/-- Every poisoned unit of the module with its size. -/
def poisonUnits (s : State) : List (Nat × Nat) :=
  s.hbm.toList.flatMap (fun m => m.poison.map (fun u => (u, 32))) ++ s.lpc.toList.flatMap (fun m => m.poison.map (fun u => (u, 64)))

/-- Whether a read of n bytes from a meets a poisoned unit, and so receives residue 127 (R260). -/
def poisoned (s : State) (a n : Nat) : Bool := (poisonUnits s).any (fun u => decide (u.1 < a + n) && decide (a < u.1 + u.2))

/-- A write of n bytes from a takes the units it covers whole out of the poison lists (R260). -/
def clearPoison (s : State) (a n : Nat) : State :=
  let keep := fun (size u : Nat) => !(decide (a ≤ u) && decide (u + size ≤ a + n))
  { s with hbm := s.hbm.map (fun m => { m with poison := m.poison.filter (keep 32) })
           lpc := s.lpc.map (fun m => { m with poison := m.poison.filter (keep 64) }) }

/-- A write to device memory or the pantry. -/
def storeBytes (s : State) (a : Nat) (bs : List Byte) : State :=
  clearPoison { s with mem := memWrite s.mem a bs } a bs.length

/-! ## Requesters -/

/-- The page that shows a requester's out-of-map errors (R12, R459). -/
def rqPage (s : State) : Requester → Nat
  | .hamper lh => hamPage s lh 0
  | .unit u => updPage u
  | .rambler d => ramblerPage d
  | _ => mgmtPage

/-- The bridge or gate on whose far side traffic of another requester than a hamper, unit or rambler arose (R310, R311). -/
def crossing (a : Nat) : Nat :=
  match regionOf a with
  | .hbm => unitBridge (4 + dieOfHbm a)
  | .pantry => unitBridge (4 + (a - pantryBase) / pantryStride / 12)
  | _ => unitGate (packageOf (a - lpBase) / 8)

/-- A requester whose data fails a residue check (R258, R260, R300, R311): a hamper's work is charged to the seal and counted; an
update unit acts under R137. -/
def requesterFailure (s : State) (rq : Requester) (a : Nat) : State :=
  match rq with
  | .hamper lh => hamperFailure s lh
  | .unit _ => s
  | .rambler d => residueFailure s (unitRambler d) none
  | _ => residueFailure s (crossing a) none

/-! ## Retirement (R262–R266) -/

/-- Larder slots in use by every stack, migrations included. -/
def larderUsed (s : State) : List Nat :=
  s.hbm.toList.flatMap (fun m => m.pcs.map (·.2) ++ (m.migrating.map (·.2)).toList)

/-- The lowest free larder slot (R264). -/
def larderFree (s : State) : Option Nat := (List.range 8).find? (fun k => !(larderUsed s).contains k)

/-- A retirement with no larder slot, or no spare row (R265). -/
def refugeFull (s : State) (c : Nat) : State := countPermanent (setErr s (hbmcPage c) 3) (unitStack c) 2

/-- Begin to retire a pseudo-channel of a stack into the larder; the flash is written first (R264, R265, R267). -/
def retirePc (s : State) (c p : Nat) : State :=
  match larderFree s with
  | none => refugeFull s c
  | some k =>
    let m := getCtl s (true, c)
    let s := setCtl s (true, c) { m with migrating := some (p, k) }
    { s with flash := { s.flash with pcs := s.flash.pcs ++ [(c, p, k)], writes := s.flash.writes + 1 } }

/-- Rows of a pseudo-channel retired to spares (R263, R271). -/
def pcRows (m : MemCtl) (p : Nat) : Nat := m.spares.countP (fun k => rowPc k == p)

/-- Begin to retire a row of a stack: into a spare row, or with its pseudo-channel when four rows of that are retired (R263, R264). -/
def retireRow (s : State) (c row : Nat) : State :=
  let m := getCtl s (true, c)
  let bankSpares := m.spares.countP (fun k => k / 24576 == row / 24576)
  if 4 ≤ pcRows m (rowPc row) then retirePc s c (rowPc row)
  else if 4 ≤ bankSpares then refugeFull s c
  else setCtl s (true, c) { m with rowCopy := some row }

/-- A row of a stack is retired: an event counted against the stack for its pseudo-channel (R311). -/
def retireCounted (s : State) (c row : Nat) : State :=
  retireRow (faultCounted s (unitStack c) (pcRows (getCtl s (true, c)) (rowPc row) + 1) 5) c row

/-- Errors of a tracked row in the last 3,600 s. -/
def rowCount (l : List RowTrack) (row now : Nat) : Nat :=
  match l.find? (fun r => r.row == row) with
  | some r => r.times.countP (fun t => decide (now ≤ t + 3600))
  | none => 0

/-- Begin to repair a row of a package, or retire its channel when it has no repair left (R266). -/
def repairRow (s : State) (c row : Nat) : State :=
  let m := getCtl s (false, c)
  let j := row / 262144 / 32
  if m.repairsLeft[j]?.getD 0 = 0 then
    let s := setCtl s (false, c) { m with chansRetired := if m.chansRetired.contains j then m.chansRetired else j :: m.chansRetired }
    let s := emit (setErr s (lpcPage c) 3) evChannelRetired (lpcPage c) [BitVec.ofNat 8 c, BitVec.ofNat 8 j]
    countPermanent s (unitPackage c) 2
  else setCtl s (false, c) { m with repairing := some (j, row) }

/-- Whether a copy or repair keeps a controller from starting another. -/
def ctlBusy (m : MemCtl) : Bool := m.rowCopy.isSome || m.migrating.isSome || m.repairing.isSome

/-- The latest time of an entry. -/
def lastTime (r : RowTrack) : Nat := r.times.getLast?.getD 0

/-- The entry whose latest error is oldest. -/
def oldestTrack : List RowTrack → Option RowTrack
  | [] => none
  | r :: t => match oldestTrack t with
    | none => some r
    | some q => if lastTime q < lastTime r then some q else some r

/-- Track a correctable error of a row at time t: an entry keeps its last 17 times, and a new row takes the entry whose latest error is
oldest when all 512 are in use (R262). -/
def trackRow (l : List RowTrack) (row t : Nat) : List RowTrack :=
  match l.find? (fun r => r.row == row) with
  | some r =>
    let ts := r.times ++ [t]
    l.map (fun q => if q.row = row then { r with times := ts.drop (ts.length - 17) } else q)
  | none =>
    let l := if l.length < 512 then l
      else match oldestTrack l with
        | some o => l.filter (fun q => q.row != o.row)
        | none => l
    l ++ [{ row := row, times := [t] }]

/-- Whether a row is due: its 17th error falls within 3,600 s of the first of those 17 (R262). -/
def rowDue (l : List RowTrack) (row : Nat) : Bool :=
  match l.find? (fun r => r.row == row) with
  | some r => r.times.length == 17 && decide (lastTime r ≤ r.times.headD 0 + 3600)
  | none => false

/-- The row-tracking entries of a controller that the flash holds (R312). -/
def flashTrack (s : State) (c : Bool × Nat) : List RowTrack := ((s.flash.tracks.find? (fun x => x.1 == c)).map (·.2)).getD []

/-- Write the time of a row's error to the flash; a row that is retired leaves its entry (R262, R312). -/
def logRow (s : State) (c : Bool × Nat) (row : Nat) (due : Bool) : State :=
  let l := trackRow (flashTrack s c) row (clockSec s)
  let l := if due then l.filter (fun r => r.row != row) else l
  { s with flash := { s.flash with tracks := (c, l) :: s.flash.tracks.filter (fun x => x.1 != c), writes := s.flash.writes + 1 } }

/-! ## Errors of a read (R259, R260) -/

/-- A correctable error at a device address: counted for the page and for its row, which may fall due (R259, R262). A row that falls
due while the controller copies or repairs another waits for its next error (log entry 30). -/
def correctable (s : State) (a : Nat) : State :=
  let c := ctlOf a
  let page := ctlPage c
  let s := countReg s page (if c.1 then Reg.hbmCe else Reg.lpcCe) 1
  let s := setReg s page (if c.1 then Reg.hbmLastCeAddr else Reg.lpcLastCeAddr) (unitAddr a)
  let m := getCtl s c
  let row := ctlRow a
  if c.1 && m.pcs.any (fun x => x.1 == pcOf a) then s
  else
    let track := trackRow m.track row (clockSec s)
    let due := rowDue track row && !ctlBusy m
    let s := logRow s c row due
    let s := if c.1 then faultCounted s (unitStack c.2) (rowCount track row (clockSec s)) 17 else s
    if due then
      let s := setCtl s c { m with track := track.filter (fun r => r.row != row) }
      if c.1 then retireCounted s c.2 row else repairRow s c.2 row
    else setCtl s c { m with track := track }

/-- Enter a unit in its controller's poison list, or set POISON_FULL, which is a permanent fault (R260, R311). -/
def poison (s : State) (a : Nat) : State :=
  let c := ctlOf a
  let m := getCtl s c
  if m.poison.contains (unitAddr a) then s
  else if m.poison.length < 64 then setCtl s c { m with poison := m.poison ++ [unitAddr a] }
  else countPermanent (setErr s (ctlPage c) 2) (ctlUnit c) 2

/-- An uncorrectable error at a device address (R260). -/
def uncorrectable (s : State) (a : Nat) : State :=
  let c := ctlOf a
  let page := ctlPage c
  let s := countReg s page (if c.1 then Reg.hbmUe else Reg.lpcUe) 1
  let s := setReg s page (if c.1 then Reg.hbmLastUeAddr else Reg.lpcLastUeAddr) (unitAddr a)
  let s := emit (setErr s page 0) evMemoryUe page (bytesLE 8 (unitAddr a))
  poison s a

/-- What an access finds, with an error armed at its unit by HBM_INJECT or LPC_INJECT used up (R270, R273). -/
def injected (s : State) (a : Nat) (ecc : Ecc) : State × Ecc :=
  let c := ctlOf a
  let page := ctlPage c
  let off := if c.1 then Reg.hbmInject else Reg.lpcInject
  let v := getReg s page off
  if getReg s page (if c.1 then Reg.hbmInjectAddr else Reg.lpcInjectAddr) ≠ unitAddr a then (s, ecc)
  else if v.testBit 1 then (setReg s page off (setBits v 1 1 0), .uncorrectable)
  else if v.testBit 0 then (setReg s page off (setBits v 0 0 0), match ecc with
    | .clean => .corrected
    | e => e)
  else (s, ecc)

/-- The controller's part of a read of the unit at a device address (R259, R260). -/
def ctlRead (s : State) (a : Nat) (ecc : Ecc) : State :=
  let (s, ecc) := injected s a ecc
  match ecc with
  | .clean => s
  | .corrected => correctable s a
  | .uncorrectable => uncorrectable s a

/-- The controllers of the module. -/
def allCtls : List (Bool × Nat) := (List.range 32).map (fun i => (decide (i < 16), i % 16))

/-- The unit of a controller at which an error is armed by a bit of HBM_INJECT or LPC_INJECT that `arm` accepts (R270, R273). -/
def armedUnit (s : State) (arm : Nat → Bool) (c : Bool × Nat) : Option Nat :=
  let x := getReg s (ctlPage c) (if c.1 then Reg.hbmInjectAddr else Reg.lpcInjectAddr)
  if arm (getReg s (ctlPage c) (if c.1 then Reg.hbmInject else Reg.lpcInject)) && decide (ctlOf x = c) then some x else none

/-- The armed units that an access of n bytes from a reaches. -/
def armedUnits (s : State) (arm : Nat → Bool) (a n : Nat) : List Nat :=
  (allCtls.filterMap (armedUnit s arm)).filter (fun x => decide (unitAddr a ≤ x) && decide (x < a + n))

/-- Whether an injection word arms an error of a read. -/
def armsRead (v : Nat) : Bool := v.testBit 0 || v.testBit 1

/-- What a read of n bytes from a meets of the errors armed by injection, unit by unit (R270, R273). -/
def armedReads (s : State) (a n : Nat) : State := (armedUnits s armsRead a n).foldl (fun s x => ctlRead s x .clean) s

/-- The same for a read of any region: only device memory has such errors. -/
def readErrors (s : State) (a n : Nat) : State := if deviceRangeOk a n then armedReads s a n else s

/-- MEMORY_READ (R259, R260): the bytes go to the requester; one that receives residue 127 fails its check. -/
def execMemoryRead (rq : Requester) (addr : Addr) (len : Nat) (ecc : Ecc) (s : State) : Host.Outcome State Fault Refusal :=
  let a := addr.toNat
  .next (
    if deviceRangeOk a len then
      let s := { armedReads (ctlRead s a ecc) a len with answer := memRead s.mem a len }
      if poisoned s a len then requesterFailure s rq a else s
    else if pantryRangeOk s a len then
      let s := { s with answer := memRead s.mem a len }
      if ecc = .uncorrectable then requesterFailure s rq a else s
    else setErr { s with answer := List.replicate len 0 } (rqPage s rq) errOutOfMap)

/-- Whether an injection word arms a failed check of a write. -/
def armsWrite (v : Nat) : Bool := v.testBit 2

/-- WRITE armed at a unit is used up (R270, R273). -/
def useWrite (s : State) (x : Nat) : State :=
  let c := ctlOf x
  let off := if c.1 then Reg.hbmInject else Reg.lpcInject
  setReg s (ctlPage c) off (setBits (getReg s (ctlPage c) off) 2 2 0)

/-- Whether WRITE is armed at a unit that a write of n bytes from a reaches, and the state with it used up (R270, R273). -/
def injectedWrite (s : State) (a n : Nat) : Bool × State :=
  let xs := armedUnits s armsWrite a n
  (!xs.isEmpty, xs.foldl useWrite s)

/-- A failed write check: counted and reported to the requester (R258). -/
def writeCheck (s : State) (rq : Requester) (a : Nat) : State :=
  let c := ctlOf a
  let s := countReg s (ctlPage c) (if c.1 then Reg.hbmWriteChecks else Reg.lpcWriteChecks) 1
  requesterFailure (setErr s (ctlPage c) 1) rq a

/-- A write of bytes whose words of badWords carry wrong residues (R258). -/
def checkedWrite (s : State) (rq : Requester) (a : Nat) (bs : List Byte) (badWords : List Nat) : State :=
  if deviceRangeOk a bs.length then
    let (inj, s) := injectedWrite s a bs.length
    let s := storeBytes s a bs
    if inj || !badWords.isEmpty then writeCheck s rq a else s
  else if pantryRangeOk s a bs.length then
    let s := storeBytes s a bs
    if badWords.isEmpty then s else requesterFailure s rq a
  else setErr s (rqPage s rq) errOutOfMap

/-- MEMORY_WRITE (R258). -/
def execMemoryWrite (rq : Requester) (addr : Addr) (data : List Byte) (badWords : List Nat) (s : State) :
    Host.Outcome State Fault Refusal :=
  .next (checkedWrite s rq addr.toNat data badWords)

/-! ## Scrub (R261) -/

/-- Access units of a controller's tier range. -/
def scrubUnits (hbm : Bool) : Nat := if hbm then 9 * 2 ^ 27 else 2 ^ 30

/-- The device address of access unit i of a controller, in address order (R251, R253). -/
def scrubAddr (hbm : Bool) (c i : Nat) : Nat :=
  if hbm then (i / 2 ^ 27) * 2 ^ 36 + c * 2 ^ 32 + (i % 2 ^ 27) * 32
  else lpBase + (i / 4) * 4096 + c * 256 + (i % 4) * 64

/-- SCRUB (R261): the next unit is read; the model's memory holds corrected data, so a write-back, skipped or not, changes none. -/
def execScrub (hbm : Bool) (ctl : Fin 16) (ecc : Ecc) (_overwritten : Bool) (s : State) : Host.Outcome State Fault Refusal :=
  let c : Bool × Nat := (hbm, ctl)
  let m := getCtl s c
  let s := setCtl s c { m with scrubbing := true, scrubPos := (m.scrubPos + 1) % scrubUnits hbm, scrubDone := m.scrubDone + 1 }
  .next (ctlRead s (scrubAddr hbm ctl m.scrubPos) ecc)

/-! ## Ends of copies and repairs -/

/-- Add device-induced loss (R320). -/
def addLoss (s : State) (ns : Nat) : State := countReg s faultPage Reg.fltLossNs ns

/-- Add a stall time the spec leaves open (R320, log entry 3). -/
def addStall (s : State) : State :=
  let (n, s) := draw s
  addLoss s n

/-- ROW_COPY_COMPLETE (R263, R267): the flash is written, the row is served from the spare, and ROW_RETIRED is emitted. -/
def execRowCopyComplete (ctl : Fin 16) (s : State) : Host.Outcome State Fault Refusal :=
  let m := getCtl s (true, ctl)
  .next (match m.rowCopy with
    | none => s
    | some row =>
      let s := setCtl s (true, ctl) { m with rowCopy := none, spares := m.spares ++ [row] }
      let s := { s with flash := { s.flash with rows := s.flash.rows ++ [(ctl.val, row)], writes := s.flash.writes + 1 } }
      emit (addStall s) evRowRetired (hbmcPage ctl)
        ([BitVec.ofNat 8 ctl, BitVec.ofNat 8 (rowPc row), BitVec.ofNat 8 (row / 24576 % 64), 0] ++ bytesLE 4 (row % 24576)))

/-- LARDER_COPY_COMPLETE (R264): units found uncorrectable in the copy stay poisoned. -/
def execLarderCopyComplete (ctl : Fin 16) (bad : List Nat) (s : State) : Host.Outcome State Fault Refusal :=
  let m := getCtl s (true, ctl)
  .next (match m.migrating with
    | none => s
    | some (p, k) =>
      let s := setCtl s (true, ctl) { m with migrating := none, pcs := m.pcs ++ [(p, k)] }
      let mine := bad.filter (fun a => decide (a < hbmEnd) && stackOf a == ctl && pcOf a == p)
      let s := mine.foldl uncorrectable s
      emit (addStall s) evPcRetired (hbmcPage ctl) [BitVec.ofNat 8 ctl, BitVec.ofNat 8 p, BitVec.ofNat 8 k])

/-- REPAIR_COMPLETE (R266, R274): the repair is permanent in the package, and ROW_RETIRED names package, channel and row. -/
def execRepairComplete (ctl : Fin 16) (s : State) : Host.Outcome State Fault Refusal :=
  let m := getCtl s (false, ctl)
  .next (match m.repairing with
    | none => s
    | some (j, row) =>
      let left := m.repairsLeft.toList.zipIdx.map (fun x => if x.2 = j then x.1 - 1 else x.1)
      let s := setCtl s (false, ctl)
        { m with repairing := none, spares := m.spares ++ [row], repairsLeft := Vector.ofFn (fun i => left.getD i.val 0) }
      let s := countReg s (lpcPage ctl) Reg.lpcRepairs 1
      emit s evRowRetired (lpcPage ctl) ([BitVec.ofNat 8 ctl, BitVec.ofNat 8 j, 0, 0] ++ bytesLE 4 (row % 262144)))

/-! ## Register behaviours and views -/

/-- A write of HBM_RETIRE_ROW (R270): refused for an address outside the stack or during a copy; the larder's
rows are none of the stack's (log entry 31). -/
def hbmRetireRow (s : State) (c a : Nat) : State :=
  let m := getCtl s (true, c)
  if hbmEnd ≤ a ∨ stackOf a ≠ c ∨ m.rowCopy.isSome ∨ m.migrating.isSome ∨
      m.pcs.any (fun x => x.1 == pcOf a) then setErr s (hbmcPage c) 4
  else retireCounted s c (rowKey a)

/-- HBM_STATE (R270). -/
def hbmState (m : MemCtl) : Nat :=
  bit m.trained + 2 * bit m.scrubbing + 4 * bit m.rowCopy.isSome + 8 * bit m.migrating.isSome +
  16 * ((m.migrating.map (·.1)).getD 0)

/-- HBM_PC_INFO of pseudo-channel p (R271). -/
def hbmPcInfo (m : MemCtl) (p : Nat) : Nat :=
  let slot := match m.pcs.find? (fun x => x.1 == p), m.migrating with
    | some x, _ => x.2
    | none, some (q, k) => if q = p then k else 0
    | none, none => 0
  bit (m.pcs.any (fun x => x.1 == p)) + 2 * bit (decide (m.migrating.map (·.1) = some p)) + 4 * slot + 256 * pcRows m p

/-- HBM_PC_RETIRED (R270). -/
def hbmPcRetired (m : MemCtl) : Nat := m.pcs.foldl (fun v x => v ||| 2 ^ x.1) 0

/-- LPC_STATE (R273). -/
def lpcState (m : MemCtl) : Nat :=
  bit m.trained + 2 * bit m.scrubbing + 4 * bit m.repairing.isSome + 8 * ((m.repairing.map (·.1)).getD 0) +
  32 * (m.chansRetired.foldl (fun v j => v ||| 2 ^ j) 0)

/-- LPC_REPAIRS_LEFT (R273). -/
def lpcRepairsLeft (m : MemCtl) : Nat := (m.repairsLeft.toList.zipIdx.map (fun x => x.1 * 16 ^ x.2)).sum

end Sys2Proof.Machine
end

