-- ==== Sys2Proof/Machine/Arbiter.lean ====
section
/-!
DEFINITION. Machine/Arbiter.lean: the arbiters of the shared resources (13_arbitration.md, R323–R336).
-/
namespace Sys2Proof.Machine

/-! ## Arbiters and their registers (R324, R336) -/

/-- The page that configures an arbiter: 16 HBM3E controllers, 16 LPDDR5X controllers, 24 open-plane arbiters, 2 wide ports. -/
def arbPage (a : Nat) : Nat :=
  if a < 16 then hbmcPage a else if a < 32 then lpcPage (a - 16) else if a < 56 then mgmtPage else portPage (a - 56)

/-- The arbiters a page configures. -/
def arbsOf (page : Nat) : List Nat := (List.range 58).filter (fun a => arbPage a == page)

/-- The bank of an arbiter's own counters. -/
def arbBank (a : Nat) : Nat := 0x2400 + a

/-- An arbiter. -/
def getArb (s : State) (a : Nat) : Arb := s.arbs[a]?.getD .reset

/-- Replace an arbiter. -/
def setArb (s : State) (a : Nat) (x : Arb) : State := { s with arbs := s.arbs.setIfInBounds a x }

/-- WINDOW of a value of ARB_WINDOW; a smaller value is taken as 64 (R336). -/
def windowOf (v : Nat) : Nat := Nat.max 64 (v % 1024)

/-- CATCHUP of a value of ARB_WINDOW (R336). -/
def catchupOf (v : Nat) : Nat := bits v 23 16

/-- The settings of a class as the registers of a page hold them (R336). -/
def arbClassOf (s : State) (page c : Nat) : ArbClass :=
  let p := getReg s page (Reg.arbPrio + 4 * c)
  ⟨p.testBit 0, bits p 15 8, getReg s page (Reg.arbClass + 4 * c) % 256⟩

/-- Whether a class is in park mode (R325). -/
def parkMode (c : Nat) : Bool := decide (3 ≤ c)

/-- Whether settings meet the conditions of R328. -/
def arbValid (win catchup : Nat) (cs : List ArbClass) : Bool :=
  let q := (cs.map (fun c => if c.high then c.quota else 0)).sum
  let w := (cs.map (fun c => if c.high then 0 else c.weight)).sum
  decide (q + w + catchup ≤ win) && decide (2 * q ≤ win)

/-- Set a bit of ARB_ERR, and emit ARB_ERROR (R336): the bits set. -/
def arbError (s : State) (page b : Nat) : State :=
  emit (setReg s page Reg.arbErr (getReg s page Reg.arbErr ||| 2 ^ b)) evArbError page (bytesLE 4 (2 ^ b))

/-- A write of ARB_WINDOW, ARB_CLASSc or ARB_PRIOc (R328): ignored with CONFIG when it would break a condition. -/
def arbConfig (s : State) (page off v : Nat) : State :=
  let t := setReg s page off v
  let w := getReg t page Reg.arbWindow
  if arbValid (windowOf w) (catchupOf w) ((List.range 10).map (arbClassOf t page)) then t else arbError s page 0

/-- Whether an offset is one of the registers of R328. -/
def arbConfigReg (off : Nat) : Bool :=
  off == Reg.arbWindow || (decide (Reg.arbClass ≤ off) && decide (off < Reg.arbClass + 40)) ||
  (decide (Reg.arbPrio ≤ off) && decide (off < Reg.arbPrio + 40))

/-- The value a write leaves in a register of R336: PARK and reserved fields are not written. -/
def arbConfigVal (off v : Nat) : Nat :=
  if off = Reg.arbWindow then v % 1024 + 65536 * bits v 23 16
  else if off < Reg.arbPrio then v % 256
  else v % 2 + 256 * bits v 15 8

/-- A write to an arbiter's configuration by its access code. -/
def arbConfigWrite (s : State) (page off v : Nat) : State :=
  if Reg.arbPrio ≤ off then expertOnly s page (fun s => arbConfig s page off (arbConfigVal off v))
  else arbConfig s page off (arbConfigVal off v)

/-- ARB_CONFIG_WRITE (R328): a write to one of the registers named there in a page that holds an arbiter block. -/
def execArbConfigWrite (page off : Nat) (value : W32) (s : State) : Host.Outcome State Fault Refusal :=
  .next (if !(arbsOf page).isEmpty && arbConfigReg off && off % 4 == 0 then arbConfigWrite s page off value.toNat else s)

/-! ## Arbitration (R326, R327, R330, R331, R333) -/

/-- Whether a controller's scrub is more than 1 % of a pass behind its schedule (R261, R330). -/
def scrubBehind (s : State) (a : Nat) : Bool :=
  if 32 ≤ a then false
  else
    let hbm := decide (a < 16)
    let m := if hbm then s.hbm[a]?.getD .reset else s.lpc[a - 16]?.getD .reset
    let hours := Nat.max 1 (getReg s (arbPage a) (if hbm then Reg.hbmScrubHours else Reg.lpcScrubHours) % 256)
    let units := scrubUnits hbm
    let due := (s.clockNs - s.power.startNs) * units / (hours * 3600000000000)
    decide (m.scrubDone + units / 100 < due)

/-- The weight of a class at a window start: SCRUB takes CATCHUP while it is behind (R330). -/
def startWeight (behind : Bool) (catchup : Nat) (c : ArbClass × Nat) : Int :=
  if c.2 = 9 && behind then catchup else c.1.weight

/-- A window start (R326): configuration, credits, grant counts and masks, in this order. -/
def windowStart (s : State) (a : Nat) (x : Arb) : Arb :=
  let page := arbPage a
  let w := getReg s page Reg.arbWindow
  let cs := (List.range 10).map (arbClassOf s page)
  let behind := scrubBehind s a
  { x with window := windowOf w, catchup := catchupOf w, classes := cs, behind := behind, served := 0
           credit := cs.zipIdx.map (fun c => if c.1.high then 0 else startWeight behind (catchupOf w) c)
           granted := List.replicate 10 0, masked := List.replicate 10 false }

/-- The settings of a class in the current window. -/
def Arb.cls (x : Arb) (c : Nat) : ArbClass := x.classes.getD c ⟨false, 0, 0⟩

/-- The weight of a class in the current window. -/
def Arb.weight (x : Arb) (c : Nat) : Nat := if c = 9 ∧ x.behind then x.catchup else (x.cls c).weight

/-- The class that wins among the requesting ones, which stand in rising order (R327). -/
def winner (x : Arb) (cs : List Nat) : Option Nat :=
  let high := cs.find? (fun c => (x.cls c).high && decide (x.granted.getD c 0 < (x.cls c).quota) && !(x.masked.getD c false))
  let credit := fun c => x.credit.getD c 0
  let shared := cs.filter (fun c => !(x.cls c).high && decide (0 < x.weight c))
  let best := shared.foldl (fun (b : Option Nat) c => match b with
    | some d => if credit d < credit c then some c else some d
    | none => some c) none
  (high.orElse (fun _ => best)).orElse (fun _ => cs.find? (fun c => !(x.cls c).high && x.weight c == 0))

/-- The source served next among the requests of a class: in turn by ascending index, after the one served last (R327). -/
def nextSource (last : Option Nat) (srcs : List Nat) : Nat :=
  let least := fun (l : List Nat) => match l with
    | [] => none
    | x :: xs => some (xs.foldl Nat.min x)
  let after := match last with
    | some k => least (srcs.filter (fun x => decide (k < x)))
    | none => none
  (after.orElse (fun _ => least srcs)).getD 0

/-- The source granted in a class: a parked owner keeps the grant while it still requests (R331). -/
def grantSource (x : Arb) (park : Bool) (c : Nat) (rs : List ArbReq) : Nat :=
  let srcs := (rs.filter (fun r => r.cls.val == c)).map (·.src)
  match x.owner with
  | some (o, k) => if park && o == c && srcs.contains k then k else nextSource (x.lastSrc.getD c none) srcs
  | none => nextSource (x.lastSrc.getD c none) srcs

/-- Charge and record the grant of a unit of class c to source k (R327, R331). -/
def chargeGrant (x : Arb) (park : Bool) (c k : Nat) : Arb :=
  let high := (x.cls c).high
  let n := x.granted.getD c 0 + 1
  let free := !high && x.weight c == 0
  { x with served := x.served + 1, owner := some (c, k), parked := park, inUnit := true
           granted := if high then x.granted.set c n else x.granted
           masked := if high && decide ((x.cls c).quota ≤ n) then x.masked.set c true else x.masked
           credit := if high || free then x.credit else x.credit.set c (Max.max (-32768) (x.credit.getD c 0 - 1))
           lastSrc := x.lastSrc.set c (some k) }

/-- ARB_STARVE of a stack; 0 is taken as 1 (R336). -/
def arbStarve (s : State) (i : Nat) : Nat := Nat.max 1 (getReg s (hbmcPage i) Reg.arbAux % 64)

/-- The starvation rule at an HBM3E controller (R333): a granted pseudo-channel that ARB_STARVE scheduled bursts have passed delays the
burst that would have followed; the requests left behind go on waiting. -/
def starveRule (s : State) (a : Nat) (granted : ArbReq) (rs : List ArbReq) : State :=
  match s.hbm[a]? with
  | none => s
  | some m =>
    let passed := (m.starve.find? (fun x => x.1 == granted.pc.val)).map (·.2)
    let keep := m.starve.filter (fun x => x.1 != granted.pc.val)
    let waiting := ((rs.filter (fun r => r != granted)).map (·.pc.val)).foldl (fun l p => if l.any (fun x => x.1 == p) then l else (p, 0) :: l) keep
    let s := { s with hbm := s.hbm.setIfInBounds a { m with starve := waiting } }
    if arbStarve s a ≤ passed.getD 0 then
      let (n, s) := draw s
      let s := countReg s (arbBank a) Reg.arbStarveServed 1
      countReg (countReg s (hbmcPage a) Reg.hbmSchedWaits 1) (hbmcPage a) Reg.hbmSchedWaitNs n
    else s

/-- The unit in progress ends; one that was cut off before is complete now (R332). -/
def endUnit (x : Arb) : Arb :=
  { x with inUnit := false, cut := if x.inUnit && x.cut.isSome && x.cut == x.owner then none else x.cut }

/-- Grant the next unit among the requests of a break point (R326, R327, R331, R333). The wait of a granted unit is open (log entry 3). -/
def arbitrate (s : State) (a : Nat) (rs : List ArbReq) : State :=
  let x := endUnit (getArb s a)
  let cs := (List.range 10).filter (fun c => rs.any (fun r => r.cls.val == c))
  let early := !cs.isEmpty && cs.all (fun c => x.masked.getD c false)
  let x := if decide (x.window ≤ x.served) || early then windowStart s a x else x
  let owner := x.owner.map (·.1)
  let park := match owner with
    | some o => parkMode o && cs == [o]
    | none => false
  match (if park then owner else winner x cs) with
  | none => setArb s a { x with owner := none, parked := false }
  | some c =>
    let k := grantSource x park c rs
    let s := setArb s a (chargeGrant x park c k)
    let (n, s) := draw s
    let s := countReg (countReg s (arbBank a) (Reg.arbGrants + 8 * c) 1) (arbBank a) (Reg.arbWaitNs + 8 * c) n
    match rs.find? (fun r => r.cls.val == c && r.src == k) with
    | some g => if a < 16 then starveRule s a g rs else s
    | none => s

/-- ARBITRATION (R327). -/
def execArbitration (arb : Fin 58) (requests : List ArbReq) (s : State) : Host.Outcome State Fault Refusal :=
  .next (arbitrate s arb requests)

/-! ## Cut-off (R332) -/

/-- The requester behind a class and source (R325). -/
def arbRequester (s : State) (c k : Nat) : Option Requester :=
  if c = 9 then none
  else if c = 6 then (if h : k < 20 then some (.unit ⟨k, h⟩) else none)
  else if c = 7 then (if h : k < 2 then some (.rambler ⟨k, h⟩) else none)
  else if c = 8 then some .host
  else if c = 1 then some .mgmt
  else (logicalsOf s k).head?.map (fun l => .hamper (Fin.ofNat 48 l))

/-- An address on the far side of an arbiter, for the crossing a failure is counted against (R310). -/
def arbAddr (a : Nat) : Nat := if a < 16 then a * 2 ^ 32 else if a < 32 then lpBase + 256 * (a - 16) else 0

/-- ARB_CUTOFF (R332): the unit in progress is cut off, counted and reported; a second cut-off of one unit sets REPEATED, and for a
write is a write-check failure of its requester. The arbiter arbitrates at once. -/
def arbCutoff (s : State) (a : Nat) (write : Bool) (rs : List ArbReq) : State :=
  let x := getArb s a
  match x.owner with
  | none => s
  | some (c, k) =>
    let page := arbPage a
    let again := x.cut == some (c, k)
    let info := c + 256 * (k % 256) + 65536 * bit write + 131072 * bit again
    let s := countReg s (arbBank a) Reg.arbCutoffs 1
    let s := setReg s page Reg.arbCutoffInfo info
    let s := emit (arbError s page 1) evArbCutoff page (bytesLE 4 a ++ bytesLE 4 info)
    let s := if again then arbError s page 2 else s
    let s := setArb s a { x with cut := some (c, k), inUnit := false }
    let s := match again && write, arbRequester s c k with
      | true, some rq => requesterFailure s rq (arbAddr a)
      | _, _ => s
    arbitrate s a rs

/-- ARB_CUTOFF (R332): only a unit in progress is cut off. -/
def execArbCutoff (arb : Fin 58) (write : Bool) (requests : List ArbReq) (s : State) : Host.Outcome State Fault Refusal :=
  .next (if (getArb s arb).inUnit then arbCutoff s arb write requests else s)

/-! ## Views (R336) -/

/-- The arbiter whose state a page shows. -/
def arbShown (s : State) (page : Nat) : Nat :=
  if page = mgmtPage then 32 + Nat.min 23 (getReg s mgmtPage Reg.arbAux % 32)
  else (arbsOf page).headD 0

/-- ARB_STATE (R336). -/
def arbStateWord (x : Arb) : Nat :=
  (x.owner.map (·.1)).getD 0 + 16 * bit x.owner.isSome + 32 * bit x.parked + 64 * bit x.behind + 256 * (x.served % 1024)

/-- ARB_CREDITc (R336). -/
def arbCreditWord (x : Arb) (c : Nat) : Nat := ofSigned 16 (x.credit.getD c 0)

end Sys2Proof.Machine
end

