-- ==== Sys2Proof/Machine/Operands.lean ====
section
/-!
DEFINITION. Machine/Operands.lean: what the engines of a hamper share: the descriptors they read from the pantry (R168–R172,
R97), reading and converting operand elements (R26, R47), the lines an access touches (R188), and the effects of a beat's
work on the rest of the module.
-/
namespace Sys2Proof.Machine

/-! ## The engines' view of a beat -/

/-- What an engine sees of the module in beat t: memory as it stands at the start of the beat (R184), the size of the pantry
partition, the seed of the context, UC_STEP, a free number for what memory timing decides (log entry 3), and the physical upsets of
the beat. -/
structure EngEnv where
  mem : List (Nat × Byte)
  lh : Nat
  psize : Nat
  t : Nat
  seed : BitVec 128
  step : Nat
  free : Nat
  ups : List Upset

/-- An effect of an engine's work outside the hamper's engines, applied when the beat's work is done. -/
inductive Eff where
  /-- A bit of the PAGE_ERR of a block of the hamper. -/
  | err (sub b : Nat)
  /-- A count in a counter of a block of the logical hamper. -/
  | count (sub off n : Nat)
  /-- A value for a register of a block of the logical hamper. -/
  | reg (sub off v : Nat)
  /-- Counts of conversions, kept apart for operations issued in a window (R166, R177). -/
  | counts (win : Bool) (c : StepCounts)
  /-- The square of a drained value enters the norm accumulator (R124). -/
  | square (x : Exact)
  /-- A digest term (R285). -/
  | digest (slot : Nat) (term : Word)
  /-- A drain summary is posted (R165). -/
  | drainSum (f : Nat) (win : Bool) (d : DrainSum)
  /-- A vector summary is posted (R110). -/
  | vecSum (win : Bool) (v : VecSum)
  /-- A residue or shift-check failure of the hamper (R122, R300). -/
  | fail
  /-- A load-check failure of the hamper (R301). -/
  | loadFail
  /-- An event from the page of a block of the hamper. -/
  | event (code sub : Nat) (data : List Byte)
  /-- A stash error, charged to the step (R88). -/
  | stashError
  /-- A scheduled burst on the plane (R191, R193). -/
  | burst (b : Burst)
  /-- Device bytes written by a scheduled burst at the end of the beat (R184). -/
  | store (addr : Nat) (data : List Byte)

/-- What an engine's work in a beat gives besides its new state: pantry writes, lines touched (line, write, engine of R209) and
effects. -/
structure Out where
  writes : List PWrite
  lines : List (Nat × Bool × Nat)
  effs : List Eff

/-- Nothing. -/
def Out.none_ : Out := ⟨[], [], []⟩

/-- One after the other. -/
def Out.app (a b : Out) : Out := ⟨a.writes ++ b.writes, a.lines ++ b.lines, a.effs ++ b.effs⟩

/-- Only effects. -/
def Out.eff (es : List Eff) : Out := ⟨[], [], es⟩

/-- An effect when a condition holds. -/
def effIf (c : Bool) (e : Eff) : List Eff := if c then [e] else []

/-! ## Pantry reads of engines (R12, R184, R256) -/

/-- A byte of the hamper's pantry; beyond its partition an access is out of map and reads 0 (R12, R256). -/
def EngEnv.byte (env : EngEnv) (a : Nat) : Byte :=
  if a < env.psize then memGet env.mem (pantryAddr env.lh a) else 0

/-- n bytes of the hamper's pantry. -/
def EngEnv.read (env : EngEnv) (a n : Nat) : List Byte := (List.range n).map (fun i => env.byte (a + i))

/-- A little-endian field of the hamper's pantry. -/
def EngEnv.nat (env : EngEnv) (a n : Nat) : Nat := natOfLE (env.read a n)

/-- Whether n bytes from a reach beyond the partition. -/
def EngEnv.beyond (env : EngEnv) (a n : Nat) : Bool := decide (0 < n) && decide (env.psize < a + n)

/-- Bit i of a bitmap in the pantry (R50, R98). -/
def EngEnv.maskBit (env : EngEnv) (a i : Nat) : Bool := (env.byte (a + i / 8)).getLsbD (i % 8)

/-- The lines n bytes from a touch (R188). -/
def linesOf (a n : Nat) : List Nat := if n = 0 then [] else (List.range ((a + n - 1) / 64 + 1 - a / 64)).map (fun i => a / 64 + i)

/-- A list with repeats dropped. -/
def dedup : List Nat → List Nat
  | [] => []
  | a :: t => let r := dedup t; if r.contains a then r else a :: r

/-- Tag lines with their direction and engine. -/
def tagLines (w : Bool) (engine : Nat) (ls : List Nat) : List (Nat × Bool × Nat) := (dedup ls).map (fun l => (l, w, engine))

/-! ## Operand elements (R26, R47, R75) -/

/-- A stored element with the exponent byte of its block: the block is that of its byte offset from the plane's base (R26). -/
def EngEnv.rawElem (env : EngEnv) (base exp : Nat) (fmt : Fmt) (off : Nat) : Nat × Nat :=
  let w := fmtWidth fmt
  (env.nat (base + off) w, if fmtBlock fmt then (env.byte (exp + off / (32 * w))).toNat else 0)

/-- n stored elements from byte offset off on. -/
def EngEnv.rawRow (env : EngEnv) (base exp : Nat) (fmt : Fmt) (off n : Nat) : List (Nat × Nat) :=
  (List.range n).map (fun e => env.rawElem base exp fmt (off + e * fmtWidth fmt))

/-- The address ranges n elements from byte offset off on lie in: mantissas, then exponent bytes. -/
def rowRanges (base exp : Nat) (fmt : Fmt) (off n : Nat) : List (Nat × Nat) :=
  let w := fmtWidth fmt
  (base + off, n * w) ::
    (if fmtBlock fmt then [(exp + off / (32 * w), (off + n * w - 1) / (32 * w) + 1 - off / (32 * w))] else [])

/-- The lines of address ranges. -/
def rangeLines (rs : List (Nat × Nat)) : List Nat := rs.flatMap (fun r => linesOf r.1 r.2)

/-- Whether some range reaches beyond the partition. -/
def EngEnv.beyondAny (env : EngEnv) (rs : List (Nat × Nat)) : Bool := rs.any (fun r => env.beyond r.1 r.2)

/-- An operand element with the residue of its mantissa (R57). -/
def welem (m : Int) (e : Nat) : WElem := ⟨m, e, (m % 127).toNat⟩

/-- The exact value of BF16 or FP32 element bits, as a conversion source (R38). -/
def floatVal (fmt : Fmt) (b : Nat) : FVal :=
  if fmt = .fp32 then fp32Val (BitVec.ofNat 32 b) else fp32Val (bf16Widen (BitVec.ofNat 16 b))

/-- Split a list into groups of n (with fuel). -/
def groupsOf {α : Type} (n : Nat) : Nat → List α → List (List α)
  | 0, _ => []
  | f + 1, l => if l.isEmpty then [] else l.take n :: groupsOf n f (l.drop n)

/-- A conversion block of 32 floating elements (R38, R47) with its counts. -/
def convGroup (bs8 : Bool) (fmt : Fmt) (g : List (Nat × Nat)) : List WElem × Counts :=
  let (e, ms, c) := toBlock (if bs8 then bs8Params else bs16Params) (g.map (fun x => (floatVal fmt x.1, .rne)))
  (ms.map (fun m => welem m e), c)

/-- The feeder's conversion of operand elements to the frame's mode (R41, R47), with its counts. -/
def convRaw (bs8 : Bool) (fmt : Fmt) (raw : List (Nat × Nat)) : List WElem × Counts :=
  match fmt with
  | .bs16 => (raw.map (fun x => welem (toSigned 16 x.1) x.2), noCounts)
  | .bs8 => (raw.map (fun x => welem (toSigned 8 x.1 * (if bs8 then 1 else 256)) x.2), noCounts)
  | f =>
    let gs := (groupsOf 32 raw.length raw).map (convGroup bs8 f)
    (gs.flatMap (·.1), gs.foldl (fun c g => addCounts c g.2) noCounts)

/-- Elements converted under R38 or widened under R41, for FEED_CONVERTED (R472). -/
def convCount (bs8 : Bool) (fmt : Fmt) (n : Nat) : Nat :=
  match fmt with
  | .bs16 => 0
  | .bs8 => if bs8 then 0 else n
  | _ => n

/-- Whether a frame of a mode takes a format: a BS16 operand in BS8 mode is malformed (R47). -/
def modeTakes (bs8 : Bool) (fmt : Option Fmt) : Bool :=
  match fmt with
  | none => false
  | some .bs16 => !bs8
  | some _ => true

/-! ## Descriptors -/

/-- The pass descriptor at a pantry address (R168). -/
def readPassDesc (env : EngEnv) (a : Nat) : PassDesc :=
  let u := fun (o n : Nat) => env.nat (a + o) n
  let c := u 0x04 4
  let k := u 0x08 4
  let f := u 0x0C 4
  { rows := bits (u 0 4) 23 0, bs8 := c.testBit 0, swap := c.testBit 1, meas := c.testBit 2, sum := c.testBit 3
    carry := c.testBit 4, rodOut := bits c 6 5, sr := c.testBit 7, zeroFill := c.testBit 8, maskEn := c.testBit 9
    squares := c.testBit 10, inTrans := c.testBit 11, anchor := toSigned 10 (bits k 9 0)
    mxReg := Fin.ofNat 32 (bits k 14 10), guard := bits k 19 15, basketBase := bits k 26 20, inFmt := bits f 2 0
    outFmt := bits f 6 4, inAddr := u 0x10 4, inExp := u 0x14 4, inStride := u 0x18 4, outAddr := u 0x1C 4
    outExp := u 0x20 4, outStride := u 0x24 4, maskAddr := u 0x28 4, tensor := BitVec.ofNat 32 (u 0x2C 4)
    idxBase := u 0x30 8, idxRow := u 0x38 4
    reserved := decide (bits (u 0 4) 31 24 ≠ 0) || decide (bits c 31 12 ≠ 0) || decide (bits k 31 27 ≠ 0) ||
      f.testBit 3 || decide (bits f 31 7 ≠ 0) || decide (u 0x3C 4 ≠ 0) }

/-- The fields of a tile descriptor (R169). -/
structure TileDesc where
  bs8 : Bool
  trans : Bool
  buf : Nat
  fmt : Nat
  addr : Nat
  exp : Nat
  stride : Nat
  reserved : Bool
deriving DecidableEq, Repr

/-- The tile descriptor at a pantry address (R169). -/
def readTileDesc (env : EngEnv) (a : Nat) : TileDesc :=
  let c := env.nat a 4
  { bs8 := c.testBit 0, trans := c.testBit 1, buf := bits c 2 2, fmt := bits c 6 4, addr := env.nat (a + 4) 4
    exp := env.nat (a + 8) 4, stride := env.nat (a + 12) 4
    reserved := c.testBit 3 || decide (bits c 31 7 ≠ 0) || decide (env.nat (a + 16) 16 ≠ 0) }

/-- The stash descriptor at a pantry address (R171). -/
def readStashDesc (env : EngEnv) (a : Nat) : StashDesc :=
  let k := env.nat (a + 4) 4
  { tag := env.nat a 4, micro := bits k 15 0, fmt := bits k 18 16, mantLen := env.nat (a + 0x08) 4
    expLen := env.nat (a + 0x0C) 4, mantAddr := env.nat (a + 0x10) 4, expAddr := env.nat (a + 0x14) 4
    reserved := decide (bits k 31 19 ≠ 0) || decide (env.nat (a + 0x18) 8 ≠ 0) }

/-- The fields of a DMA descriptor (R172). -/
structure DmaDesc where
  src : Nat
  dst : Nat
  len : Nat
  open_ : Bool
  tally : Option Nat
  reserved : Bool
deriving DecidableEq, Repr

/-- The DMA descriptor at a pantry address (R172). -/
def readDmaDesc (env : EngEnv) (a : Nat) : DmaDesc :=
  let c := env.nat (a + 0x14) 4
  { src := env.nat a 8, dst := env.nat (a + 8) 8, len := env.nat (a + 0x10) 4, open_ := c.testBit 0
    tally := if c.testBit 16 then some (bits c 15 4) else none
    reserved := decide (bits c 3 1 ≠ 0) || decide (bits c 31 17 ≠ 0) || decide (env.nat (a + 0x18) 8 ≠ 0) }

/-- One stream slot of a call descriptor (R97). -/
def readStream (bs : List Byte) : StreamDesc :=
  let g := fieldN bs 0x0C 4
  { addr := fieldN bs 0 4, exp := fieldN bs 4 4, stride := fieldN bs 8 4, fmt := bits g 2 0, enable := g.testBit 8
    tensor := BitVec.ofNat 32 (fieldN bs 0x10 4), idxRow := fieldN bs 0x14 4, idxBase := fieldN bs 0x18 8
    reserved := decide (bits g 7 3 ≠ 0) || decide (bits g 31 9 ≠ 0) }

/-- The call descriptor its 256 bytes spell (R97). -/
def parseCall (bs : List Byte) : CallDesc :=
  let r := fieldN bs 0 4
  let sb := fieldN bs 0x0C 4
  let m := fieldN bs 0xE8 4
  { slot := bits r 5 0, rows := fieldN bs 4 4, rowLen := fieldN bs 8 4, scalarBase := bits sb 4 0
    streams := (List.range 6).map (fun i => readStream ((bs.drop (0x20 + 0x20 * i)).take 32))
    maskAddr := fieldN bs 0xE0 4, maskStride := fieldN bs 0xE4 4, maskEn := m.testBit 0
    rngStream := BitVec.ofNat 32 (fieldN bs 0xF0 4), rngIdxRow := fieldN bs 0xF4 4, rngIdxBase := fieldN bs 0xF8 8
    reserved := decide (bits r 31 6 ≠ 0) || decide (bits sb 31 5 ≠ 0) || decide (fieldN bs 0x10 16 ≠ 0) ||
      decide (bits m 31 1 ≠ 0) || decide (fieldN bs 0xEC 4 ≠ 0) }

end Sys2Proof.Machine
end

