-- ==== Sys2Proof/Machine/Dma.lean ====
section
/-!
DEFINITION. Machine/Dma.lean: DMA descriptors, the scheduled DMA of a hamper, and what an open DMA needs to start
(06_control_core.md, R172).
-/
namespace Sys2Proof.Machine

/-- The engine number of the scheduled DMA (R209). -/
def engineDma : Nat := 6

/-- Whether n bytes from a lie in the hamper's own pantry, through the pantry global window. -/
def ownPantry (env : EngEnv) (a n : Nat) : Bool :=
  decide (pantryAddr env.lh 0 ≤ a) && decide (a + n ≤ pantryAddr env.lh env.psize)

/-- Whether n bytes from a lie in the HBM3E of the hamper's own compute die. -/
def ownHbm (env : EngEnv) (a n : Nat) : Bool :=
  hbmRangeOk a n && dieOfHbm a == env.lh / 12 && dieOfHbm (a + n - 1) == env.lh / 12

/-- Whether a DMA descriptor is malformed (R20, R172); bulk tells which ranges exist. -/
def dmaBad (env : EngEnv) (bulk : Nat → Nat → Bool) (d : DmaDesc) (addr : Nat) : Bool :=
  decide (addr % 32 ≠ 0) || d.reserved || decide (d.len < 64) || decide (2 ^ 24 < d.len) || decide (d.len % 64 ≠ 0) ||
  decide (d.src % 64 ≠ 0) || decide (d.dst % 64 ≠ 0) || !bulk d.src d.len || !bulk d.dst d.len ||
  (!d.open_ && !((ownPantry env d.src d.len && ownHbm env d.dst d.len) || (ownHbm env d.src d.len && ownPantry env d.dst d.len)))

/-- Bursts of a scheduled DMA: 256 bytes, four lines, each. -/
def dmaBursts (len : Nat) : Nat := ceilDiv len 256

/-- Beat count of a scheduled DMA. -/
def dmaBeats (len : Nat) : Nat := dmaBursts len + 96

/-- The last beat of a scheduled DMA. -/
def dmaLast (r : DmaRun) : Nat := r.b0 + dmaBeats r.len - 1

/-- Start a scheduled DMA in beat b0 = t. busy tells that the previous one has not ended. -/
def startDma (env : EngEnv) (busy : Bool) (d : DmaDesc) (tag : OpTag) : Option DmaRun × List Eff :=
  if tag.win && decide (tag.winEnd < env.t + dmaBeats d.len - 1) then (none, [.err 0 3])
  else if busy then (none, [.err 0 5])
  else (some { b0 := env.t, src := d.src, dst := d.dst, len := d.len, toHbm := ownPantry env d.src d.len, tally := d.tally
               pendingWrites := [], ran := false, done := false, tag := tag }, [])

/-- The burst a scheduled DMA carries in beat t, if any: its number. -/
def dmaBurst (r : DmaRun) (t : Nat) : Option Nat :=
  let first := if r.toHbm then r.b0 else r.b0 + 96
  if first ≤ t ∧ t - first < dmaBursts r.len then some (t - first) else none

/-- The bytes of burst k. -/
def burstLen (r : DmaRun) (k : Nat) : Nat := Nat.min 256 (r.len - 256 * k)

/-- The pantry address of burst k. -/
def burstPantry (env : EngEnv) (r : DmaRun) (k : Nat) : Nat :=
  (if r.toHbm then r.src else r.dst) + 256 * k - pantryAddr env.lh 0

/-- The pantry ranges a scheduled DMA touches in beat t (reads, writes), for the hazard detector (R206). -/
def dmaPlan (env : EngEnv) (r : DmaRun) (t : Nat) : List (Nat × Nat) × List (Nat × Nat) :=
  match dmaBurst r t with
  | none => ([], [])
  | some k => if r.toHbm then ([(burstPantry env r k, burstLen r k)], []) else ([], [(burstPantry env r k, burstLen r k)])

/-- The work of a scheduled DMA in beat t. Of the bursts on their way to HBM3E, a free number takes effect in the beat; in the
last beat all have (R172, log entry 3). -/
def dmaBeat (env : EngEnv) (r : DmaRun) : DmaRun × Out :=
  if r.done || r.ran then (r, .none_)
  else
    let (r, o) := match dmaBurst r env.t with
      | none => (r, Out.none_)
      | some k =>
        let n := burstLen r k
        let p := burstPantry env r k
        if r.toHbm then
          ({ r with pendingWrites := r.pendingWrites ++ [(r.dst + 256 * k, env.read p n)] },
           { writes := [], lines := tagLines false engineDma (linesOf p n), effs := [.burst ⟨r.dst + 256 * k, true, 1, engineDma, n⟩] })
        else
          (r, { writes := [{ prio := 1, addr := p, data := memRead env.mem (r.src + 256 * k) n }]
                lines := tagLines true engineDma (linesOf p n), effs := [.burst ⟨r.src + 256 * k, false, 1, engineDma, n⟩] })
    let m := if env.t = dmaLast r then r.pendingWrites.length else env.free % (r.pendingWrites.length + 1)
    ({ r with pendingWrites := r.pendingWrites.drop m },
     o.app (.eff ((r.pendingWrites.take m).map (fun w => .store w.1 w.2))))

end Sys2Proof.Machine
end

