-- ==== Sys2Proof/Machine/Fp32.lean ====
section
/-!
DEFINITION. Machine/Fp32.lean: the FP32 arithmetic of the vector engine and the update units, each
operation its exact result rounded once under RNE (04_vector_recipes.md, R107, R108).
-/
namespace Sys2Proof.Machine

/-- Round a signed magnitude to FP32 under RNE; overflow gives an infinity (R107). -/
def fpRound (neg : Bool) (m : Nat) (e : Int) : W32 :=
  fp32Bits neg (min (packMag 24 (-149) .rne m e) 0x7F800000)

/-- The FP32 bits of an FVal that needs no rounding or is rounded once (R107). -/
def fpOfVal : FVal → W32
  | .nan => fp32Nan
  | .inf n => fp32Bits n 0x7F800000
  | .fin n m e => fpRound n m e

/-- Sum of two values, rounded once. An exact zero is −0 only when both addends are −0 (R108). -/
def fvAdd : FVal → FVal → W32
  | .nan, _ => fp32Nan
  | _, .nan => fp32Nan
  | .inf a, .inf b => if a = b then fpOfVal (.inf a) else fp32Nan
  | .inf a, _ => fpOfVal (.inf a)
  | _, .inf b => fpOfVal (.inf b)
  | .fin na ma ea, .fin nb mb eb =>
    let s := exactAdd (exactOfFval (.fin na ma ea)) (exactOfFval (.fin nb mb eb))
    if s.m = 0 then fp32Bits (ma == 0 && mb == 0 && na && nb) 0
    else fpRound (decide (s.m < 0)) s.m.natAbs s.e

/-- The exact product of two values; ∞ × 0 is a NaN (R108). -/
def fvMul : FVal → FVal → FVal
  | .nan, _ => .nan
  | _, .nan => .nan
  | .inf a, .inf b => .inf (a != b)
  | .inf a, .fin n m _ => if m = 0 then .nan else .inf (a != n)
  | .fin n m _, .inf b => if m = 0 then .nan else .inf (n != b)
  | .fin na ma ea, .fin nb mb eb => .fin (na != nb) (ma * mb) (ea + eb)

/-- The value with its sign inverted; a NaN stays one. -/
def fvNeg : FVal → FVal
  | .nan => .nan
  | .inf n => .inf (!n)
  | .fin n m e => .fin (!n) m e

/-- ADD (R107). -/
def fpAdd (a b : W32) : W32 := fvAdd (fp32Val a) (fp32Val b)
/-- SUB (R107). -/
def fpSub (a b : W32) : W32 := fvAdd (fp32Val a) (fvNeg (fp32Val b))
/-- MUL (R107). -/
def fpMul (a b : W32) : W32 := fpOfVal (fvMul (fp32Val a) (fp32Val b))
/-- FMA: A × B + C, one rounding (R107). -/
def fpFma (a b c : W32) : W32 := fvAdd (fvMul (fp32Val a) (fp32Val b)) (fp32Val c)
/-- FNMA: C − A × B, one rounding (R107). -/
def fpFnma (a b c : W32) : W32 := fvAdd (fp32Val c) (fvNeg (fvMul (fp32Val a) (fp32Val b)))

/-- The quotient of two finite nonzero magnitudes with 64 bits beyond the binary point and a sticky bit. -/
def quotSticky (ma mb : Nat) : Nat :=
  let q := (ma <<< 64) / mb
  2 * q + (if q * mb = ma <<< 64 then 0 else 1)

/-- DIV of two values (R107, R108). -/
def fvDiv : FVal → FVal → W32
  | .nan, _ => fp32Nan
  | _, .nan => fp32Nan
  | .inf _, .inf _ => fp32Nan
  | .inf a, .fin n _ _ => fpOfVal (.inf (a != n))
  | .fin n _ _, .inf b => fp32Bits (n != b) 0
  | .fin na ma ea, .fin nb mb eb =>
    if mb = 0 then (if ma = 0 then fp32Nan else fpOfVal (.inf (na != nb)))
    else fpRound (na != nb) (quotSticky ma mb) (ea - eb - 65)

/-- DIV (R107). -/
def fpDiv (a b : W32) : W32 := fvDiv (fp32Val a) (fp32Val b)

/-- Whether 32 bits are ±0. -/
def fpIsZero (b : W32) : Bool := b.toNat % 2 ^ 31 == 0
/-- Whether 32 bits are a NaN. -/
def fpIsNan (b : W32) : Bool := fp32Val b == .nan
/-- Whether 32 bits are an infinity. -/
def fpIsInf (b : W32) : Bool := b.toNat % 2 ^ 31 == 0x7F800000

/-- DIV0: +0 if B is ±0, else A / B (R104, R108). -/
def fpDiv0 (a b : W32) : W32 := if fpIsZero b then 0 else fpDiv a b

/-- +1.0. -/
def fpOne : W32 := 0x3F800000#32

/-- RCP (R107). -/
def fpRcp (a : W32) : W32 := fpDiv fpOne a

/-- One bit of an integer square root, from bit k down: the largest r with r² ≤ n. -/
def isqrtGo (n : Nat) : Nat → Nat → Nat
  | 0, r => r
  | k + 1, r =>
    let t := r + 2 ^ k
    isqrtGo n k (if t * t ≤ n then t else r)

/-- Integer square root. -/
def isqrt (n : Nat) : Nat := isqrtGo n (Nat.log2 n / 2 + 1) 0

/-- SQRT (R107, R108): −0 gives −0, below zero a NaN. -/
def fpSqrt (a : W32) : W32 :=
  match fp32Val a with
  | .nan => fp32Nan
  | .inf n => if n then fp32Nan else a
  | .fin n m e =>
    if m = 0 then a
    else if n then fp32Nan
    else
      let odd := (e % 2).toNat
      let k := m <<< (64 + odd)
      let r := isqrt k
      fpRound false (2 * r + (if r * r = k then 0 else 1)) ((e - odd) / 2 - 33)

/-- RSQ (R107, R108): ±0 gives ±∞, below zero a NaN. -/
def fpRsq (a : W32) : W32 :=
  match fp32Val a with
  | .nan => fp32Nan
  | .inf n => if n then fp32Nan else 0
  | .fin n m e =>
    if m = 0 then fpOfVal (.inf n)
    else if n then fp32Nan
    else
      let odd := (e % 2).toNat
      let mm := m <<< odd
      let r := isqrt (2 ^ 128 / mm)
      fpRound false (2 * r + (if r * r * mm = 2 ^ 128 then 0 else 1)) (-((e - odd) / 2) - 65)

/-- ln 2 in units of 2^−200. -/
def ln2Fix : Nat := 1113844574712631719546256151097547306333272293549090750737802

/-- The exponential series of x, in units of 2^−200, from term k on with term t. -/
def expSeries (x : Nat) : Nat → Nat → Nat → Nat → Nat
  | 0, _, _, acc => acc
  | fuel + 1, k, t, acc =>
    let t' := t * x / 2 ^ 200 / k
    expSeries x fuel (k + 1) t' (acc + t')

/-- 2^f in units of 2^−200, for a fraction f given in units of 2^−50. -/
def exp2Frac (f : Nat) : Nat := expSeries (f * ln2Fix / 2 ^ 50) 48 1 (2 ^ 200) (2 ^ 200)

/-- EXP2, correctly rounded (R107, R108). An integer argument is exact; any other has an irrational
result, never a tie, so the truncated series with a sticky bit rounds it. -/
def fpExp2 (a : W32) : W32 :=
  match fp32Val a with
  | .nan => fp32Nan
  | .inf n => if n then 0 else fpOfVal (.inf false)
  | .fin n m e =>
    if m = 0 then fpOne
    else if magLog2 m e < -27 then fpOne
    else if 8 ≤ magLog2 m e then (if n then 0 else fpOfVal (.inf false))
    else
      let fx : Int := ((if n then -1 else 1) * (m : Int)) * 2 ^ (e + 50).toNat / 2 ^ (-(e + 50)).toNat
      let i := fx / 2 ^ 50
      let f := (fx % 2 ^ 50).toNat
      if 128 ≤ i then fpOfVal (.inf false)
      else if i < -150 ∨ (i = -150 ∧ f = 0) then 0
      else if f = 0 then fpRound false 1 i
      else fpRound false (2 * exp2Frac f + 1) (i - 201)

/-- The series of atanh z in units of 2^−200: sum of z^(2j+1)/(2j+1). -/
def atanhSeries (z2 : Nat) : Nat → Nat → Nat → Nat → Nat
  | 0, _, _, acc => acc
  | fuel + 1, k, t, acc => atanhSeries z2 fuel (k + 2) (t * z2 / 2 ^ 200) (acc + t / k)

/-- log2 of y/2^23 in [1, 2), in units of 2^−200. -/
def log2Frac (y : Nat) : Nat :=
  let z := ((y - 2 ^ 23) * 2 ^ 200) / (y + 2 ^ 23)
  (2 * atanhSeries (z * z / 2 ^ 200) 66 1 z 0) * 2 ^ 200 / ln2Fix

/-- LOG2, correctly rounded (R107, R108). A power of two is exact; any other has an irrational result. -/
def fpLog2 (a : W32) : W32 :=
  match fp32Val a with
  | .nan => fp32Nan
  | .inf n => if n then fp32Nan else a
  | .fin n m e =>
    if m = 0 then fpOfVal (.inf true)
    else if n then fp32Nan
    else
      let l := Nat.log2 m
      let y := m <<< (23 - l)
      let i := (l : Int) + e
      if y = 2 ^ 23 then fpRound (decide (i < 0)) i.natAbs 0
      else
        let v : Int := i * 2 ^ 201 + (2 * (log2Frac y : Int) + 1)
        fpRound (decide (v < 0)) v.natAbs (-201)

/-- a < b as values, neither a NaN (−0 equals +0, R108). -/
def fpLt (a b : W32) : Bool :=
  match fp32Val a, fp32Val b with
  | .nan, _ => false
  | _, .nan => false
  | .inf x, .inf y => x && !y
  | .inf x, _ => x
  | _, .inf y => !y
  | x, y => exactLt (exactOfFval x) (exactOfFval y)

/-- a = b as values (R108). -/
def fpEq (a b : W32) : Bool := !fpIsNan a && !fpIsNan b && !fpLt a b && !fpLt b a

/-- MIN (R108): one NaN gives the other operand, two give NaN, and −0 is below +0. -/
def fpMin (a b : W32) : W32 :=
  if fpIsNan a then (if fpIsNan b then fp32Nan else b)
  else if fpIsNan b then a
  else if fpLt a b then a
  else if fpLt b a then b
  else if a.toNat / 2 ^ 31 = 1 then a else b

/-- MAX (R108). -/
def fpMax (a b : W32) : W32 :=
  if fpIsNan a then (if fpIsNan b then fp32Nan else b)
  else if fpIsNan b then a
  else if fpLt a b then b
  else if fpLt b a then a
  else if a.toNat / 2 ^ 31 = 1 then b else a

/-- ABS (R108). -/
def fpAbs (a : W32) : W32 := if fpIsNan a then fp32Nan else BitVec.ofNat 32 (a.toNat % 2 ^ 31)

/-- NEG (R108). -/
def fpNeg (a : W32) : W32 := if fpIsNan a then fp32Nan else a ^^^ 0x80000000#32

/-- SMXP, the soft-maximum numerator of x = A and row maximum m = B (R108). -/
def fpSmxp (a b : W32) : W32 :=
  if fpIsNan a || fpIsNan b then fp32Nan
  else if b = 0x7F800000#32 then (if a = 0x7F800000#32 then fpOne else 0)
  else if b = 0xFF800000#32 then 0
  else fpExp2 (fpMul (fpSub a b) 0x3FB8AA3B#32)

/-- The conditions of CMP and MROW by AUX code (R104, R108). -/
def fpCond (c : Nat) (a b : W32) : Bool :=
  match c with
  | 0 => fpEq a b
  | 1 => !fpEq a b
  | 2 => fpLt a b
  | 3 => fpLt a b || fpEq a b
  | 4 => fpLt b a
  | 5 => fpLt b a || fpEq a b
  | 6 => fpIsNan a
  | 7 => fpIsInf a
  | _ => false

end Sys2Proof.Machine
end

