-- ==== Sys2Proof/Machine/Isa.lean ====
section
/-!
DEFINITION. Machine/Isa.lean: which 64-bit words are legal instructions (06_control_core.md, R155–R157, R160, R163, R164,
R167, R171, R173, R175, R176, R178).
-/
namespace Sys2Proof.Machine

/-- The fields of an instruction word (R155): OP, RD or SEL or COND, RA, RB or FIELD, [40:32], [31:24], [23:0]. -/
structure IWord where
  op : Nat
  rd : Nat
  ra : Nat
  rb : Nat
  hi : Nat
  mid : Nat
  lo : Nat
deriving DecidableEq, Repr

/-- Split a word into its fields (R155). -/
def iword (w : Nat) : IWord :=
  { op := bits w 63 56, rd := bits w 55 51, ra := bits w 50 46, rb := bits w 45 41, hi := bits w 40 32
    mid := bits w 31 24, lo := bits w 23 0 }

/-- FLAGS of format D (R155). -/
def iflags (i : IWord) : Nat := i.hi * 256 + i.mid

/-- The low 41 bits, zero in formats R and X (R155). -/
def lowZero (i : IWord) : Bool := i.hi == 0 && i.mid == 0 && i.lo == 0

/-- The number of fields of a summary source (R164). -/
def sumFields (src : Nat) : Nat :=
  match src with
  | 0 => 6
  | 1 => 6
  | 2 => 6
  | 3 => 11
  | 4 => 3
  | _ => 0

/-- Legality of a word in formats R and I (R155–R158). -/
def legalRI (i : IWord) (win : Bool) : Bool :=
  if i.op = 0x01 then i.rd == 0 && i.ra == 0 && i.rb == 0 && lowZero i
  else if 0x02 ≤ i.op ∧ i.op ≤ 0x0E then lowZero i
  else if i.op = 0x12 ∨ (0x14 ≤ i.op ∧ i.op ≤ 0x19) then true
  else if i.op = 0x1A ∨ i.op = 0x1B ∨ i.op = 0x31 then i.ra == 0
  else if 0x20 ≤ i.op ∧ i.op ≤ 0x23 then true
  else if i.op = 0x32 then i.rd == 0 && i.rb == 0 && lowZero i
  else if i.op = 0x33 then i.rd == 0 && i.ra == 0 && i.rb == 0 && i.hi == 0
  else if i.op = 0x35 then i.rd == 0 && i.ra == 0 && i.rb == 0 && lowZero i && !win
  else false

/-- Legality of a word in formats B, W and X (R160, R163, R164, R175, R176). -/
def legalBWX (i : IWord) (win : Bool) : Bool :=
  if i.op = 0x30 then i.hi == 0 && (decide (i.rd < 14) || (i.rd == 14 && i.ra == 0 && i.rb == 0))
  else if i.op = 0x34 then !win && decide (0 < i.mid * 2 ^ 24 + i.lo)
  else if i.op = 0x38 then decide (i.ra ≤ 5) && i.rb == 0 && lowZero i
  else if i.op = 0x39 then decide (i.rb < sumFields i.ra) && lowZero i
  else false

/-- Legality of a word in format D (R155, R167, R170–R174, R176, R178). -/
def legalD (i : IWord) (win : Bool) : Bool :=
  let f := iflags i
  if i.op = 0x40 ∨ i.op = 0x41 ∨ i.op = 0x42 then decide (i.rd ≤ 2) && i.rb == 0 && f == 0
  else if i.op = 0x48 ∨ i.op = 0x58 then i.rd == 0 && i.rb == 0 && f == 0
  else if i.op = 0x49 then i.rd == 0 && i.rb == 0 && decide (f < 2 ^ 12)
  else if i.op = 0x50 ∨ i.op = 0x51 then decide (i.rd < 8) && i.rb == 0 && f == 0
  else if i.op = 0x60 then i.rd == 0 && i.rb == 0 && decide (i.lo < 2 ^ 12) && (f.testBit 16 || i.ra == 0)
  else if i.op = 0x61 ∨ i.op = 0x62 then !win && i.rb == 0 && decide (i.lo < 2 ^ 12) && (f.testBit 16 || i.ra == 0)
  else if i.op = 0x63 then !win && i.ra == 0 && i.rb == 0 && decide (i.lo < 2 ^ 12) && decide (f ≤ 1)
  else if i.op = 0x68 then i.rd == 0 && i.rb == 0 && decide (f < 2 ^ 7) && (f.testBit 6 || decide (f % 64 < 48))
  else if i.op = 0x69 then win && i.ra == 0 && i.rb == 0 && lowZero i
  else if i.op = 0x6A then win && i.rd == 0 && i.ra == 0 && i.rb == 0 && f == 0
  else if i.op = 0x70 then !win && i.rd == 0 && i.rb == 0 && f == 0
  else if i.op = 0x71 then !win && i.rd == 0 && i.rb == 0 && (f == 0 || f == 2 ^ 16) && (f.testBit 16 || i.ra == 0)
  else if i.op = 0x72 then !win && i.rd == 0 && i.rb == 0 && decide (f ≤ 1)
  else false

/-- Whether a word is a legal instruction, inside or outside a window (R155–R157, R176). -/
def legalWord (w : Nat) (win : Bool) : Bool :=
  let i := iword w
  legalRI i win || legalBWX i win || legalD i win

end Sys2Proof.Machine
end

