-- ==== Sys2Proof/Machine/Generator.lean ====
section
/-!
DEFINITION. Machine/Generator.lean: the counter-based random generator and the positional digest term
(11_reproducibility.md, R278, R282, R284).
-/
namespace Sys2Proof.Machine

/-- Rotate a 32-bit value left by n (R278). -/
def rotl32 (v : W32) (n : Nat) : W32 := v.rotateLeft n

/-- The four state words of the generator (R278). -/
structure GenState where
  x0 : W32
  x1 : W32
  x2 : W32
  x3 : W32
deriving DecidableEq, Repr

/-- Key word j of the generator (R278). -/
def genKey (seed : BitVec 128) (step : BitVec 48) (j : Nat) : W32 :=
  match j with
  | 0 => seed.extractLsb' 0 32
  | 1 => seed.extractLsb' 32 32
  | 2 => seed.extractLsb' 64 32
  | _ => seed.extractLsb' 96 32 ^^^ (step.extractLsb' 32 16).setWidth 32

/-- One round of the generator (R278). -/
def genRound (k : W32) (even : Bool) (x : GenState) : GenState :=
  let p := if even then 16 else 8
  let q := if even then 12 else 7
  let x0 := x.x0 + x.x1 + k
  let x3 := rotl32 (x.x3 ^^^ x0) p
  let x2 := x.x2 + x3 + 0x9E3779B9#32
  let x1 := rotl32 (x.x1 ^^^ x2) q
  ⟨x0, x1, x2, x3⟩

/-- The first n rounds of the generator (R278). -/
def genRounds (seed : BitVec 128) (step : BitVec 48) : Nat → GenState → GenState
  | 0, x => x
  | n + 1, x => let y := genRounds seed step n x
                genRound (genKey seed step (n % 4)) (n % 2 == 0) y

/-- The generator's final state (R278). -/
def gen (seed : BitVec 128) (stream : W32) (step : BitVec 48) (index : Word) : GenState :=
  genRounds seed step 10
    ⟨index.extractLsb' 0 32, index.extractLsb' 32 32, step.extractLsb' 0 32, stream⟩

/-- The generator's output word w (R278). -/
def genWord (x : GenState) : W32 := x.x1 ^^^ x.x3

/-- The 4 random bits of a stochastic rounding (R282). -/
def genSr (seed : BitVec 128) (stream : W32) (step : BitVec 48) (index : Word) : Nat :=
  (genWord (gen seed stream step index)).toNat / 2 ^ 28

/-- The FP32 value of RND: (w >> 8) × 2⁻²⁴ (R104, R282). -/
def genRnd (seed : BitVec 128) (stream : W32) (step : BitVec 48) (index : Word) : W32 :=
  (toFp32 .rne (.fin false ((genWord (gen seed stream step index)).toNat / 256) (-24))).1

/-- The digest term of one written element (R284). -/
def digestTerm (tensor : W32) (form : Nat) (vbits : Nat) (index : Word) : Word :=
  let x := gen 0 tensor (BitVec.ofNat 48 (form * 2 ^ 32 + vbits)) index
  genWord x ++ (x.x0 ^^^ x.x2)

/-- The digest slot a TENSOR_ID names: bits [31:24], 0 for none (R283). -/
def digestSlot (tensor : W32) : Nat := tensor.toNat / 2 ^ 24

end Sys2Proof.Machine
end

