-- ==== Sys2Proof/Machine/Frames.lean ====
section
/-!
DEFINITION. Machine/Frames.lean: frames, rods, baskets, drains, weight loads and turning buffers
(02_matrix_frames.md, R43–R71; 03_backward_and_stash.md, R75–R78).
-/
namespace Sys2Proof.Machine

/-! ## Rods (R52–R57) -/

/-- Lowest 96-bit value. -/
def rodLo : Int := -(2 ^ 95)
/-- Highest 96-bit value. -/
def rodHi : Int := 2 ^ 95 - 1

/-- A value modulo 2^104 as a signed number, and how often 2^104 was carried away (R55, R57). -/
def wrap104 (s : Int) : Int × Int :=
  let w := (s + 2 ^ 103) % 2 ^ 104 - 2 ^ 103
  (w, (s - w) / 2 ^ 104)

/-- Addition into V, with the residue corrected for a carry out of bit 103 (R55, R57). -/
def rodAdd (a b : Rod) : Rod :=
  let (v, k) := wrap104 (a.v + b.v)
  { v := v, res := (((a.res : Int) + b.res - 64 * k) % 127).toNat, clamp := a.clamp || b.clamp }

/-- 2^s modulo 127, by s modulo 7 (R57). -/
def pow2Mod (s : Nat) : Nat := 2 ^ (s % 7)

/-- The aligned product of a cell with its carried residue and clamp mark (R52, R53, R57). -/
def cellProduct (bs8 : Bool) (anchor : Int) (x w : WElem) : Rod :=
  if x.e = 0 ∨ w.e = 0 then .zero
  else
    let s : Int := x.e + w.e - anchor - (if bs8 then 187 else 203)
    let p := x.m * w.m
    let r := x.r * w.r % 127
    let (a, r) :=
      if 0 ≤ s then (p * 2 ^ s.toNat, r * pow2Mod s.toNat % 127)
      else
        let d := (-s).toNat
        let a := p / 2 ^ d
        let dropped := (p - a * 2 ^ d) % 127
        (a, (((r : Int) - dropped) % 127).toNat * (64 ^ (d % 7)) % 127)
    if a < rodLo then ⟨rodLo, 111, true⟩
    else if rodHi < a then ⟨rodHi, 15, true⟩
    else ⟨a, r, false⟩

/-- The column sum of an input row at column n (R54): residues and clamp marks travel with it. -/
def columnSum (bs8 : Bool) (anchor : Int) (tile : Tile) (elems : List WElem) (n : Nat) : Rod :=
  (List.range 128).foldl (fun acc k =>
    let row := sparseGet ([] : TileRow) tile k
    if bs8 then
      rodAdd (rodAdd acc (cellProduct true anchor (elems.getD (2 * k) .zero) (sparseGet .zero row n)))
        (cellProduct true anchor (elems.getD (2 * k + 1) .zero) (sparseGet .zero row (128 + n)))
    else rodAdd acc (cellProduct false anchor (elems.getD k .zero) (sparseGet .zero row n))) .zero

/-- The measured anchor (R58). -/
def measuredAnchor (mx mw g : Nat) : Int := min (max ((mx : Int) + mw - 268 + g) (-512)) 511

/-! ## Baskets (R59–R62) -/

/-- The key of a basket slot. -/
def slotKey (row n : Nat) : Nat := row * 128 + n

/-- A basket slot. -/
def getSlotB (f : Frame) (row n : Nat) : Slot := sparseGet .empty f.basket (slotKey row n)

/-- Set a basket slot. -/
def setSlotB (f : Frame) (row n : Nat) (x : Slot) : Frame := { f with basket := sparseSet .empty f.basket (slotKey row n) x }

/-- What a consume carries in, and whether its anchor mismatched (R60, R61). -/
def consumed (x : Slot) (anchor : Int) : Rod × Bool :=
  if !x.occupied then (.zero, false)
  else if x.anchor = anchor then (⟨x.v, x.res, x.clamp⟩, false)
  else (.zero, true)

/-- A slot with an addend of an anchor, and whether the anchor mismatched (R60, R61). -/
def slotAdd (x : Slot) (r : Rod) (anchor : Int) : Slot × Bool :=
  if !x.occupied then ({ v := r.v, res := r.res, clamp := r.clamp, anchor := anchor, occupied := true }, false)
  else if x.anchor = anchor then
    let y := rodAdd ⟨x.v, x.res, x.clamp⟩ r
    ({ x with v := y.v, res := y.res, clamp := y.clamp }, false)
  else (x, true)

/-! ## Page bits -/

/-- The block of a frame's page (R458): 6 F, 7 G0, 8 G1. -/
def frameSub (f : Nat) : Nat := 6 + f

/-- The block of the FEEDER page. -/
def feederSub : Nat := 1

/-- The engine number of a frame (R209). -/
def engineFrame (f : Nat) : Nat := 1 + f

/-! ## Feeding rows (R51, R66, R75, R76) -/

/-- The input format of a pass. -/
def inFmtOf (d : PassDesc) : Fmt := (fmtOfCode4 d.inFmt).getD .bs16

/-- Elements of an input row (R46). -/
def rowElems (bs8 : Bool) : Nat := if bs8 then 256 else 128

/-- Elements per pantry line (R76). -/
def lineElems (fmt : Fmt) : Nat := 64 / fmtWidth fmt

/-- The beat of a pass, counted from b0, in which the mask bit of row i is read: with its first read of the row (R66, R76). -/
def maskBeat (d : PassDesc) (i : Nat) : Nat := if d.inTrans then i / lineElems (inFmtOf d) * lineElems (inFmtOf d) else i

/-- Whether row i of a pass is masked: as read, or as the bitmap stands for a row not read yet (R66). -/
def rowMasked (env : EngEnv) (p : PassRun) (i : Nat) : Bool :=
  p.d.maskEn && (if maskBeat p.d i + p.b0 < env.t then p.masked.contains i else env.maskBit p.d.maskAddr i)

/-- The rows whose mask bit is read in beat t. -/
def maskRows (p : PassRun) (t : Nat) : List Nat :=
  if p.refused || !p.d.maskEn then []
  else if p.d.inTrans then
    (let l := lineElems (inFmtOf p.d)
     if (t - p.b0) % l = 0 then ((List.range l).map (fun k => t - p.b0 + k)).filter (fun i => decide (i < p.limit)) else [])
  else if t - p.b0 < p.limit then [t - p.b0] else []

/-- The stored rows and line starts a transposed pass reads in beat t: the first column of the line and the reduction
indices (R76). -/
def transLines (p : PassRun) (t : Nat) : List (Nat × List Nat) :=
  let l := lineElems (inFmtOf p.d)
  let d := t - p.b0
  ((List.range (d / l + 1)).map (fun c => l * c)).filterMap (fun cl =>
    let r := d - cl
    if cl < p.limit then
      (if p.d.bs8 then (if r < 128 then some (cl, [2 * r, 2 * r + 1]) else none)
       else if r < 128 then some (cl, [r]) else none)
    else none)

/-- The pass rows one transposed line serves. -/
def lineRows (p : PassRun) (cl : Nat) : List Nat :=
  ((List.range (lineElems (inFmtOf p.d))).map (fun k => cl + k)).filter (fun i => decide (i < p.limit) && decide (p.first ≤ i))

/-- The address ranges the feeder reads for a pass in beat t (R76, R188). -/
def passReads (env : EngEnv) (p : PassRun) (t : Nat) : List (Nat × Nat) :=
  let d := p.d
  let fmt := inFmtOf d
  if p.refused || decide (t < p.b0) then []
  else
    let mask := (maskRows p t).map (fun i => (d.maskAddr + i / 8, 1))
    mask ++
    (if d.inTrans then
      (transLines p t).flatMap (fun c =>
        if (lineRows p c.1).all (rowMasked env p) then []
        else c.2.flatMap (fun r => rowRanges d.inAddr d.inExp fmt (r * d.inStride + c.1 * fmtWidth fmt) (lineElems fmt)))
    else
      let i := t - p.b0
      if i < p.limit ∧ !rowMasked env p i then rowRanges d.inAddr d.inExp fmt (i * d.inStride) (rowElems d.bs8) else [])

/-- Append raw elements to the rows of a transposed line (R75, R76). -/
def addTrans (env : EngEnv) (p : PassRun) (c : Nat × List Nat) : PassRun :=
  let d := p.d
  let fmt := inFmtOf d
  ((lineRows p c.1).filter (fun i => !rowMasked env p i)).foldl (fun p i =>
    let es := c.2.map (fun r => env.rawElem d.inAddr d.inExp fmt (r * d.inStride + i * fmtWidth fmt))
    { p with raw := sparseSet [] p.raw i (sparseGet [] p.raw i ++ es) }) p

/-- Convert a complete row and keep it for the rods (R47). -/
def finishRow (p : PassRun) (i : Nat) (raw : List (Nat × Nat)) : PassRun × Counts :=
  let (es, c) := convRaw p.d.bs8 (inFmtOf p.d) raw
  ({ p with rows := sparseSet ⟨true, []⟩ p.rows i ⟨false, es⟩, raw := sparseSet [] p.raw i [] }, c)

/-- Count the conversions of n elements by the feeder (R40, R472). -/
def feedCounts (tag : OpTag) (conv : Nat) (c : Counts) : List Eff :=
  [.counts tag.win ⟨c.nonfin, c.sat, 0⟩, .count feederSub Reg.feedConverted conv, .count feederSub Reg.feedNonfin c.nonfin,
   .count feederSub Reg.feedSat c.sat]

/-- The rows of a pass that are complete in beat t: the straight row of the beat, or the transposed rows whose last reduction
element has come. -/
def doneRows (env : EngEnv) (p : PassRun) : List (Nat × List (Nat × Nat)) :=
  if p.d.inTrans then p.raw.filter (fun r => decide (rowElems p.d.bs8 ≤ r.2.length))
  else
    let i := env.t - p.b0
    if i < p.limit ∧ !rowMasked env p i then
      [(i, env.rawRow p.d.inAddr p.d.inExp (inFmtOf p.d) (i * p.d.inStride) (rowElems p.d.bs8))] else []

/-- Feeding of a pass in beat t: mask bits, lines, conversions, and the row that enters (R51, R66). -/
def feedBeat (env : EngEnv) (f : Nat) (p : PassRun) : PassRun × Out :=
  if p.refused then (p, .none_)
  else
    let t := env.t
    let reads := passReads env p t
    let lines := dedup (rangeLines reads)
    let newMasked := (maskRows p t).filter (env.maskBit p.d.maskAddr)
    let p0 := if p.d.inTrans then (transLines p t).foldl (addTrans env) p else p
    let done := doneRows env p0
    let (p1, cs) := done.foldl (fun (a : PassRun × Counts) r =>
      let (q, c) := finishRow a.1 r.1 r.2
      (q, addCounts a.2 c)) (p0, noCounts)
    let conv := done.foldl (fun n r => n + convCount p.d.bs8 (inFmtOf p.d) r.2.length) 0
    let i := t - p.b0
    let enters := decide (i < p.limit) && decide (p.first ≤ i)
    let masked := enters && rowMasked env p i
    let p2 := { p1 with masked := p1.masked ++ newMasked, fed := if enters then i + 1 else p1.fed
                        sum_ := { p1.sum_ with maskedRows := p1.sum_.maskedRows + bit masked } }
    (p2, { writes := [], lines := tagLines false (engineFrame f) lines
           effs := effIf (env.beyondAny reads) (.err (frameSub f) errOutOfMap) ++ feedCounts p.tag conv cs ++
             [.count feederSub Reg.feedLines lines.length,
              .count feederSub Reg.feedTransLines (if p.d.inTrans then lines.length else 0),
              .count (frameSub f) Reg.frameRowsFed (bit (enters && !masked)),
              .count (frameSub f) Reg.frameRowsMasked (bit masked), .counts p.tag.win ⟨0, 0, bit masked⟩] })

/-! ## Rods, consumes and parks (R51, R60, R63) -/

/-- Whether a pass parks, and whether it drains (R50). -/
def parks (d : PassDesc) : Bool := d.rodOut == 1 || d.rodOut == 2

/-- Whether a pass drains. -/
def drains (d : PassDesc) : Bool := d.rodOut == 0 || d.rodOut == 2

/-- Consume a slot when the pass carries in: the carry, the frame after, and the mismatch effect. -/
def carryIn (f : Nat) (fr : Frame) (d : PassDesc) (anchor : Int) (row n : Nat) : Rod × Frame × List Eff :=
  if d.carry then
    let (r, bad) := consumed (getSlotB fr row n) anchor
    (r, setSlotB fr row n .empty, effIf bad (.err (frameSub f) 4))
  else (.zero, fr, [])

/-- Park a rod when the pass parks. -/
def parkOut (f : Nat) (fr : Frame) (d : PassDesc) (anchor : Int) (row n : Nat) (r : Rod) : Frame × List Eff :=
  if parks d then
    let (x, bad) := slotAdd (getSlotB fr row n) r anchor
    (setSlotB fr row n x, effIf bad (.err (frameSub f) 4))
  else (fr, [])

/-- Keep the rod of a column for the drain of its row. -/
def keepRod (p : PassRun) (row : Nat) (r : Rod) : PassRun :=
  { p with drainBuf := sparseSet [] p.drainBuf row (sparseGet [] p.drainBuf row ++ [r]) }

/-- The rod of column n in beat t (R51): row i's column sum arrives at b0 + i + n + 128. -/
def rodBeat (env : EngEnv) (f : Nat) (fr : Frame) (p : PassRun) (n : Nat) : Frame × PassRun × List Eff :=
  if env.t < p.b0 + n + 128 then (fr, p, [])
  else
    let i := env.t - p.b0 - n - 128
    let d := p.d
    if p.limit ≤ i ∨ i < p.first then (fr, p, [])
    else
      let row := sparseGet ⟨true, []⟩ p.rows i
      let sum := if row.masked then Rod.zero
        else columnSum d.bs8 p.anchor (sparseGet [] fr.tiles p.gen) row.elems n
      if d.sum then
        let (c, fr, e1) := if i = 0 then carryIn f fr d p.anchor d.basketBase n else (p.sums.getD n .zero, fr, [])
        let r := rodAdd c sum
        let p := { p with sums := if n < p.sums.length then listSet p.sums n r else p.sums ++ [r] }
        if i + 1 = d.rows then
          let (fr, e2) := parkOut f fr d p.anchor d.basketBase n r
          (fr, keepRod p 0 r, e1 ++ e2)
        else (fr, p, e1)
      else if row.masked then (fr, p, [])
      else
        let (c, fr, e1) := carryIn f fr d p.anchor (d.basketBase + i) n
        let r := rodAdd c sum
        let (fr, e2) := parkOut f fr d p.anchor (d.basketBase + i) n r
        (fr, keepRod p i r, e1 ++ e2)

/-! ## Drains (R64–R66) -/

/-- The drain format of a pass. -/
def outFmtOf (d : PassDesc) : Fmt := (fmtOfCode4 d.outFmt).getD .bs16

/-- One drained element on its way: its exact value, whether its rod was clamped, and whether its residue agreed (R64, R65). -/
structure DrainElem where
  x : Exact
  sat : Bool
  ok : Bool
deriving DecidableEq, Repr

/-- Steps 1 and 2 of R64, and the check of R65. -/
def drainElem (anchor : Int) (r : Rod) : DrainElem :=
  let i := min (max r.v rodLo) rodHi
  { x := ⟨i, anchor - 79⟩, sat := r.clamp || decide (i ≠ r.v), ok := decide ((r.v % 127).toNat = r.res) }

/-- One converted element: its stored bits, its stored exact value, its form for the digest, its exponent and whether it
overflowed its target (R64, R284). -/
structure StoredElem where
  vbits : Nat
  x : Exact
  exp : Nat
  exceeds : Bool
deriving DecidableEq, Repr

/-- The conversion of a drained block of 32 values to its target (R38, R39, R64), with the rounding of each: the stored
elements, the bytes of the elements and the exponent byte of a BS16 block. -/
def drainConvert (fmt : Fmt) (xs : List (Exact × Rounding)) : List StoredElem × List Byte × List Byte :=
  match fmt with
  | .bf16 =>
    let ys := xs.map (fun x => let b := toBf16 x.2 (fvalOfExact x.1)
      ({ vbits := b.1.toNat, x := exactOfFval (fp32Val (bf16Widen b.1)), exp := bits b.1.toNat 14 7, exceeds := decide (0 < b.2) } : StoredElem))
    (ys, ys.flatMap (fun y => bytesLE 2 y.vbits), [])
  | .fp32 =>
    let ys := xs.map (fun x => let b := toFp32 x.2 (fvalOfExact x.1)
      ({ vbits := b.1.toNat, x := exactOfFval (fp32Val b.1), exp := bits b.1.toNat 30 23, exceeds := decide (0 < b.2) } : StoredElem))
    (ys, ys.flatMap (fun y => bytesLE 4 y.vbits), [])
  | _ =>
    let vs := xs.map (fun x => fvalOfExact x.1)
    let (e, exceeds) := blockExp bs16Params vs
    let ys := xs.map (fun x => let m := blockMant bs16Params e exceeds x.2 (fvalOfExact x.1)
      ({ vbits := ofSigned 16 m.1, x := blockVal bs16Params m.1 e, exp := e, exceeds := decide (0 < m.2.sat) } : StoredElem))
    (ys, ys.flatMap (fun y => bytesLE 2 y.vbits), [BitVec.ofNat 8 e])

/-- The form and vbits of a digest term (R284). -/
def digestForm (fmt : Fmt) (y : StoredElem) : Nat × Nat :=
  match fmt with
  | .bs16 => (0, y.exp * 2 ^ 16 + y.vbits)
  | .bs8 => (1, y.exp * 2 ^ 8 + y.vbits)
  | .bf16 => (2, y.vbits)
  | .fp32 => (3, y.vbits)
  | .split => (4, y.vbits)

/-- The digest effects of a written group of elements whose first logical index is idx (R283, R284). -/
def digestEffs (tensor : W32) (fmt : Fmt) (idx : Nat) (ys : List StoredElem) : List Eff :=
  if digestSlot tensor = 0 then []
  else ys.zipIdx.map (fun y =>
    let (fo, vb) := digestForm fmt y.1
    .digest (digestSlot tensor) (digestTerm tensor fo vb (BitVec.ofNat 64 (idx + y.2))))

/-- The drained block (output row, block) of a pass in beat t, for block j (R51, R63). -/
def drainRow (p : PassRun) (t j : Nat) : Option Nat :=
  if p.refused || !drains p.d || decide (t < p.b0 + 32 * j + 160) then none
  else
    let i := t - p.b0 - 32 * j - 160
    if i < p.first then none
    else if p.d.sum then (if i + 1 = p.d.rows ∧ p.d.rows ≤ p.limit then some 0 else none)
    else if i < p.limit then some i else none

/-- The address ranges a pass writes in beat t, as far as it can be told beforehand (R64, R188). -/
def passWrites (env : EngEnv) (p : PassRun) (t : Nat) : List (Nat × Nat) :=
  let d := p.d
  let w := fmtWidth (outFmtOf d)
  (List.range 4).flatMap (fun j =>
    match drainRow p t j with
    | none => []
    | some oi =>
      if !d.sum && rowMasked env p oi && !d.zeroFill then []
      else (d.outAddr + oi * d.outStride + 32 * w * j, 32 * w) ::
        (if d.outFmt = 0 then [(d.outExp + 4 * oi + j, 1)] else []))

/-- Whether the injection or an upset of the beat meets the drain of column n: bit 0 of its carried residue is inverted
(R65, R68). -/
def rodUpset (env : EngEnv) (f : Nat) (fr : Frame) (n : Nat) : Bool :=
  fr.inject == some n || env.ups.any (fun u => match u with
    | .rodResidue l g c => decide (l.val = env.lh) && decide (g.val = f) && decide (c.val = n)
    | _ => false)

/-- Whether an upset of the beat makes the shift adders of a column disagree (R57). -/
def shiftUpset (env : EngEnv) (f n : Nat) : Bool :=
  env.ups.any (fun u => match u with
    | .shiftAdders l g c => decide (l.val = env.lh) && decide (g.val = f) && decide (c.val = n)
    | _ => false)

/-- The drain of block j of a pass in beat t (R64–R66). -/
def drainBeat (env : EngEnv) (f : Nat) (fr : Frame) (p : PassRun) (j : Nat) : Frame × PassRun × Out :=
  match drainRow p env.t j with
  | none => (fr, p, .none_)
  | some oi =>
    let d := p.d
    let zero := !d.sum && rowMasked env p oi
    if zero && !d.zeroFill then (fr, p, .none_)
    else
      let fmt := outFmtOf d
      let idx := d.idxBase + oi * d.idxRow + 32 * j
      let rods := (sparseGet [] p.drainBuf oi)
      let cols := (List.range 32).map (fun k => 32 * j + k)
      let es := cols.map (fun n =>
        if zero then ({ x := exactZero, sat := false, ok := true } : DrainElem)
        else
          let r := rods.getD n .zero
          drainElem p.anchor (if rodUpset env f fr n then { r with res := r.res ^^^ 1 } else r))
      let rnd := fun (k : Nat) => if d.sr then Rounding.sr (genSr env.seed d.tensor p.tag.gstep (BitVec.ofNat 64 (idx + k))) else .rne
      let (ys, bytes, eb) := drainConvert fmt (es.zipIdx.map (fun e => (e.1.x, rnd e.2)))
      let nsat := (es.zip ys).countP (fun e => e.1.sat || e.2.exceeds)
      let fails := es.countP (fun e => !e.ok)
      let maxe := ys.foldl (fun m y => Nat.max m y.exp) 0
      let w := fmtWidth fmt
      let a := d.outAddr + oi * d.outStride + 32 * w * j
      let prio := 4 + f
      let writes := { prio := prio, addr := a, data := bytes } ::
        (if eb.isEmpty then [] else [({ prio := prio, addr := d.outExp + 4 * oi + j, data := eb } : PWrite)])
      let ranges := (a, 32 * w) :: (if eb.isEmpty then [] else [(d.outExp + 4 * oi + j, 1)])
      let armed := !zero && (match fr.inject with
        | some n => cols.contains n
        | none => false)
      let s := p.sum_
      ({ fr with inject := if armed then none else fr.inject },
       { p with sum_ := { s with maxExp := Nat.max s.maxExp maxe, satFlag := s.satFlag || decide (0 < nsat)
                                 satCount := s.satCount + nsat, residue := s.residue || decide (0 < fails) } },
       { writes := writes, lines := tagLines true (engineFrame f) (rangeLines ranges)
         effs := effIf (env.beyondAny ranges) (.err (frameSub f) errOutOfMap) ++
           [.counts p.tag.win ⟨0, nsat, 0⟩, .count (frameSub f) Reg.frameSatCount nsat] ++
           effIf (decide (0 < nsat)) (.reg (frameSub f) Reg.frameSatFlag 1) ++
           (if fails = 0 then [] else [.err (frameSub f) 5, .count (frameSub f) Reg.frameResidueFails fails, .fail]) ++
           (if d.squares && !zero then ys.map (fun y => .square y.x) else []) ++
           digestEffs d.tensor fmt idx ys })

/-! ## A pass and a frame in a beat -/

/-- The last beat of a pass, b0 + Q + 255 (R51). -/
def passLast (p : PassRun) : Nat := p.b0 + p.d.rows + 255

/-- Whether a pass still has work: not posted, and, where its feeding was cut, the rows it was fed not yet out (R67). -/
def passBusy (p : PassRun) (t : Nat) : Bool :=
  !p.done && (p.refused || decide (p.limit = p.d.rows) || decide (t ≤ p.b0 + p.limit + 255))

/-- The work of a pass in beat t (R51). -/
def passBeat (env : EngEnv) (f : Nat) (fr : Frame) (p : PassRun) : Frame × PassRun × Out :=
  if p.refused then (fr, p, .none_)
  else
    let (p, o1) := feedBeat env f p
    let (fr, p, e2) := (List.range 128).foldl (fun (a : Frame × PassRun × List Eff) n =>
      let (fr, p, e) := rodBeat env f a.1 a.2.1 n
      (fr, p, a.2.2 ++ e)) (fr, p, [])
    let (fr, p, o3) := (List.range 4).foldl (fun (a : Frame × PassRun × Out) j =>
      let (fr, p, o) := drainBeat env f a.1 a.2.1 j
      (fr, p, a.2.2.app o)) (fr, p, .none_)
    let shift := (List.range 128).countP (fun n => shiftUpset env f n && decide (p.b0 ≤ env.t))
    let p := { p with sum_ := { p.sum_ with residue := p.sum_.residue || decide (0 < shift) }
                      rows := p.rows.filter (fun r => decide (env.t < p.b0 + r.1 + 255))
                      drainBuf := p.drainBuf.filter (fun r => p.d.sum || decide (env.t < p.b0 + r.1 + 256)) }
    (fr, p, (o1.app (.eff e2)).app (o3.app (.eff (if shift = 0 then [] else
      [.err (frameSub f) 6, .count (frameSub f) Reg.frameResidueFails shift, .fail]))))

/-- Post the summary of a pass in its last beat (R165). -/
def postPass (f : Nat) (p : PassRun) : PassRun × Out :=
  let d : DrainSum := if p.refused then { DrainSum.zero with malformed := true } else p.sum_
  ({ p with done := true }, .eff [.drainSum f p.tag.win d, .count (frameSub f) Reg.framePasses (bit (!p.refused))])

/-! ## Swap wave (R49) -/

/-- The cells of a wave of beat b0 that swap in beat t: cell row k and column n with k + n = t − b0. -/
def waveCells (b0 t : Nat) : List (Nat × Nat) :=
  (List.range 128).filterMap (fun k => if k ≤ t - b0 ∧ t - b0 - k < 128 then some (k, t - b0 - k) else none)

/-- Copy cell (k, n) of the shadow into a tile. -/
def copyCell (shadow tile : Tile) (k n : Nat) : Tile :=
  let s := sparseGet ([] : TileRow) shadow k
  let r := sparseGet ([] : TileRow) tile k
  let r := sparseSet .zero r n (sparseGet .zero s n)
  let r := sparseSet .zero r (128 + n) (sparseGet .zero s (128 + n))
  sparseSet [] tile k r

/-- The swap waves of a frame in beat t: each copies what the shadow holds at the start of the beat. -/
def waveBeat (fr : Frame) (t : Nat) : Frame :=
  let tiles := fr.waves.foldl (fun ts w =>
    let tile := (waveCells w.2 t).foldl (fun tl c => copyCell fr.shadow tl c.1 c.2) (sparseGet [] ts w.1)
    sparseSet [] ts w.1 tile) fr.tiles
  { fr with tiles := tiles, waves := fr.waves.filter (fun w => decide (t < w.2 + 254)) }

/-! ## Weight loads (R48, R78) -/

/-- The largest exponent of converted elements. -/
def maxExpOf (es : List WElem) : Nat := es.foldl (fun m e => Nat.max m e.e) 0

/-- Cell row k of the shadow from the converted elements of its logical rows. -/
def shadowRow (es : List WElem) : TileRow :=
  es.zipIdx.foldl (fun r e => sparseSet .zero r e.2 e.1) []

/-- The logical rows that cell row c receives (R46, R48). -/
def loadRows (bs8 : Bool) (c : Nat) : List Nat := if bs8 then [2 * c, 2 * c + 1] else [c]

/-- The address ranges a straight load reads in beat t (R48, R188). -/
def loadReads (l : LoadRun) (t : Nat) : List (Nat × Nat) :=
  if l.refused || l.buf.isSome || decide (t < l.b0) || decide (l.b0 + 128 ≤ t) then []
  else (loadRows l.bs8 (t - l.b0)).flatMap (fun k => rowRanges l.addr l.exp l.fmt (k * l.stride) 128)

/-- The raw elements of logical row k of a load: from the pantry, or stored elements (n, k) of its turning buffer (R78). -/
def loadRaw (env : EngEnv) (fr : Frame) (l : LoadRun) (k : Nat) : List (Nat × Nat) :=
  match l.buf with
  | none => env.rawRow l.addr l.exp l.fmt (k * l.stride) 128
  | some b =>
    let tb := if b = 0 then fr.t0 else fr.t1
    (List.range 128).map (fun n => (sparseGet ([] : List (Nat × Nat)) tb.rows n).getD k (0, 0))

/-- The work of a weight load in beat t: one cell row of the shadow at the end of the beat (R48). -/
def loadBeat (env : EngEnv) (f : Nat) (fr : Frame) (l : LoadRun) : Frame × Out :=
  if l.refused || l.ran || decide (env.t < l.b0) || decide (l.b0 + 128 ≤ env.t) then (fr, .none_)
  else
    let c := env.t - l.b0
    let rs := (loadRows l.bs8 c).map (fun k => convRaw l.bs8 l.fmt (loadRaw env fr l k))
    let es := rs.flatMap (·.1)
    let cs := rs.foldl (fun a r => addCounts a r.2) noCounts
    let mw := maxExpOf es
    let reads := loadReads l env.t
    let lines := dedup (rangeLines reads)
    ({ fr with shadow := sparseSet [] fr.shadow c (shadowRow es), shadowMw := Nat.max fr.shadowMw mw
               mw := if fr.loadSinceSwap then fr.mw else sparseSet 0 fr.mw fr.gen (Nat.max (sparseGet 0 fr.mw fr.gen) mw) },
     { writes := [], lines := tagLines false (engineFrame f) lines
       effs := effIf (env.beyondAny reads) (.err (frameSub f) errOutOfMap) ++
         feedCounts l.tag (convCount l.bs8 l.fmt es.length) cs ++ [.count feederSub Reg.feedLines lines.length] })

/-! ## Turning buffers (R77) -/

/-- The address ranges a TURN reads in beat t. -/
def turnReads (u : TurnRun) (t : Nat) : List (Nat × Nat) :=
  if u.refused || u.ran || decide (t < u.b0) || decide (u.b0 + 128 ≤ t) then []
  else rowRanges u.addr u.exp u.fmt ((t - u.b0) * u.stride) (rowElems u.bs8)

/-- Apply a function to a turning buffer. -/
def modBuf (fr : Frame) (b : Nat) (g : TurnBuf → TurnBuf) : Frame :=
  if b = 0 then { fr with t0 := g fr.t0 } else { fr with t1 := g fr.t1 }

/-- The work of a TURN in beat t: one stored row, copied without conversion (R77). -/
def turnBeat (env : EngEnv) (f : Nat) (fr : Frame) (u : TurnRun) : Frame × Out :=
  let reads := turnReads u env.t
  if reads.isEmpty then (fr, .none_)
  else
    let n := env.t - u.b0
    let raw := env.rawRow u.addr u.exp u.fmt (n * u.stride) (rowElems u.bs8)
    let lines := dedup (rangeLines reads)
    (modBuf fr u.buf (fun b => { b with rows := sparseSet [] b.rows n raw }),
     { writes := [], lines := tagLines false (engineFrame f) lines
       effs := effIf (env.beyondAny reads) (.err (frameSub f) errOutOfMap) ++ [.count feederSub Reg.feedLines lines.length] })

/-! ## A frame's beat -/

/-- The work of a frame in beat t, but for completions already posted: loads and turns read, passes feed, sum, park and drain
(R51), and each wave swaps (R49). The shadow changes at the end of the beat, after the swaps of the beat. -/
def frameBeat (env : EngEnv) (f : Nat) (fr : Frame) : Frame × Out :=
  let fr := waveBeat fr env.t
  let (fr, ps, o1) := fr.passes.foldl (fun (a : Frame × List PassRun × Out) p =>
    if passBusy p env.t then
      let (fr, p, o) := passBeat env f a.1 p
      (fr, a.2.1 ++ [p], a.2.2.app o)
    else (a.1, a.2.1 ++ [p], a.2.2)) (fr, [], .none_)
  let fr := { fr with passes := ps }
  let (fr, o2) := fr.loads.foldl (fun (a : Frame × Out) l =>
    if l.done then a else let (fr, o) := loadBeat env f a.1 l; (fr, a.2.app o)) (fr, .none_)
  let (fr, o3) := fr.turns.foldl (fun (a : Frame × Out) u =>
    if u.done then a else let (fr, o) := turnBeat env f a.1 u; (fr, a.2.app o)) (fr, .none_)
  (fr, (o1.app o2).app o3)

/-- A frame as beat t ends: what was completed in it leaves, and tiles no pass uses any more are dropped (R45). -/
def frameEnd (fr : Frame) : Frame :=
  let ps := fr.passes.filter (fun p => !p.done)
  let keep := fun (g : Nat) => g == fr.gen || ps.any (fun p => p.gen == g) || fr.waves.any (fun w => w.1 == g)
  { fr with passes := ps, loads := fr.loads.filter (fun l => !l.done), turns := fr.turns.filter (fun u => !u.done)
            tiles := fr.tiles.filter (fun x => keep x.1), mw := fr.mw.filter (fun x => keep x.1)
            modes := fr.modes.filter (fun x => keep x.1) }

/-! ## Starts -/

/-- A pass that runs its beats only and posts MALFORMED (R20, R165). -/
def refusedPass (b0 : Nat) (d : PassDesc) (tag : OpTag) : PassRun :=
  { b0 := b0, d := d, refused := true, anchor := 0, gen := 0, limit := d.rows, first := 0, fed := 0, raw := [], rows := []
    sums := [], drainBuf := [], masked := [], sum_ := .zero, done := false, tag := tag }

/-- Whether a pass descriptor is malformed by its own fields (R20, R47, R50, R60, R75, R168). -/
def passBad (d : PassDesc) (addr : Nat) (mode : Bool) : Bool :=
  decide (addr % 64 ≠ 0) || d.reserved || decide (d.rows = 0) || decide (d.rodOut = 3) ||
  !modeTakes d.bs8 (fmtOfCode4 d.inFmt) || !(d.outFmt == 0 || d.outFmt == 2 || d.outFmt == 3) || (d.bs8 != mode) ||
  (d.inTrans && (decide (d.inAddr % 64 ≠ 0) || decide (d.inStride % 64 ≠ 0))) ||
  (!d.sum && (d.carry || parks d) && decide (128 < d.basketBase + d.rows))

/-- Start a pass in beat b0 = t (R49–R51, R168, R176). mx is the value of MX_REG at the start of the beat. -/
def startPass (env : EngEnv) (f : Nat) (fr : Frame) (addr : Nat) (tag : OpTag) (sregs : Vector Word 32) : Frame × Out :=
  let d := readPassDesc env addr
  let b0 := env.t
  let lines := tagLines false (engineFrame f) (linesOf addr 64)
  let oob := effIf (env.beyond addr 64) (.err (frameSub f) errOutOfMap)
  if tag.win && decide (tag.winEnd < b0 + d.rows + 255) then (fr, { writes := [], lines := lines, effs := oob ++ [.err 0 3] })
  else
    let mode := if d.swap then fr.shadowBs8 else sparseGet false fr.modes fr.gen
    let exceeds := match fr.lastPass with
      | some (b, q) => decide (b0 < b + q)
      | none => false
    if passBad d addr mode || exceeds then
      ({ fr with passes := fr.passes ++ [refusedPass b0 d tag] },
       { writes := [], lines := lines, effs := oob ++ [.err (frameSub f) 0] ++ effIf exceeds (.err (frameSub f) 1) })
    else
      let early := !fr.loadSinceSwap || (match fr.lastLoad with
        | some l0 => decide (b0 ≤ l0)
        | none => true)
      let fr := if d.swap then
          { fr with gen := fr.gen + 1, modes := sparseSet false fr.modes (fr.gen + 1) fr.shadowBs8
                    mw := sparseSet 0 fr.mw (fr.gen + 1) fr.shadowMw, shadowValid := false, loadSinceSwap := false
                    lastSwap := some b0, waves := fr.waves ++ [(fr.gen + 1, b0)] }
        else fr
      let a := if d.meas then measuredAnchor ((sregs[d.mxReg]).toNat % 256) (sparseGet 0 fr.mw fr.gen) d.guard else d.anchor
      let p : PassRun := { refusedPass b0 d tag with refused := false, anchor := a, gen := fr.gen }
      ({ fr with passes := fr.passes ++ [p], lastPass := some (b0, d.rows) },
       { writes := [], lines := lines
         effs := oob ++ effIf (d.swap && early) (.err (frameSub f) 2) ++ [.reg (frameSub f) Reg.frameAnchor (ofSigned 10 a)] })

/-- Start a weight load in beat l0 = t (R48, R49, R78, R169, R176). -/
def startLoad (env : EngEnv) (f : Nat) (fr : Frame) (addr : Nat) (tag : OpTag) : Frame × Out :=
  let d := readTileDesc env addr
  let l0 := env.t
  let lines := tagLines false (engineFrame f) (linesOf addr 32)
  let oob := effIf (env.beyond addr 32) (.err (frameSub f) errOutOfMap)
  if tag.win && decide (tag.winEnd < l0 + 127) then (fr, { writes := [], lines := lines, effs := oob ++ [.err 0 3] })
  else
    let tb := if d.buf = 0 then fr.t0 else fr.t1
    let fmt := if d.trans then some tb.fmt else fmtOfCode4 d.fmt
    let bad := decide (addr % 32 ≠ 0) || d.reserved || !modeTakes d.bs8 fmt ||
      (d.trans && (match tb.turned with
        | none => true
        | some t0 => decide (l0 < t0 + 128) || (tb.bs8 != d.bs8)))
    let l : LoadRun := { b0 := l0, bs8 := d.bs8, buf := if d.trans then some d.buf else none, addr := d.addr, exp := d.exp
                         stride := d.stride, fmt := fmt.getD .bs16, refused := bad, ran := false, done := false, tag := tag }
    if bad then ({ fr with loads := fr.loads ++ [l] }, { writes := [], lines := lines, effs := oob ++ [.err (frameSub f) 0] })
    else if (match fr.lastSwap with
      | some bs => decide (l0 < bs + 127)
      | none => false) then (fr, { writes := [], lines := lines, effs := oob ++ [.err (frameSub f) 3] })
    else
      let fr := { fr with loads := fr.loads ++ [l], shadowBs8 := d.bs8, shadowMw := 0, shadowValid := true
                          lastLoad := some l0, loadSinceSwap := true }
      (if d.trans then modBuf fr d.buf (fun b => { b with loaded := some l0 }) else fr,
       { writes := [], lines := lines, effs := oob })

/-- Start a TURN in beat t0 = t (R77, R78, R169, R176). -/
def startTurn (env : EngEnv) (f : Nat) (fr : Frame) (addr : Nat) (tag : OpTag) : Frame × Out :=
  let d := readTileDesc env addr
  let t0 := env.t
  let lines := tagLines false (engineFrame f) (linesOf addr 32)
  let oob := effIf (env.beyond addr 32) (.err (frameSub f) errOutOfMap)
  if tag.win && decide (tag.winEnd < t0 + 127) then (fr, { writes := [], lines := lines, effs := oob ++ [.err 0 3] })
  else
    let tb := if d.buf = 0 then fr.t0 else fr.t1
    let bad := decide (addr % 32 ≠ 0) || d.reserved || d.trans || !modeTakes d.bs8 (fmtOfCode4 d.fmt) ||
      (match tb.loaded with
        | some l0 => decide (t0 < l0 + 128)
        | none => false)
    let fmt := (fmtOfCode4 d.fmt).getD .bs16
    let u : TurnRun := { b0 := t0, buf := d.buf, bs8 := d.bs8, addr := d.addr, exp := d.exp, stride := d.stride, fmt := fmt
                         refused := bad, ran := false, done := false, tag := tag }
    let fr := { fr with turns := fr.turns ++ [u] }
    (if bad then fr
     else modBuf fr d.buf (fun b => { b with rows := [], turned := some t0, bs8 := d.bs8, fmt := fmt }),
     { writes := [], lines := lines, effs := oob ++ effIf bad (.err (frameSub f) 0) })

/-! ## Merges into a basket (R61, R62) -/

/-- Add a merged basket row slot by slot; the frame after, and whether an anchor mismatched. -/
def mergeRow (fr : Frame) (row : Nat) (slots : List (Nat × Slot)) : Frame × Bool :=
  slots.foldl (fun (a : Frame × Bool) x =>
    if x.2.occupied then
      let (y, bad) := slotAdd (getSlotB a.1 row x.1) ⟨x.2.v, x.2.res, x.2.clamp⟩ x.2.anchor
      (setSlotB a.1 row x.1 y, a.2 || bad)
    else a) (fr, false)

/-- The registers of FRAME_STATE (R69) in beat t. -/
def frameState (fr : Frame) (t : Nat) : Nat :=
  let act := fr.passes.any (fun p => !p.refused && decide (p.b0 ≤ t) && decide (t < p.b0 + p.limit))
  let dr := fr.passes.any (fun p => !p.refused && passBusy p t)
  let ld := fr.loads.any (fun l => !l.refused && !l.done)
  bit act + 2 * bit dr + 4 * bit ld + 8 * bit fr.shadowValid + 16 * bit (sparseGet false fr.modes fr.gen)

end Sys2Proof.Machine
end

