-- ==== Sys2Proof/Machine/Recipes.lean ====
section
/-!
DEFINITION. Machine/Recipes.lean: the instruction word of recipes, the commit checks, the lane arithmetic, and the recipe
stores (04_vector_recipes.md, R102–R108; 05_update_units.md, R131, R132).
-/
namespace Sys2Proof.Machine

/-- A recipe instruction (R102). -/
structure RInstr where
  op : Nat
  dst : Nat
  a : Nat
  b : Nat
  c : Nat
  pred : Nat
  aux : Nat
deriving DecidableEq, Repr

/-- The fields of a recipe word (R102). -/
def rdecode (w : W32) : RInstr :=
  let n := w.toNat
  { op := bits n 31 26, dst := bits n 25 22, a := bits n 21 17, b := bits n 16 12, c := bits n 11 7, pred := bits n 6 4
    aux := bits n 3 0 }

/-- What kind of register DST names (R104). -/
inductive RKind where
  | none_ | v | p | q
deriving DecidableEq, Repr

/-- The destination kind of an opcode and which of A, B, C and AUX it uses (R104). -/
def ruse (op : Nat) : RKind × Bool × Bool × Bool × Bool :=
  if op = 0x01 then (.v, false, false, false, true)
  else if op = 0x02 then (.none_, true, false, false, true)
  else if op = 0x03 then (.p, false, false, false, false)
  else if op = 0x04 ∨ (0x0E ≤ op ∧ op ≤ 0x14) then (.v, true, false, false, false)
  else if op = 0x08 ∨ op = 0x09 then (.v, true, true, true, false)
  else if (0x05 ≤ op ∧ op ≤ 0x0D) ∨ op = 0x17 then (.v, true, true, false, false)
  else if op = 0x15 then (.p, true, true, false, true)
  else if op = 0x16 then (.v, true, true, false, true)
  else if op = 0x18 then (.v, false, false, false, true)
  else if op = 0x19 then (.q, true, false, false, true)
  else if op = 0x1A then (.none_, true, false, false, false)
  else if op = 0x1B then (.none_, true, true, false, true)
  else (.none_, false, false, false, false)

/-- The v registers an instruction reads (R104). -/
def rReadsV (i : RInstr) : List Nat :=
  let (_, ua, ub, uc, _) := ruse i.op
  (if ua && decide (i.a < 16) then [i.a] else []) ++ (if ub && decide (i.b < 16) then [i.b] else []) ++
  (if uc && decide (i.c < 16) then [i.c] else [])

/-- The p registers an instruction reads: PRED, and p(AUX) of SEL. -/
def rReadsP (i : RInstr) : List Nat :=
  (if i.pred % 4 ≠ 0 then [i.pred % 4] else []) ++ (if i.op = 0x16 ∧ 1 ≤ i.aux ∧ i.aux ≤ 3 then [i.aux] else [])

/-- The q registers an instruction reads. -/
def rReadsQ (i : RInstr) : List Nat :=
  let (_, ua, ub, uc, _) := ruse i.op
  let q := fun (u : Bool) (s : Nat) => if u && decide (24 ≤ s) && decide (s ≤ 27) then [s - 24] else []
  q ua i.a ++ q ub i.b ++ q uc i.c

/-- The phase number of each instruction: how many PHASE instructions stand before it (R96). -/
def phaseNos : Nat → List RInstr → List Nat
  | _, [] => []
  | n, i :: t => n :: phaseNos (if i.op = 0x1C then n + 1 else n) t

/-- Whether one instruction passes a check of R105 or R131 that looks at instructions one by one. -/
def checkOne (update : Bool) (chk : Nat) (i : RInstr) : Bool :=
  let (k, ua, ub, uc, ux) := ruse i.op
  match chk with
  | 2 => decide (i.op ≤ 0x1C)
  | 3 => (ua || i.a == 0) && (ub || i.b == 0) && (uc || i.c == 0) && (ux || i.aux == 0)
  | 4 => match k with
    | .p => decide (1 ≤ i.dst) && decide (i.dst ≤ 3)
    | .q => decide (i.dst ≤ 3)
    | .none_ => i.dst == 0
    | .v => true
  | 5 => i.pred != 4 && (i.pred == 0 ||
      !(i.op == 0 || i.op == 1 || i.op == 2 || i.op == 3 || i.op == 0x18 || i.op == 0x1B || i.op == 0x1C))
  | 6 =>
    if i.op = 0x01 then decide (i.aux ≤ 3)
    else if i.op = 0x02 then (if update then decide (i.aux % 4 ≤ 2) && decide (i.aux < 8) else decide (i.aux ≤ 3))
    else if i.op = 0x15 then decide (i.aux ≤ 7)
    else if i.op = 0x16 then decide (1 ≤ i.aux) && decide (i.aux ≤ 3)
    else if i.op = 0x19 then decide (i.aux ≤ 3)
    else if i.op = 0x1B then decide (i.aux ≤ 5)
    else true
  | 9 => i.op != 0x1B || (decide (16 ≤ i.a) && decide (16 ≤ i.b))
  | 12 => (decide (i.op ≤ 2) || (decide (4 ≤ i.op) && decide (i.op ≤ 0x16))) && (rReadsQ i).isEmpty
  | _ => true

/-- The index of the first instruction that breaks check 7, with the v and p registers written so far in the phase. -/
def check7 : Nat → List Nat → List Nat → List RInstr → Option Nat
  | _, _, _, [] => none
  | n, vs, ps, i :: t =>
    if i.op = 0x1C then check7 (n + 1) [] [] t
    else if !((rReadsV i).all vs.contains && (rReadsP i).all ps.contains) then some n
    else match (ruse i.op).1 with
      | .v => if vs.contains i.dst then check7 (n + 1) vs ps t
        else if i.pred ≠ 0 then some n else check7 (n + 1) (i.dst :: vs) ps t
      | .p => if ps.contains i.dst then check7 (n + 1) vs ps t
        else if i.pred ≠ 0 then some n else check7 (n + 1) vs (i.dst :: ps) t
      | _ => check7 (n + 1) vs ps t

/-- The index of the first instruction that satisfies a predicate on its index and itself. -/
def firstIdx (f : Nat → RInstr → Bool) : Nat → List RInstr → Option Nat
  | _, [] => none
  | n, i :: t => if f n i then some n else firstIdx f (n + 1) t

/-- The index of the first instruction that breaks check 8: each q register written by one RED, and read only in later phases. -/
def check8 (is : List RInstr) : Option Nat :=
  let ph := (phaseNos 0 is)
  let reds := (is.zipIdx).filterMap (fun x => if x.1.op = 0x19 then some (x.1.dst, ph.getD x.2 0, x.2) else none)
  firstIdx (fun n i =>
    (i.op == 0x19 && reds.any (fun r => r.1 == i.dst && decide (r.2.2 < n))) ||
    (rReadsQ i).any (fun q => match reds.find? (fun r => r.1 == q) with
      | some r => decide (ph.getD n 0 ≤ r.2.1)
      | none => true)) 0 is

/-- The index of the first instruction that breaks check 10. -/
def check10 (is : List RInstr) : Option Nat :=
  firstIdx (fun n i =>
    i.op == 0x1C && (n == 0 || n + 1 == is.length || decide (3 < ((is.take (n + 1)).countP (fun x => x.op == 0x1C))) ||
      (match is[n - 1]? with
        | some x => x.op == 0x1C
        | none => false))) 0 is

/-- The index of the first instruction that breaks a check (R105, R131). -/
def checkIdx (update : Bool) (chk : Nat) (is : List RInstr) : Option Nat :=
  match chk with
  | 7 => check7 0 [] [] is
  | 8 => check8 is
  | 10 => check10 is
  | 11 => firstIdx (fun n i => i.op == 0x1A && (is.take n).any (fun x => x.op == 0x1A)) 0 is
  | 13 => firstIdx (fun n i => i.op == 2 && (is.take n).any (fun x => x.op == 2 && x.aux % 4 == i.aux % 4)) 0 is
  | c => firstIdx (fun _ i => !checkOne update c i) 0 is

/-- The checks of a commit in order: R105, or those of R131. -/
def checksOf (update : Bool) : List Nat := if update then [2, 3, 4, 5, 6, 7, 12, 13] else [2, 3, 4, 5, 6, 7, 8, 9, 10, 11]

/-- The first failing check of a recipe and the instruction that fails it (R105). -/
def checkRecipe (update : Bool) (words : List W32) (length : Nat) : Option (Nat × Nat) :=
  if length = 0 ∨ 32 < length then some (1, 0)
  else
    let is := (words.take length).map rdecode
    (checksOf update).foldl (fun r c => match r with
      | some x => some x
      | none => (checkIdx update c is).map (fun n => (c, n))) none

/-! ## Recipe stores (R106, R132) -/

/-- A word of a slot. -/
def slotWord (r : RecipeStore) (slot i : Nat) : W32 := sparseGet 0 r.words (slot * 32 + i)

/-- The first n words of a slot. -/
def slotWords (r : RecipeStore) (slot n : Nat) : List W32 := (List.range n).map (slotWord r slot)

/-- The length of a valid slot; 0 where it is not valid. -/
def slotLen (r : RecipeStore) (slot : Nat) : Nat := sparseGet 0 r.valid slot

/-- Write a word: the slot's valid bit is cleared (R106). -/
def storeWord (r : RecipeStore) (slot i : Nat) (w : W32) : RecipeStore :=
  { words := sparseSet 0 r.words (slot * 32 + i % 32) w, valid := sparseSet 0 r.valid slot 0 }

/-- Commit a slot: its store after, and the failed check (R105). -/
def commitSlot (update : Bool) (r : RecipeStore) (slot length : Nat) : RecipeStore × Option (Nat × Nat) :=
  match checkRecipe update (slotWords r slot 32) length with
  | none => ({ r with valid := sparseSet 0 r.valid slot length }, none)
  | some x => ({ r with valid := sparseSet 0 r.valid slot 0 }, some x)

/-- The valid mask of a store (R116). -/
def validMask (r : RecipeStore) : Nat := r.valid.foldl (fun m x => m ||| 2 ^ x.1) 0

/-- The FAULT register of a failed commit (R116): SLOT, INDEX, check number. -/
def faultWord (slot : Nat) (x : Nat × Nat) : Nat := slot + 64 * x.2 + 2048 * x.1

/-! ## Lanes (R95, R102–R108) -/

/-- An operand selector (R103). -/
def operand (l : Lane) (ks qs : List W32) (sel : Nat) : W32 :=
  if sel < 16 then l.v.getD sel 0
  else if sel < 24 then ks.getD (sel - 16) 0
  else if sel < 28 then qs.getD (sel - 24) 0
  else if sel = 28 then 0
  else if sel = 29 then fpOne
  else if sel = 30 then 0x7F800000#32
  else 0xFF800000#32

/-- Whether the predicate of an instruction holds in a lane (R102). -/
def predOk (l : Lane) (pred : Nat) : Bool :=
  if pred = 0 then true else if pred < 4 then l.p.getD pred false else !l.p.getD (pred - 4) false

/-- Write a v register of a lane. -/
def setV (l : Lane) (i : Nat) (x : W32) : Lane := { l with v := listSet l.v i x }

/-- Write a p register of a lane. -/
def setP (l : Lane) (i : Nat) (x : Bool) : Lane := { l with p := listSet l.p i x }

/-- The result of an arithmetic opcode (R104, R107, R108). -/
def aluOp (op : Nat) (a b c : W32) : W32 :=
  match op with
  | 0x04 => a
  | 0x05 => fpAdd a b
  | 0x06 => fpSub a b
  | 0x07 => fpMul a b
  | 0x08 => fpFma a b c
  | 0x09 => fpFnma a b c
  | 0x0A => fpDiv a b
  | 0x0B => fpDiv0 a b
  | 0x0C => fpMin a b
  | 0x0D => fpMax a b
  | 0x0E => fpAbs a
  | 0x0F => fpNeg a
  | 0x10 => fpRcp a
  | 0x11 => fpSqrt a
  | 0x12 => fpRsq a
  | 0x13 => fpExp2 a
  | 0x14 => fpLog2 a
  | _ => fpSmxp a b

/-- A lane after an instruction that touches only the lane (R104). -/
def laneStep (ks qs : List W32) (i : RInstr) (l : Lane) : Lane :=
  if !predOk l i.pred then l
  else
    let x := operand l ks qs
    if i.op = 0x15 then setP l i.dst (fpCond i.aux (x i.a) (x i.b))
    else if i.op = 0x16 then setV l i.dst (if l.p.getD i.aux false then x i.a else x i.b)
    else setV l i.dst (aluOp i.op (x i.a) (x i.b) (x i.c))

/-- Whether an opcode touches only the lanes' registers through laneStep. -/
def laneOp (op : Nat) : Bool := decide (4 ≤ op) && decide (op ≤ 0x17)

end Sys2Proof.Machine
end

