-- ==== Sys2Proof/Machine/Vector.lean ====
section
/-!
DEFINITION. Machine/Vector.lean: vector calls, their streams, reductions and summaries, and RLOAD (04_vector_recipes.md,
R94–R116; 06_control_core.md, R170).
-/
namespace Sys2Proof.Machine

/-- The block of the VECTOR page. -/
def vectorSub : Nat := 2

/-- The engine number of the vector engine (R209). -/
def engineVector : Nat := 4

/-- −∞. -/
def fpNegInf : W32 := 0xFF800000#32

/-! ## Phases and beats (R96, R101) -/

/-- A recipe cut into its phases; each PHASE ends the phase it stands in (R96). -/
def splitPhases : List RInstr → List (List RInstr)
  | [] => []
  | i :: t =>
    if i.op = 0x1C then [i] :: splitPhases t
    else match splitPhases t with
      | [] => [[i]]
      | p :: ps => (i :: p) :: ps

/-- Whether a phase contains a RED. -/
def hasRed (ph : List RInstr) : Bool := ph.any (fun i => i.op == 0x19)

/-- D: the number of phases that contain a RED (R101). -/
def redPhases (code : List W32) : Nat := (splitPhases (code.map rdecode)).countP hasRed

/-- Groups of a row (R94). -/
def rowGroups (rowLen : Nat) : Nat := ceilDiv rowLen 256

/-- Beats of a row: G × L + 12 × D (R101). -/
def rowBeats (code : List W32) (rowLen : Nat) : Nat := rowGroups rowLen * code.length + 12 * redPhases code

/-- The beat count of a call (R101). -/
def callBeats (code : List W32) (rows rowLen : Nat) : Nat := 16 + rows * rowBeats code rowLen

/-- Where a beat of a row lies: phase, its number, group, and instruction; none while a reduction completes. -/
def locatePhase (g : Nat) : Nat → Nat → List (List RInstr) → Option (Nat × List RInstr × Nat × Nat)
  | _, _, [] => none
  | off, n, ph :: t =>
    let l := g * ph.length
    if off < l then some (n, ph, off / ph.length, off % ph.length)
    else if off < l + (if hasRed ph then 12 else 0) then none
    else locatePhase g (off - l - (if hasRed ph then 12 else 0)) (n + 1) t

/-- What a call does in a beat: row, phase number, phase, group, instruction index. -/
structure VPos where
  row : Nat
  phase : Nat
  instrs : List RInstr
  group : Nat
  j : Nat
deriving DecidableEq, Repr

/-- The position of a call in the beat off beats after b0 (R96, R101). -/
def vecPos (v : VecRun) (d : CallDesc) (off : Nat) : Option VPos :=
  let per := rowBeats v.code d.rowLen
  if off < 16 ∨ v.len ≤ off ∨ per = 0 then none
  else
    (locatePhase (rowGroups d.rowLen) ((off - 16) % per) 0 (splitPhases (v.code.map rdecode))).map (fun x =>
      { row := (off - 16) / per, phase := x.1, instrs := x.2.1, group := x.2.2.1, j := x.2.2.2 })

/-- Whether a call may stop before its beat off: at row ends with D ≥ 1, at group ends with D = 0 (R114). -/
def vecBreak (v : VecRun) (off : Nat) : Bool :=
  match v.d with
  | none => false
  | some d =>
    if v.refused || decide (off ≤ 16) then false
    else
      let per := rowBeats v.code d.rowLen
      if redPhases v.code = 0 then
        (match vecPos v d off with
          | some p => p.j == 0
          | none => false)
      else decide (per ≠ 0) && decide ((off - 16) % per = 0)

/-! ## Streams (R98, R99) -/

/-- A stream of a call. -/
def streamOf (d : CallDesc) (i : Nat) : StreamDesc := d.streams.getD i ⟨0, 0, 0, 0, false, 0, 0, 0, false⟩

/-- The format of a stream. -/
def streamFmt (x : StreamDesc) : Fmt := (fmtOfCode4 x.fmt).getD .fp32

/-- Exponent bytes per row of a stream (R98). -/
def expRow (d : CallDesc) (x : StreamDesc) : Nat := if x.stride = 0 then 0 else ceilDiv d.rowLen 32

/-- Active lanes of a group (R94). -/
def groupLanes (d : CallDesc) (g : Nat) : Nat := Nat.min 256 (d.rowLen - 256 * g)

/-- The address ranges of elements of a group of a stream; an output writes whole blocks (R27, R98, R99). -/
def streamRanges (d : CallDesc) (x : StreamDesc) (out : Bool) (r g : Nat) : List (Nat × Nat) :=
  let fmt := streamFmt x
  let w := fmtWidth fmt
  let n := groupLanes d g
  let m := if out && fmtBlock fmt then 32 * ceilDiv n 32 else n
  (x.addr + r * x.stride + 256 * g * w, m * w) ::
    (if fmtBlock fmt then [(x.exp + r * expRow d x + 8 * g, ceilDiv n 32)] else [])

/-- The mask bytes of a group (R98). -/
def maskRange (d : CallDesc) (r g : Nat) : Nat × Nat := (d.maskAddr + r * d.maskStride + 32 * g, ceilDiv (groupLanes d g) 8)

/-- The ranges an instruction of a call reads and writes at a position. -/
def vecAccess (d : CallDesc) (p : VPos) : List (Nat × Nat) × List (Nat × Nat) :=
  match p.instrs[p.j]? with
  | none => ([], [])
  | some i =>
    if i.op = 0x01 then (streamRanges d (streamOf d (i.aux % 4)) false p.row p.group, [])
    else if i.op = 0x02 then ([], streamRanges d (streamOf d (4 + i.aux % 2)) true p.row p.group)
    else if i.op = 0x03 then ([maskRange d p.row p.group], [])
    else ([], [])

/-- The ranges a call reads and writes in beat t, for the hazard detector (R206). -/
def vecPlan (v : VecRun) (t : Nat) : List (Nat × Nat) × List (Nat × Nat) :=
  match v.d with
  | some d => if v.refused || decide (t < v.b0) then ([], []) else
      (match vecPos v d (t - v.b0) with
        | some p => vecAccess d p
        | none => ([], []))
  | none => if v.b0 < t ∧ t < v.b0 + 4 then ([(v.addr + 64 * (t - v.b0), 64)], []) else ([], [])

/-- LD of one element: its FP32 value and the saturation it counts (R41, R99, R111). -/
def loadElem (env : EngEnv) (d : CallDesc) (x : StreamDesc) (r e : Nat) : W32 × Nat :=
  let fmt := streamFmt x
  let w := fmtWidth fmt
  let b := env.nat (x.addr + r * x.stride + e * w) w
  match fmt with
  | .fp32 => (BitVec.ofNat 32 b, 0)
  | .bf16 => (bf16Widen (BitVec.ofNat 16 b), 0)
  | f =>
    let ex := (env.byte (x.exp + r * expRow d x + e / 32)).toNat
    blockToFp32 (blockParams f) (toSigned (8 * w) b) ex

/-- The stored elements of a group: those of each block of 32 with its exponent byte, or floating elements (R38, R39, R111). -/
def storeGroup (fmt : Fmt) (xs : List (W32 × Rounding)) : List StoredElem × Counts :=
  match fmt with
  | .bf16 =>
    (xs.map (fun x => let b := toBf16 x.2 (fp32Val x.1)
      ({ vbits := b.1.toNat, x := exactZero, exp := bits b.1.toNat 14 7, exceeds := decide (0 < b.2) } : StoredElem)),
     xs.foldl (fun c x => addCounts c ⟨(toBf16 x.2 (fp32Val x.1)).2, bit (fpIsNan x.1 || fpIsInf x.1)⟩) noCounts)
  | .bs16 | .bs8 =>
    let p := blockParams fmt
    let (e, ms, c) := toBlock p (xs.map (fun x => (fp32Val x.1, x.2)))
    (ms.map (fun m => ({ vbits := ofSigned (8 * fmtWidth fmt) m, x := exactZero, exp := e, exceeds := false } : StoredElem)), c)
  | _ =>
    (xs.map (fun x => let b := toFp32 x.2 (fp32Val x.1)
      ({ vbits := b.1.toNat, x := exactZero, exp := bits b.1.toNat 30 23, exceeds := false } : StoredElem)),
     xs.foldl (fun c x => addCounts c ⟨0, bit (fpIsNan x.1 || fpIsInf x.1)⟩) noCounts)

/-! ## Reductions (R109) -/

/-- Combination of two values: SUM, MAX or MIN. -/
def redOp (kind : Nat) (a b : W32) : W32 :=
  match kind with
  | 0 => fpAdd a b
  | 1 => fpMax a b
  | _ => fpMin a b

/-- Identity of a reduction. -/
def redId (kind : Nat) : W32 :=
  match kind with
  | 0 => 0
  | 1 => fpNegInf
  | _ => 0x7F800000#32

/-- One level of the pairwise tree. -/
def treeLevel (kind : Nat) : List W32 → List W32
  | a :: b :: t => redOp kind a b :: treeLevel kind t
  | l => l

/-- n levels of the pairwise tree. -/
def treeLevels (kind : Nat) : Nat → List W32 → List W32
  | 0, l => l
  | n + 1, l => treeLevels kind n (treeLevel kind l)

/-- The tree over 256 lanes (R109 step 1). -/
def treeRed (kind : Nat) (l : List W32) : W32 := (treeLevels kind 8 l).headD (redId kind)

/-- The lanes' values under a predicate, with the identity elsewhere, over 256 lanes. -/
def laneVals (v : VecRun) (i : RInstr) (n kind : Nat) (keep : W32 → Bool) : List W32 :=
  (List.range 256).map (fun k =>
    let l := v.lanes.getD k .zero
    let x := operand l v.kregs v.q i.a
    if k < n ∧ predOk l i.pred ∧ keep x then x else redId kind)

/-- The number of active lanes under a predicate whose value passes a test. -/
def laneCount (v : VecRun) (i : RInstr) (n : Nat) (keep : W32 → Bool) : Nat :=
  (List.range n).countP (fun k =>
    let l := v.lanes.getD k .zero
    predOk l i.pred && keep (operand l v.kregs v.q i.a))

/-! ## Instructions -/

/-- The first k lanes changed by their number, the others kept. -/
def mapLanes (v : VecRun) (n : Nat) (f : Nat → Lane → Lane) : VecRun :=
  { v with lanes := v.lanes.zipIdx.map (fun l => if l.2 < n then f l.2 l.1 else l.1) }

/-- LD (R99). -/
def vecLd (env : EngEnv) (d : CallDesc) (p : VPos) (v : VecRun) (i : RInstr) : VecRun × Out :=
  let x := streamOf d (i.aux % 4)
  let n := groupLanes d p.group
  let xs := (List.range n).map (fun k => loadElem env d x p.row (256 * p.group + k))
  let sat := xs.foldl (fun c y => c + y.2) 0
  let v := mapLanes v n (fun k l => setV l i.dst (xs.getD k (0, 0)).1)
  ({ v with sum_ := { v.sum_ with ssat := v.sum_.ssat + sat } }, .eff [.counts v.tag.win ⟨0, sat, 0⟩])

/-- LDM (R98, R110). -/
def vecLdm (env : EngEnv) (d : CallDesc) (p : VPos) (v : VecRun) (i : RInstr) : VecRun :=
  let n := groupLanes d p.group
  let ms := (List.range n).map (fun k => env.maskBit (d.maskAddr + p.row * d.maskStride) (256 * p.group + k))
  let phs := splitPhases (v.code.map rdecode)
  let firstPhase := (phs.take p.phase).all (fun ph => ph.all (fun x => x.op != 3))
  let firstLdm := (p.instrs.take p.j).all (fun x => x.op != 3)
  let v := mapLanes v n (fun k l => setP l i.dst (ms.getD k false))
  if firstPhase && firstLdm then { v with sum_ := { v.sum_ with smasked := v.sum_.smasked + ms.countP id } } else v

/-- ST (R99, R110, R111). -/
def vecSt (env : EngEnv) (inject : Option Nat) (d : CallDesc) (p : VPos) (v : VecRun) (i : RInstr) : VecRun × Out × Bool :=
  let o := i.aux % 2
  let x := streamOf d (4 + o)
  let fmt := streamFmt x
  let w := fmtWidth fmt
  let n := groupLanes d p.group
  let idx := x.idxBase + p.row * x.idxRow + 256 * p.group
  let sr := (i.aux / 2) % 2 == 1
  let xs := (List.range n).map (fun k =>
    (operand (v.lanes.getD k .zero) v.kregs v.q i.a,
     if sr then Rounding.sr (genSr env.seed x.tensor v.tag.gstep (BitVec.ofNat 64 (idx + k))) else .rne))
  let gs := (if fmtBlock fmt then groupsOf 32 n xs else [xs]).map (storeGroup fmt)
  let ys := gs.flatMap (·.1)
  let c := gs.foldl (fun c g => addCounts c g.2) noCounts
  let pad := if fmtBlock fmt then 32 * ceilDiv n 32 - n else 0
  let data := ys.flatMap (fun y => bytesLE w y.vbits) ++ List.replicate (pad * w) 0
  let a := x.addr + p.row * x.stride + 256 * p.group * w
  let ws : List PWrite := { prio := 3, addr := a, data := data } ::
    (if fmtBlock fmt then [{ prio := 3, addr := x.exp + p.row * expRow d x + 8 * p.group
                             data := gs.map (fun g => BitVec.ofNat 8 ((g.1.head?.map (·.exp)).getD 0)) }] else [])
  let maxe := ys.foldl (fun m y => Nat.max m y.exp) 0
  let hit := match inject with
    | some k => decide (k < n)
    | none => false
  let s := v.sum_
  let s := { s with snonfin := s.snonfin + c.nonfin, ssat := s.ssat + c.sat
                    maxExp0 := if o = 0 then Nat.max s.maxExp0 maxe else s.maxExp0
                    maxExp1 := if o = 1 then Nat.max s.maxExp1 maxe else s.maxExp1 }
  ({ v with sum_ := s, residueHit := v.residueHit || hit },
   { writes := ws, lines := [], effs := .counts v.tag.win ⟨c.nonfin, c.sat, 0⟩ :: digestEffs x.tensor fmt idx ys }, hit)

/-- RND (R104, R282). -/
def vecRnd (env : EngEnv) (d : CallDesc) (p : VPos) (v : VecRun) (i : RInstr) : VecRun :=
  let stream := d.rngStream + BitVec.ofNat 32 i.aux
  let base := d.rngIdxBase + p.row * d.rngIdxRow + 256 * p.group
  mapLanes v (groupLanes d p.group) (fun k l =>
    setV l i.dst (genRnd env.seed stream v.tag.gstep (BitVec.ofNat 64 (base + k))))

/-- RED (R104, R109): the group's part enters the row's accumulator; a COUNT is kept as a number. -/
def vecRed (d : CallDesc) (p : VPos) (v : VecRun) (i : RInstr) : VecRun :=
  let n := groupLanes d p.group
  let old := v.red.find? (fun r => r.1 == i.dst)
  let acc := match old with
    | some r => r.2
    | none => if i.aux = 3 then 0 else redId i.aux
  let new := if i.aux = 3 then acc + BitVec.ofNat 32 (laneCount v i n (fun _ => true))
    else redOp i.aux acc (treeRed i.aux (laneVals v i n i.aux (fun _ => true)))
  { v with red := (i.dst, new) :: v.red.filter (fun r => r.1 != i.dst) }

/-- Whether 32 bits are finite. -/
def fpFinite (x : W32) : Bool := !fpIsNan x && !fpIsInf x

/-- SUMM (R104, R110). -/
def vecSumm (d : CallDesc) (p : VPos) (v : VecRun) (i : RInstr) : VecRun :=
  let n := groupLanes d p.group
  let s := v.sum_
  { v with rowMax := fpMax v.rowMax (treeRed 1 (laneVals v i n 1 fpFinite))
           rowSum := fpAdd v.rowSum (treeRed 0 (laneVals v i n 0 fpFinite))
           sum_ := { s with scount := s.scount + laneCount v i n fpFinite
                            snonfin := s.snonfin + laneCount v i n (fun x => !fpFinite x) } }

/-- One instruction of a group (R104). -/
def vecInstr (env : EngEnv) (inject : Option Nat) (d : CallDesc) (p : VPos) (v : VecRun) (i : RInstr) :
    VecRun × Out × Bool :=
  if i.op = 0x01 then (let (v, o) := vecLd env d p v i; (v, o, false))
  else if i.op = 0x02 then vecSt env inject d p v i
  else if i.op = 0x03 then (vecLdm env d p v i, .none_, false)
  else if i.op = 0x18 then (vecRnd env d p v i, .none_, false)
  else if i.op = 0x19 then (vecRed d p v i, .none_, false)
  else if i.op = 0x1A then (vecSumm d p v i, .none_, false)
  else if i.op = 0x1B then
    ({ v with rowHit := v.rowHit || fpCond i.aux (operand .zero v.kregs v.q i.a) (operand .zero v.kregs v.q i.b) }, .none_, false)
  else if laneOp i.op then (mapLanes v (groupLanes d p.group) (fun _ l => laneStep v.kregs v.q i l), .none_, false)
  else (v, .none_, false)

/-- Start of a row: row scalars and the row's part of the summary are fresh (R95, R109). -/
def rowStart (v : VecRun) : VecRun :=
  { v with q := List.replicate 4 0, red := [], rowMax := fpNegInf, rowSum := 0, rowHit := false }

/-- End of a phase: the row scalars take the reductions (R95, R109); COUNT becomes an exact FP32 integer. -/
def phaseEnd (v : VecRun) (ph : List RInstr) : VecRun :=
  let q := v.red.foldl (fun q r =>
    let count := ph.any (fun i => i.op == 0x19 && i.dst == r.1 && i.aux == 3)
    listSet q r.1 (if count then fpRound false r.2.toNat 0 else r.2)) v.q
  { v with q := q, red := [] }

/-- End of a row: its part joins the call's summary, and MROW counts once (R104, R109). -/
def rowEnd (v : VecRun) : VecRun × List Eff :=
  let s := v.sum_
  ({ v with sum_ := { s with smax := fpMax s.smax v.rowMax, ssum := fpAdd s.ssum v.rowSum, smrows := s.smrows + bit v.rowHit } },
   [.counts v.tag.win ⟨0, 0, bit v.rowHit⟩])

/-- Whether an upset of the beat meets a lane of the engine (R113). -/
def laneUpset (env : EngEnv) (n : Nat) : Bool :=
  env.ups.any (fun u => match u with
    | .vecResidue l k => decide (l.val = env.lh) && decide (k.val < n)
    | _ => false)

/-- The check at the end of a group's run (R113). -/
def groupCheck (env : EngEnv) (n : Nat) (v : VecRun) : VecRun × List Eff :=
  if v.residueHit || laneUpset env n then
    ({ v with residueHit := false, sum_ := { v.sum_ with residue := true } },
     [.err vectorSub 5, .count vectorSub Reg.vecResidueFails 1, .fail])
  else (v, [])

/-- The work of a running call at a position. -/
def vecWork (env : EngEnv) (inject : Option Nat) (d : CallDesc) (v : VecRun) (p : VPos) (i : RInstr) : VecRun × Out × Bool :=
  let n := groupLanes d p.group
  let (rds, wrs) := vecAccess d p
  let v := if p.phase = 0 ∧ p.group = 0 ∧ p.j = 0 then rowStart v else v
  let v := if p.j = 0 then { v with lanes := List.replicate 256 .zero } else v
  let (v, o, hit) := vecInstr env inject d p v i
  let lastJ := p.j + 1 == p.instrs.length
  let (v, e1) := if lastJ then groupCheck env n v else (v, [])
  let lastG := lastJ && (p.group + 1 == rowGroups d.rowLen)
  let v := if lastG then phaseEnd v p.instrs else v
  let (v, e2) := if lastG && (p.phase + 1 == (splitPhases (v.code.map rdecode)).length) then rowEnd v else (v, [])
  let lines := tagLines false engineVector (rangeLines rds) ++ tagLines true engineVector (rangeLines wrs)
  (v, { o with lines := lines, effs := o.effs ++ e1 ++ e2 }, hit)

/-! ## Malformed calls (R100) -/

/-- Whether a stream breaks R20, R98 or R100 by its fields. -/
def streamBad (x : StreamDesc) (out : Bool) : Bool :=
  x.reserved || (x.enable && (decide (3 < x.fmt) || decide (x.addr % 64 ≠ 0) || decide (x.stride % 64 ≠ 0) ||
    (out && x.stride == 0)))

/-- Whether a recipe instruction names a stream that is not enabled. -/
def streamMissing (d : CallDesc) (i : RInstr) : Bool :=
  (i.op == 1 && !(streamOf d (i.aux % 4)).enable) || (i.op == 2 && !(streamOf d (4 + i.aux % 2)).enable) ||
  (i.op == 3 && !d.maskEn)

/-- Whether ROWS and ROW_LEN are in range (R97). -/
def sizesOk (d : CallDesc) : Bool :=
  decide (1 ≤ d.rows) && decide (d.rows ≤ 65536) && decide (1 ≤ d.rowLen) && decide (d.rowLen ≤ 2 ^ 24) &&
  decide (d.rows * d.rowLen ≤ 2 ^ 24)

/-- Whether a stream reaches beyond the partition (R100). -/
def streamFar (env : EngEnv) (d : CallDesc) (x : StreamDesc) (out : Bool) : Bool :=
  let fmt := streamFmt x
  let m := if out && fmtBlock fmt then 32 * ceilDiv d.rowLen 32 else d.rowLen
  x.enable && decide (x.fmt ≤ 3) &&
  (env.beyond x.addr ((d.rows - 1) * x.stride + m * fmtWidth fmt) ||
   (fmtBlock fmt && env.beyond x.exp ((d.rows - 1) * expRow d x + ceilDiv d.rowLen 32)))

/-- Whether some stream of the call, or its mask, reaches beyond the partition (R100). -/
def callFar (env : EngEnv) (d : CallDesc) : Bool :=
  sizesOk d && (d.streams.zipIdx.any (fun x => streamFar env d x.1 (decide (4 ≤ x.2))) ||
    (d.maskEn && env.beyond d.maskAddr ((d.rows - 1) * d.maskStride + ceilDiv d.rowLen 8)))

/-- Whether a call is malformed but for its ranges (R100). -/
def callBad (v : VecRun) (d : CallDesc) : Bool :=
  decide (v.addr % 256 ≠ 0) || !v.valid || d.reserved || !sizesOk d || decide (24 < d.scalarBase) ||
  d.streams.zipIdx.any (fun x => streamBad x.1 (decide (4 ≤ x.2))) ||
  (d.maskEn && (decide (d.maskAddr % 64 ≠ 0) || decide (d.maskStride % 64 ≠ 0))) ||
  (v.code.map rdecode).any (streamMissing d)

/-! ## A call in a beat -/

/-- The last beat of a vector call (R101). -/
def vecLast (v : VecRun) : Nat := v.b0 + v.len - 1

/-- Read a line of the descriptor, and judge the call when its four lines are in (R97, R100, R188). -/
def vecFetch (env : EngEnv) (v : VecRun) : VecRun × Out :=
  let off := env.t - v.b0
  let a := v.addr + 64 * off
  let v := { v with bytes := v.bytes ++ env.read a 64 }
  let o : Out := { writes := [], lines := tagLines false engineVector (linesOf a 64)
                   effs := effIf (env.beyond a 64) (.err vectorSub errOutOfMap) }
  if off < 3 then (v, o)
  else
    let d := parseCall v.bytes
    let far := callFar env d
    let bad := callBad v d || far
    ({ v with d := some d, refused := bad },
     o.app (.eff (effIf bad (.err vectorSub 0) ++ effIf far (.err vectorSub 4))))

/-- The work of a vector call in beat t; the result tells whether VEC_INJECT was used up (R116). -/
def vecBeat (env : EngEnv) (inject : Option Nat) (v : VecRun) : VecRun × Out × Bool :=
  let off := env.t - v.b0
  if v.done || v.cut.any (fun k => v.stop || decide (off < k)) then (v, .none_, false)
  else if v.stop && vecBreak v off then ({ v with cut := some off }, .none_, false)
  else if 0 < off ∧ off < 4 then (let (v, o) := vecFetch env v; (v, o, false))
  else match v.d with
    | none => (v, .none_, false)
    | some d =>
      if v.refused then (v, .none_, false)
      else match vecPos v d off with
        | none => (v, .none_, false)
        | some p => match p.instrs[p.j]? with
          | none => (v, .none_, false)
          | some i => vecWork env inject d v p i

/-- The 256 bits of a vector summary record (R110). -/
def packVecSum (v : VecSum) : Nat :=
  v.smax.toNat + 2 ^ 32 * v.ssum.toNat + 2 ^ 64 * v.scount + 2 ^ 96 * v.smasked + 2 ^ 128 * v.smrows + 2 ^ 160 * v.snonfin +
  2 ^ 192 * v.ssat + 2 ^ 224 * v.maxExp0 + 2 ^ 232 * v.maxExp1 + 2 ^ 240 * bit v.malformed + 2 ^ 241 * bit v.residue

/-- Post the summary of a call in its last beat (R100, R110, R116). -/
def postVec (v : VecRun) : VecRun × Out :=
  let s := if v.refused then { VecSum.zero with malformed := true } else v.sum_
  let n := packVecSum s
  let elems := match v.d with
    | some d => if v.refused then 0 else d.rows * d.rowLen
    | none => 0
  ({ v with done := true },
   .eff ([.vecSum v.tag.win s, .count vectorSub Reg.vecCalls 1, .count vectorSub Reg.vecElements elems,
     .count vectorSub Reg.vecNonfin s.snonfin, .count vectorSub Reg.vecSat s.ssat,
     .count vectorSub Reg.vecMaskedRows s.smrows] ++
     (List.range 4).map (fun j => .reg vectorSub (Reg.vecLastSummary + 8 * j) (bits n (64 * j + 63) (64 * j)))))

/-- Start a vector call in beat b0 = t (R95, R97, R100, R101, R176). busy tells that the previous call still occupies the
engine. -/
def startVec (env : EngEnv) (store : RecipeStore) (busy : Bool) (addr : Nat) (tag : OpTag) (sregs : Vector Word 32) :
    Option VecRun × Out :=
  if busy then (none, .eff [.err vectorSub 0, .err vectorSub 1])
  else
    let bytes := env.read addr 64
    let slot := bits (fieldN bytes 0 4) 5 0
    let sb := bits (fieldN bytes 0x0C 4) 4 0
    let n := slotLen store slot
    let code := slotWords store slot n
    let len := callBeats code (fieldN bytes 4 4) (fieldN bytes 8 4)
    let o : Out := { writes := [], lines := tagLines false engineVector (linesOf addr 64)
                     effs := effIf (env.beyond addr 64) (.err vectorSub errOutOfMap) }
    if tag.win && decide (tag.winEnd < env.t + len - 1) then (none, o.app (.eff [.err 0 3]))
    else
      (some { b0 := env.t, addr := addr, slot := slot, bytes := bytes
              kregs := (List.range 8).map (fun i => (sregs.toList.getD (sb + i) 0).setWidth 32)
              valid := decide (0 < n), code := code, d := none, refused := false, len := len
              lanes := List.replicate 256 .zero, q := List.replicate 4 0, red := [], rowMax := fpNegInf, rowSum := 0
              rowHit := false, sum_ := .zero, residueHit := false, stop := false, cut := none, done := false, tag := tag }, o)

/-- Whether a call in progress keeps a recipe slot from being written in beat t (R106): from the beat after its b0, since it
took the slot as it stood in b0. -/
def callHolds (v : VecRun) (slot t : Nat) : Bool :=
  v.slot == slot && (v.cut.isNone || !v.stop) && decide (v.b0 < t) && decide (t ≤ vecLast v)

/-! ## RLOAD (R170) -/

/-- Start an RLOAD in beat b0 = t (R170, R176). -/
def startRload (env : EngEnv) (slot : Fin 64) (length addr : Nat) (tag : OpTag) : Option RloadRun × Out :=
  if tag.win && decide (tag.winEnd < env.t + 2) then (none, .eff [.err 0 3])
  else
    let far := env.beyond addr (4 * length)
    let bad := decide (addr % 64 ≠ 0) || far
    let n := Nat.min 16 length
    (some { b0 := env.t, slot := slot, length := length, addr := addr
            words := if bad then [] else (List.range n).map (fun i => BitVec.ofNat 32 (env.nat (addr + 4 * i) 4))
            malformed := bad, ran := false, done := false, tag := tag },
     { writes := [], lines := if bad then [] else tagLines false engineVector (linesOf addr (4 * n))
       effs := effIf bad (.err vectorSub 0) ++ effIf far (.err vectorSub 4) })

/-- The second beat of an RLOAD reads the words of its second line (R170). -/
def rloadBeat (env : EngEnv) (r : RloadRun) : RloadRun × Out :=
  if r.malformed || r.ran || decide (env.t ≠ r.b0 + 1) then (r, .none_)
  else
    let n := Nat.min 32 r.length - 16
    ({ r with words := r.words ++ (List.range n).map (fun i => BitVec.ofNat 32 (env.nat (r.addr + 64 + 4 * i) 4)) },
     { writes := [], lines := tagLines false engineVector (linesOf (r.addr + 64) (4 * n)), effs := [] })

end Sys2Proof.Machine
end

