-- ==== Sys2Proof/Machine/ControlCore.lean ====
section
/-!
DEFINITION. Machine/ControlCore.lean: issue of a control core and the scalar, control-flow, window and tally
instructions (06_control_core.md, R149–R166, R173, R175–R177).
-/
namespace Sys2Proof.Machine

/-! ## Issue -/

/-- Whether a core may issue in the beat in progress (R151): it is issuing, not ended or stopped, and this is the beat of its
next instruction. -/
def canIssue (s : State) (lh : Nat) : Bool :=
  let c := (getH s lh).core
  c.run == .issuing && !c.ended && !c.stopped && decide (c.next = beatOf s lh)

/-- Whether a register's result is still pending (R153). -/
def isPending (c : Core) (r : Fin 32) : Bool := c.pend.any (fun p => decide (p.reg = r))

/-- A core after issuing an instruction in beat t: PC moves on and the next instruction issues in beat t + 1 (R151). -/
def advance (t : Nat) (c : Core) : Core := { c with pc := c.pc + 8, next := t + 1, last := t + 1 }

/-- Issue an instruction that names the given registers: refused by the interlock while a result is pending (R153),
otherwise counted, and its effect follows. -/
def issue (s : State) (lh : Nat) (named : List (Fin 32)) (f : State → State) : State :=
  if !canIssue s lh then s
  else if named.any (isPending (getH s lh).core) then modCore s lh (fun c => { c with interlocked := true })
  else f (modCore (countLh s lh 0 Reg.hamIssued 1) lh (advance (beatOf s lh)))

/-- An issued instruction that only changes the core. -/
def issueCore (s : State) (lh : Nat) (named : List (Fin 32)) (f : Core → Core) : State :=
  issue s lh named (fun s => modCore s lh f)

/-- The effect of an illegal instruction (R157): ILLEGAL, HAM_FAULT_PC, PROGRAM_FAULT, and the program ends; a fetch from outside the map
also sets OUT_OF_MAP (R12, R150). -/
def illegalAt (s : State) (lh : Nat) : State :=
  let c := (getH s lh).core
  let s := countLh s lh 0 Reg.hamIssued 1
  let s := setErrLh s lh 0 0
  let s := setErrIf (regionOf c.pc.toNat == .outside || regionOf c.pc.toNat == .larder) s (hamPage s lh 0) errOutOfMap
  let s := setReg s (lbank lh 0) Reg.hamFaultPc c.pc.toNat
  let s := emit s evProgramFault (hamPage s lh 0) ([BitVec.ofNat 8 lh, BitVec.ofNat 8 c.ctx] ++ bytesLE 6 0 ++ bytesLE 8 c.pc.toNat)
  let s := modCtx s c.ctx (fun x => { x with launch := x.launch.map (fun l => { l with illegal := true }) })
  modCore s lh (fun k => { advance (beatOf s lh) k with run := .idle, ended := true })

/-- Issue an instruction that is illegal inside a window (R176). -/
def issueOutside (s : State) (lh : Nat) (named : List (Fin 32)) (f : State → State) : State :=
  if canIssue s lh && inWindow (getH s lh).core then illegalAt s lh else issue s lh named f

/-- Issue an instruction that is illegal outside a window (R176). -/
def issueInside (s : State) (lh : Nat) (named : List (Fin 32)) (f : State → State) : State :=
  if canIssue s lh && !inWindow (getH s lh).core then illegalAt s lh else issue s lh named f

/-! ## Scalar arithmetic (R158) -/

/-- The second operand of an immediate form: IMM sign-extended to 64 bits. -/
def immWord (imm : BitVec 46) : Word := imm.signExtend 64

/-- RD := RA op RB. -/
def aluRR (s : State) (lh : Nat) (rd ra rb : Fin 32) (op : Word → Word → Word) : State :=
  issueCore s lh [rd, ra, rb] (fun c => setSreg c rd (op (sreg c ra) (sreg c rb)))

/-- RD := RA op IMM. -/
def aluRI (s : State) (lh : Nat) (rd ra : Fin 32) (imm : BitVec 46) (op : Word → Word → Word) : State :=
  issueCore s lh [rd, ra] (fun c => setSreg c rd (op (sreg c ra) (immWord imm)))

/-- A shift amount: bits [5:0] of the second operand. -/
def shamt (b : Word) : Nat := b.toNat % 64

/-- NOP (R156). -/
def execNop (lh : Fin 48) (s : State) : Host.Outcome State Fault Refusal := .next (issueCore s lh [] id)
/-- ADD (R158). -/
def execAdd (lh : Fin 48) (rd ra rb : Fin 32) (s : State) : Host.Outcome State Fault Refusal :=
  .next (aluRR s lh rd ra rb (fun a b => a + b))
/-- SUB (R158). -/
def execSub (lh : Fin 48) (rd ra rb : Fin 32) (s : State) : Host.Outcome State Fault Refusal :=
  .next (aluRR s lh rd ra rb (fun a b => a - b))
/-- AND (R158). -/
def execAnd (lh : Fin 48) (rd ra rb : Fin 32) (s : State) : Host.Outcome State Fault Refusal :=
  .next (aluRR s lh rd ra rb (fun a b => a &&& b))
/-- OR (R158). -/
def execOr (lh : Fin 48) (rd ra rb : Fin 32) (s : State) : Host.Outcome State Fault Refusal :=
  .next (aluRR s lh rd ra rb (fun a b => a ||| b))
/-- XOR (R158). -/
def execXor (lh : Fin 48) (rd ra rb : Fin 32) (s : State) : Host.Outcome State Fault Refusal :=
  .next (aluRR s lh rd ra rb (fun a b => a ^^^ b))
/-- SLL (R158). -/
def execSll (lh : Fin 48) (rd ra rb : Fin 32) (s : State) : Host.Outcome State Fault Refusal :=
  .next (aluRR s lh rd ra rb (fun a b => a <<< shamt b))
/-- SRL (R158). -/
def execSrl (lh : Fin 48) (rd ra rb : Fin 32) (s : State) : Host.Outcome State Fault Refusal :=
  .next (aluRR s lh rd ra rb (fun a b => a >>> shamt b))
/-- SRA (R158). -/
def execSra (lh : Fin 48) (rd ra rb : Fin 32) (s : State) : Host.Outcome State Fault Refusal :=
  .next (aluRR s lh rd ra rb (fun a b => a.sshiftRight (shamt b)))
/-- MUL (R158). -/
def execMul (lh : Fin 48) (rd ra rb : Fin 32) (s : State) : Host.Outcome State Fault Refusal :=
  .next (aluRR s lh rd ra rb (fun a b => a * b))
/-- MIN, signed (R158). -/
def execMin (lh : Fin 48) (rd ra rb : Fin 32) (s : State) : Host.Outcome State Fault Refusal :=
  .next (aluRR s lh rd ra rb (fun a b => if b.slt a then b else a))
/-- MAX, signed (R158). -/
def execMax (lh : Fin 48) (rd ra rb : Fin 32) (s : State) : Host.Outcome State Fault Refusal :=
  .next (aluRR s lh rd ra rb (fun a b => if a.slt b then b else a))
/-- SLT, signed (R158). -/
def execSlt (lh : Fin 48) (rd ra rb : Fin 32) (s : State) : Host.Outcome State Fault Refusal :=
  .next (aluRR s lh rd ra rb (fun a b => if a.slt b then 1 else 0))
/-- SLTU (R158). -/
def execSltu (lh : Fin 48) (rd ra rb : Fin 32) (s : State) : Host.Outcome State Fault Refusal :=
  .next (aluRR s lh rd ra rb (fun a b => if a.ult b then 1 else 0))
/-- ADDI (R156). -/
def execAddi (lh : Fin 48) (rd ra : Fin 32) (imm : BitVec 46) (s : State) : Host.Outcome State Fault Refusal :=
  .next (aluRI s lh rd ra imm (fun a b => a + b))
/-- ANDI (R158). -/
def execAndi (lh : Fin 48) (rd ra : Fin 32) (imm : BitVec 46) (s : State) : Host.Outcome State Fault Refusal :=
  .next (aluRI s lh rd ra imm (fun a b => a &&& b))
/-- ORI (R158). -/
def execOri (lh : Fin 48) (rd ra : Fin 32) (imm : BitVec 46) (s : State) : Host.Outcome State Fault Refusal :=
  .next (aluRI s lh rd ra imm (fun a b => a ||| b))
/-- XORI (R158). -/
def execXori (lh : Fin 48) (rd ra : Fin 32) (imm : BitVec 46) (s : State) : Host.Outcome State Fault Refusal :=
  .next (aluRI s lh rd ra imm (fun a b => a ^^^ b))
/-- SLLI (R156, R158). -/
def execSlli (lh : Fin 48) (rd ra : Fin 32) (imm : BitVec 46) (s : State) : Host.Outcome State Fault Refusal :=
  .next (aluRI s lh rd ra imm (fun a b => a <<< shamt b))
/-- SRLI (R156, R158). -/
def execSrli (lh : Fin 48) (rd ra : Fin 32) (imm : BitVec 46) (s : State) : Host.Outcome State Fault Refusal :=
  .next (aluRI s lh rd ra imm (fun a b => a >>> shamt b))
/-- SRAI (R156, R158). -/
def execSrai (lh : Fin 48) (rd ra : Fin 32) (imm : BitVec 46) (s : State) : Host.Outcome State Fault Refusal :=
  .next (aluRI s lh rd ra imm (fun a b => a.sshiftRight (shamt b)))
/-- LI (R156). -/
def execLi (lh : Fin 48) (rd : Fin 32) (imm : BitVec 46) (s : State) : Host.Outcome State Fault Refusal :=
  .next (issueCore s lh [rd] (fun c => setSreg c rd (immWord imm)))
/-- LIH: RD[63:46] := IMM[17:0], RD[45:0] unchanged (R156). -/
def execLih (lh : Fin 48) (rd : Fin 32) (imm : BitVec 46) (s : State) : Host.Outcome State Fault Refusal :=
  .next (issueCore s lh [rd] (fun c => setSreg c rd (imm.extractLsb' 0 18 ++ (sreg c rd).extractLsb' 0 46)))

/-! ## Pantry loads and stores (R159) -/

/-- The address of a scalar access: s[RA] + IMM in 64 bits (R159). -/
def scalarAddr (c : Core) (ra : Fin 32) (imm : BitVec 46) : Nat := (sreg c ra + immWord imm).toNat

/-- Record an access to a pantry line in the beat in progress: line, write, engine (R188, R207). -/
def touch (h : Hamper) (line : Nat) (write : Bool) (engine : Nat) : Hamper :=
  { h with lines := (line, write, engine) :: h.lines }

/-- The engine number of the control core in PAN_SLOT_INFO and the hazard log (R209). -/
def engineCore : Nat := 0

/-- The errors of a scalar access: RANGE beyond the pantry, ALIGN for a misaligned address (R159). -/
def scalarErrs (s : State) (lh addr width : Nat) : State :=
  let s := setErrIf (decide (pantrySize s lh ≤ addr)) s (hamPage s lh 0) 1
  setErrIf (decide (addr % width ≠ 0)) s (hamPage s lh 0) 2

/-- Whether a scalar access is made (R159). -/
def scalarOk (s : State) (lh addr width : Nat) : Bool :=
  decide (addr < pantrySize s lh) && decide (addr % width = 0)

/-- A result that becomes available in beat t + 4 (R153). -/
def pendReg (c : Core) (t : Nat) (rd : Fin 32) (v : Word) : Core :=
  if rd = 0 then c else { c with pend := c.pend ++ [{ reg := rd, val := v, due := t + 4, win := inWindow c }] }

/-- LDS and LDW (R159): the word as it stands at the start of the beat, zero when the access is refused. -/
def loadScalar (s : State) (lh : Nat) (rd ra : Fin 32) (imm : BitVec 46) (width : Nat) : State :=
  issue s lh [rd, ra] (fun s =>
    let addr := scalarAddr (getH s lh).core ra imm
    let ok := scalarOk s lh addr width
    let v := if ok then natOfLE (pantryRead s lh addr width) else 0
    let t := beatOf s lh
    let s := scalarErrs s lh addr width
    let s := if ok then modH s lh (fun h => touch h (addr / 64) false engineCore) else s
    modCore s lh (fun c => pendReg c t rd (BitVec.ofNat 64 v)))

/-- STS and STW (R159): the store takes effect at the end of the beat, last of its writers (R184). -/
def storeScalar (s : State) (lh : Nat) (rd ra : Fin 32) (imm : BitVec 46) (width : Nat) : State :=
  issue s lh [rd, ra] (fun s =>
    let c := (getH s lh).core
    let addr := scalarAddr c ra imm
    let ok := scalarOk s lh addr width
    let w : PWrite := { prio := 7, addr := addr, data := bytesLE width (sreg c rd).toNat }
    let s := scalarErrs s lh addr width
    if ok then
      modCore (modH s lh (fun h => touch h (addr / 64) true engineCore)) lh (fun c => { c with stores := c.stores ++ [w] })
    else s)

/-- LDS (R159). -/
def execLds (lh : Fin 48) (rd ra : Fin 32) (imm : BitVec 46) (s : State) : Host.Outcome State Fault Refusal :=
  .next (loadScalar s lh rd ra imm 8)
/-- LDW (R159). -/
def execLdw (lh : Fin 48) (rd ra : Fin 32) (imm : BitVec 46) (s : State) : Host.Outcome State Fault Refusal :=
  .next (loadScalar s lh rd ra imm 4)
/-- STS (R159). -/
def execSts (lh : Fin 48) (rd ra : Fin 32) (imm : BitVec 46) (s : State) : Host.Outcome State Fault Refusal :=
  .next (storeScalar s lh rd ra imm 8)
/-- STW (R159). -/
def execStw (lh : Fin 48) (rd ra : Fin 32) (imm : BitVec 46) (s : State) : Host.Outcome State Fault Refusal :=
  .next (storeScalar s lh rd ra imm 4)

/-! ## Control flow (R160–R162) -/

/-- Whether a branch condition holds (R160). -/
def condHolds (k : Cond) (a b : Word) : Bool :=
  let x := a.setWidth 32
  let y := b.setWidth 32
  match k with
  | .eq => a == b
  | .ne => a != b
  | .lt => a.slt b
  | .ge => !a.slt b
  | .ltu => a.ult b
  | .geu => !a.ult b
  | .feq => fpEq x y
  | .fne => !fpEq x y
  | .flt => fpLt x y
  | .fle => fpLt x y || fpEq x y
  | .fgt => fpLt y x
  | .fge => fpLt y x || fpEq x y
  | .any => (a &&& b) != 0
  | .none => (a &&& b) == 0
  | .always => true

/-- PC + 8 × a signed count of instructions, from the instruction's own address (R155). -/
def branchTo (pc : Addr) (off : Int) : Addr := pc + BitVec.ofInt 52 (8 * off)

/-- B (R160). -/
def execB (lh : Fin 48) (k : Cond) (ra rb : Fin 32) (off : BitVec 32) (s : State) : Host.Outcome State Fault Refusal :=
  .next (issueCore s lh [ra, rb] (fun c =>
    if condHolds k (sreg c ra) (sreg c rb) then { c with pc := branchTo (c.pc - 8) off.toInt } else c))

/-- JAL (R156, R161): RD := PC + 8. -/
def execJal (lh : Fin 48) (rd : Fin 32) (imm : BitVec 46) (s : State) : Host.Outcome State Fault Refusal :=
  .next (issueCore s lh [rd] (fun c =>
    { setSreg c rd (c.pc.setWidth 64) with pc := branchTo (c.pc - 8) imm.toInt }))

/-- JR (R161). -/
def execJr (lh : Fin 48) (ra : Fin 32) (s : State) : Host.Outcome State Fault Refusal :=
  .next (issue s lh [ra] (fun s =>
    let a := (sreg (getH s lh).core ra).toNat
    let s := setErrIf (decide (a % 8 ≠ 0)) s (hamPage s lh 0) 2
    modCore s lh (fun c => { c with pc := BitVec.ofNat 52 (a / 8 * 8) })))

/-- SKIP (R156): the core idles for n beats. -/
def execSkip (lh : Fin 48) (n : BitVec 32) (s : State) : Host.Outcome State Fault Refusal :=
  .next (issueCore s lh [] (fun c => { c with next := c.next + n.toNat }))

/-- END (R162); illegal inside a window. -/
def execEnd (lh : Fin 48) (s : State) : Host.Outcome State Fault Refusal :=
  .next (issueOutside s lh [] (fun s => modCore s lh (fun c => { c with run := .idle, ended := true })))

/-- ILLEGAL_INSTRUCTION (R157): an illegal word at PC; a legal word is no such event. -/
def execIllegalInstruction (lh : Fin 48) (word : BitVec 64) (s : State) : Host.Outcome State Fault Refusal :=
  .next (if canIssue s lh && !legalWord word.toNat (inWindow (getH s lh).core) then illegalAt s lh else s)

/-! ## Windows (R175–R177) -/

/-- The registers as they stand at the start of the next beat: pending results due by then included (R177). -/
def sregsAt (c : Core) (t : Nat) : Vector Word 32 :=
  c.pend.foldl (fun v p => if p.due ≤ t then v.set p.reg p.val else v) c.sregs

/-- WINDOW (R175): beats t + 1 to t + N; illegal with N = 0 and inside a window. -/
def execWindow (lh : Fin 48) (n : BitVec 32) (exit : BitVec 24) (s : State) : Host.Outcome State Fault Refusal :=
  .next (
    if canIssue s lh && (inWindow (getH s lh).core || n == 0) then illegalAt s lh
    else issueCore s lh [] (fun c =>
      { c with window := some { first := c.next, last := c.next + n.toNat - 1
                                exitPc := branchTo (c.pc - 8) exit.toInt, saved := sregsAt c c.next, itemStep := none }
               drainsWin := Vector.replicate 3 none, vsumWin := none }))

/-- Whether a core has done its part of beat t: issued in it, waiting on an interlock or in a SEAL wait, or idle (R183). -/
def coreAcked (c : Core) (t : Nat) : Bool :=
  match c.run with
  | .issuing => c.ended || c.stopped || decide (t < c.next) || c.interlocked
  | .waiting _ _ => false
  | _ => true

/-- A core as its window closes at the end of beat t (R175, R177): registers restored, results pending from the window
dropped, issue at EXIT in the next beat. -/
def closeWindow (c : Core) (t : Nat) : Core :=
  match c.window with
  | none => c
  | some w => { c with sregs := w.saved, pend := c.pend.filter (fun p => !p.win), pc := w.exitPc, next := t + 1
                       interlocked := false, window := none, drainsWin := Vector.replicate 3 none, vsumWin := none }

/-- WINDOW_CLOSE (R177, R218): at the end of the window's last beat; the slot of a taken item is free again. -/
def execWindowClose (lh : Fin 48) (s : State) : Host.Outcome State Fault Refusal :=
  let c := (getH s lh).core
  .next (match c.window with
    | some w =>
      if w.last = beatOf s lh && coreAcked c (beatOf s lh) then
        modH s lh (fun h => { h with core := closeWindow h.core (beatOf s lh), list := { h.list with taken := none } })
      else s
    | none => s)

/-! ## System values and summaries (R163, R164) -/

/-- BEAT: beats since launch, counting the beat in progress (R163). -/
def beatValue (s : State) (lh : Nat) : Nat := ((beatOf s lh : Int) - (getH s lh).core.start + 1).toNat

/-- A system value (R163). -/
def sysValue (s : State) (lh : Nat) (v : SysVal) : Word :=
  let c := (getH s lh).core
  match v with
  | .lhamper => BitVec.ofNat 64 lh
  | .lcount => 48
  | .context => BitVec.ofNat 64 c.ctx
  | .launch => ((getCtx s c.ctx).launch.map (·.count)).getD 0
  | .beat => BitVec.ofNat 64 (beatValue s lh)
  | .wrem => match c.window with
    | some w => BitVec.ofNat 64 (w.last - beatOf s lh)
    | none => 0

/-- MFS (R163). -/
def execMfs (lh : Fin 48) (rd : Fin 32) (src : SysVal) (s : State) : Host.Outcome State Fault Refusal :=
  .next (issue s lh [rd] (fun s =>
    let v := sysValue s lh src
    modCore s lh (fun c => setSreg c rd v)))

/-- The drain summary of a frame that SUMR reads (R164, R177). -/
def latestDrain (c : Core) (f : Nat) : DrainSum :=
  match c.window, (c.drainsWin[f]?).getD none with
  | some _, some d => d
  | _, _ => c.drains[f]?.getD .zero

/-- The vector summary that SUMR reads (R164, R177). -/
def latestVec (c : Core) : VecSum :=
  match c.window, c.vsumWin with
  | some _, some v => v
  | _, _ => c.vsum

/-- A field of a drain summary (R164, R165). -/
def drainField (d : DrainSum) (k : Nat) : Nat :=
  match k with
  | 0 => d.maxExp
  | 1 => d.satCount
  | 2 => d.maskedRows
  | 3 => bit d.satFlag
  | 4 => bit d.residue
  | 5 => bit d.malformed
  | _ => 0

/-- A field of a vector summary (R110, R164). -/
def vecField (v : VecSum) (k : Nat) : Nat :=
  match k with
  | 0 => v.smax.toNat
  | 1 => v.ssum.toNat
  | 2 => v.scount
  | 3 => v.smasked
  | 4 => v.smrows
  | 5 => v.snonfin
  | 6 => v.ssat
  | 7 => v.maxExp0
  | 8 => v.maxExp1
  | 9 => bit v.malformed
  | 10 => bit v.residue
  | _ => 0

/-- A field of the hamper step counts (R164, R166). -/
def countField (k : StepCounts) (f : Nat) : Nat :=
  match f with
  | 0 => k.nonfin
  | 1 => k.sat
  | 2 => k.mrows
  | _ => 0

/-- Whether a word of SUMR is legal (R164). -/
def sumrLegal (src : Fin 5) (field : Fin 11) : Bool := decide (field.val < sumFields src)

/-- The value SUMR reads (R164). -/
def sumrValue (c : Core) (src : Fin 5) (field : Fin 11) : Nat :=
  if src.val < 3 then drainField (latestDrain c src) field
  else if src.val = 3 then vecField (latestVec c) field
  else countField c.counts field

/-- Whether the records due in the beat in progress have been posted for a summary source (R164). -/
def sumReady (s : State) (lh : Nat) (src : Nat) : Bool :=
  let h := getH s lh
  let t := beatOf s lh
  if src < 3 then (getFrame h src).passes.all (fun p => p.done || decide (t < passLast p))
  else if src = 3 then h.vec.all (fun v => v.done || decide (t < vecLast v))
  else true

/-- SUMR (R164): it reads the record posted in this beat or earlier, so it issues after the completions due in the beat. -/
def execSumr (lh : Fin 48) (rd : Fin 32) (src : Fin 5) (field : Fin 11) (s : State) : Host.Outcome State Fault Refusal :=
  .next (
    if canIssue s lh && !sumrLegal src field then illegalAt s lh
    else if !sumReady s lh src then s
    else issueCore s lh [rd] (fun c => setSreg c rd (BitVec.ofNat 64 (sumrValue c src field))))

/-! ## Tally instructions (R173) -/

/-- The register a tally value names. -/
def valRegs (v : TallyVal) : List (Fin 32) :=
  match v with
  | .imm _ => []
  | .reg ra => [ra]

/-- n of a tally instruction (R173). -/
def tallyN (c : Core) (v : TallyVal) : Nat :=
  match v with
  | .imm n => n.toNat
  | .reg ra => (sreg c ra).toNat % 2 ^ 32

/-- SIG (R173). -/
def execSig (lh : Fin 48) (vid : BitVec 12) (n : TallyVal) (s : State) : Host.Outcome State Fault Refusal :=
  .next (issue s lh (valRegs n) (fun s =>
    let c := (getH s lh).core
    sendSignal s (some lh) lh c.ctx vid.toNat (tallyN c n) (beatOf s lh)))

/-- Wait on a tally: the request goes to the bank or to another module, or is released ABANDONED at once (R173, R232,
R244). -/
def waitOn (s : State) (lh : Fin 48) (rd : Fin 32) (vid n : Nat) (consume : Bool) : State :=
  let c := (getH s lh).core
  let e := getEntry s c.ctx vid
  let abandon := fun (s : State) =>
    modCore (countReg s tallyPage Reg.tlyAbandoned 1) lh (fun c => setSreg c rd 1)
  let hold := fun (s : State) => modCore s lh (fun c => { c with run := .waiting .tally rd })
  match e.kind with
  | .local_ =>
    hold (enqueue s { op := if consume then .consume else .observe, lh := some lh, dst := rd, ctx := c.ctx, vid := vid
                      phys := e.target, n := n, agent := lh, beat := beatOf s lh })
  | .remote =>
    if nearUp s e.module then
      let token := s.tly.token
      let s := nearSend s e.module c.ctx (tallyMsg s (if consume then 2 else 1) 0 e.target n token 0 c.ctx)
      hold { s with tly := { s.tly with token := (token + 1) % 2 ^ 32
                                        sent := s.tly.sent ++ [{ lh := lh, dst := rd, module := e.module, token := token }] } }
    else abandon (tallyErr s 5 c.ctx vid e.module 6 0)
  | _ => abandon (tallyErr s 0 c.ctx vid localParty (kindCause e) 0)

/-- WAITO (R173); illegal inside a window. -/
def execWaito (lh : Fin 48) (rd : Fin 32) (vid : BitVec 12) (n : TallyVal) (s : State) :
    Host.Outcome State Fault Refusal :=
  .next (issueOutside s lh (rd :: valRegs n) (fun s =>
    waitOn s lh rd vid.toNat (tallyN (getH s lh).core n) false))

/-- WAITC (R173); illegal inside a window. -/
def execWaitc (lh : Fin 48) (rd : Fin 32) (vid : BitVec 12) (n : TallyVal) (s : State) :
    Host.Outcome State Fault Refusal :=
  .next (issueOutside s lh (rd :: valRegs n) (fun s =>
    waitOn s lh rd vid.toNat (tallyN (getH s lh).core n) true))

/-- BARR (R173, R240); illegal inside a window. The core holds its beat until the arrival is recorded, which gives the
status of a BARR without a wait (log entry 23). -/
def execBarr (lh : Fin 48) (rd : Fin 32) (vid : BitVec 12) (wait : Bool) (s : State) : Host.Outcome State Fault Refusal :=
  .next (issueOutside s lh [rd] (fun s =>
    let c := (getH s lh).core
    let e := getEntry s c.ctx vid.toNat
    if e.kind = .barrier then
      modCore (enqueue s { op := .arrive wait, lh := some lh, dst := rd, ctx := c.ctx, vid := vid.toNat
                           phys := e.target % 64, n := 0, agent := lh, beat := beatOf s lh }) lh
        (fun c => { c with run := .waiting .barrier rd })
    else
      let s := tallyErr s 0 c.ctx vid.toNat localParty (kindCause e) 0
      let s := if wait then countReg s tallyPage Reg.tlyAbandoned 1 else s
      modCore s lh (fun c => setSreg c rd 1)))

/-! ## Engine operations (R152, R167–R174) -/

/-- The generator step of what the core issues now: that of the taken item, or GSTEP (R281). -/
def issueStep (c : Core) : StepNo := ((c.window.bind (·.itemStep)).getD c.gstep)

/-- The descriptor address of a format D engine instruction: (s[RA] + IMM) mod 2^23. -/
def descAddr (c : Core) (ra : Fin 32) (imm : BitVec 24) : Nat := ((sreg c ra).toNat + imm.toNat) % 2 ^ 23

/-- Hand an engine operation over: it starts at b0 = t + 1 (R152). -/
def handOver (s : State) (lh : Nat) (op : EngineOp) : State :=
  let t := beatOf s lh
  modCore s lh (fun c =>
    let tag : OpTag := { win := inWindow c, winEnd := (c.window.map (·.last)).getD 0, gstep := issueStep c, ctx := c.ctx }
    { c with starts := c.starts ++ [{ b0 := t + 1, op := op, tag := tag }] })

/-- Issue an engine operation whose descriptor address is in RA and IMM. -/
def issueEngine (s : State) (lh : Nat) (ra : Fin 32) (imm : BitVec 24) (op : Nat → EngineOp) : State :=
  issue s lh [ra] (fun s => handOver s lh (op (descAddr (getH s lh).core ra imm)))

/-- PASS (R50, R168). -/
def execPass (lh : Fin 48) (f : Fin 3) (ra : Fin 32) (imm : BitVec 24) (s : State) : Host.Outcome State Fault Refusal :=
  .next (issueEngine s lh ra imm (fun a => .pass f a))
/-- LOAD (R48, R169). -/
def execLoad (lh : Fin 48) (f : Fin 3) (ra : Fin 32) (imm : BitVec 24) (s : State) : Host.Outcome State Fault Refusal :=
  .next (issueEngine s lh ra imm (fun a => .load f a))
/-- TURN (R77, R169). -/
def execTurn (lh : Fin 48) (f : Fin 3) (ra : Fin 32) (imm : BitVec 24) (s : State) : Host.Outcome State Fault Refusal :=
  .next (issueEngine s lh ra imm (fun a => .turn f a))
/-- VCALL (R97, R170). -/
def execVcall (lh : Fin 48) (ra : Fin 32) (imm : BitVec 24) (s : State) : Host.Outcome State Fault Refusal :=
  .next (issueEngine s lh ra imm .vcall)
/-- RLOAD (R170). -/
def execRload (lh : Fin 48) (ra : Fin 32) (imm : BitVec 24) (slot : Fin 64) (length : BitVec 6) (s : State) :
    Host.Outcome State Fault Refusal :=
  .next (issueEngine s lh ra imm (fun a => .rload slot length.toNat a))
/-- PUSH (R83, R171). -/
def execPush (lh : Fin 48) (stack : Fin 8) (ra : Fin 32) (imm : BitVec 24) (s : State) : Host.Outcome State Fault Refusal :=
  .next (issueEngine s lh ra imm (fun a => .push stack a))
/-- POP (R84, R171). -/
def execPop (lh : Fin 48) (stack : Fin 8) (ra : Fin 32) (imm : BitVec 24) (s : State) : Host.Outcome State Fault Refusal :=
  .next (issueEngine s lh ra imm (fun a => .pop stack a))
/-- DMA (R172). -/
def execDma (lh : Fin 48) (ra : Fin 32) (imm : BitVec 24) (s : State) : Host.Outcome State Fault Refusal :=
  .next (issueEngine s lh ra imm .dma)
/-- POST (R178, R216). -/
def execPost (lh : Fin 48) (ra : Fin 32) (imm : BitVec 24) (own : Bool) (target : Fin 48) (s : State) :
    Host.Outcome State Fault Refusal :=
  .next (issueEngine s lh ra imm (fun a => .post own target a))

/-- NORMB (R174): NB is taken at issue and set at b0, so squares of the issue beat are cleared and those from b0 on enter the
new accumulator; illegal inside a window. -/
def execNormb (lh : Fin 48) (v : NormVal) (s : State) : Host.Outcome State Fault Refusal :=
  let named : List (Fin 32) := match v with
    | .imm _ => []
    | .reg ra => [ra]
  .next (issueOutside s lh named (fun s =>
    let c := (getH s lh).core
    let n : BitVec 10 := match v with
      | .imm n => n
      | .reg ra => (sreg c ra).setWidth 10
    handOver s lh (.normb n.toInt)))

end Sys2Proof.Machine
end

