-- ==== Sys2Proof/Machine/Lists.lean ====
section
/-!
DEFINITION. Machine/Lists.lean: work lists, stealing and merges (08_work_stealing.md, R213–R229; 06_control_core.md, R178).
-/
namespace Sys2Proof.Machine

/-- The block of the LIST page. -/
def listSub : Nat := 5

/-- A register of a list. -/
def listReg (s : State) (lh off : Nat) : Nat := getReg s (lbank lh listSub) off

/-- m of a list: 4–12; 0 where it is not configured (R215, R228). -/
def listM (s : State) (lh : Nat) : Nat :=
  let m := listReg s lh Reg.listSize % 16
  if 4 ≤ m ∧ m ≤ 12 then m else 0

/-- Slots of a list's ring. -/
def listSlots (s : State) (lh : Nat) : Nat := if listM s lh = 0 then 0 else 2 ^ listM s lh

/-- The list unit of a hamper. -/
def getList (s : State) (lh : Nat) : ListUnit := (getH s lh).list

/-- Apply a function to a list unit. -/
def modList (s : State) (lh : Nat) (f : ListUnit → ListUnit) : State := modH s lh (fun h => { h with list := f h.list })

/-- Items on their way to a list from a victim: their slots are kept for them (R220, log entry 161). -/
def comingItems (l : ListUnit) : Nat :=
  match l.steal with
  | some st => (st.answer.map (·.length)).getD 0
  | none => 0

/-- Free slots of a list: those of no item, not reserved by a taken one and not kept for stolen ones (R216, R218, R220). -/
def freeSlots (s : State) (lh : Nat) : Nat :=
  let l := getList s lh
  listSlots s lh - l.items.length - bit l.taken.isSome - comingItems l

/-- The visible items of a list (LIST_COUNT). -/
def visibleCount (l : ListUnit) : Nat := l.items.countP (fun i => i.visible)

/-- The address of the staging area of a slot (R215). -/
def stageAddr (s : State) (lh slot : Nat) : Nat := listReg s lh Reg.listStage + slot * listReg s lh Reg.listStageSize

/-- The record of an item as the list unit stores it: ORIGIN and STAGE filled in (R213). -/
def fillRecord (bs : List Byte) (origin stage : Nat) : List Byte :=
  let ctrl := setBits (fieldN bs 0x0C 4) 13 8 origin
  bs.take 0x0C ++ bytesLE 4 ctrl ++ (bs.drop 0x10).take 0x14 ++ bytesLE 4 stage ++ bs.drop 0x28

/-- The ORIGIN of a record. -/
def recordOrigin (bs : List Byte) : Nat := bits (fieldN bs 0x0C 4) 13 8

/-- Append an item to the tail of a list: the record is written into the next slot of the ring, and its fetch begins (R216). -/
def appendItem (s : State) (lh : Nat) (bs : List Byte) (origin : Nat) (gstep : StepNo) (due : Nat) : State :=
  let l := getList s lh
  let slot := l.tail
  let len := fieldN bs 0x20 4
  let r := fillRecord bs origin (if len = 0 then 0 else stageAddr s lh slot)
  let it : ListItem := { slot := slot, entry := BitVec.ofNat 64 (fieldN bs 0 8), cost := fieldN bs 8 4
                         pinned := (fieldN bs 0x0C 4).testBit 2, fetchAddr := fieldN bs 0x18 8, fetchLen := len
                         record := r, visible := false, gstep := gstep, due := due }
  let s := { s with mem := memWrite s.mem (pantryAddr lh (listReg s lh Reg.listBase + 64 * slot)) r }
  modList s lh (fun l => { l with items := l.items ++ [it], tail := (slot + 1) % listSlots s lh })

/-! ## POST (R178, R213, R214, R216, R222, R223) -/

/-- Whether a work-item record is malformed for its target list (R213, R214). -/
def itemBad (s : State) (target : Nat) (bs : List Byte) : Bool :=
  let entry := fieldN bs 0 8
  let ctrl := fieldN bs 0x0C 4
  let fa := fieldN bs 0x18 8
  let fl := fieldN bs 0x20 4
  entry == 0 || decide (entry % 8 ≠ 0) || fieldN bs 8 4 == 0 || decide (bits ctrl 7 3 ≠ 0) || decide (bits ctrl 31 14 ≠ 0) ||
  decide (fa % 64 ≠ 0) || decide (fl % 64 ≠ 0) || decide (listReg s target Reg.listStageSize < fl) ||
  (fl != 0 && !bulkRangeOk s fa fl) || listM s target == 0

/-- Whether a merge record is malformed (R222). -/
def mergeBad (own : Bool) (bs : List Byte) : Bool :=
  let ctrl := fieldN bs 0x0C 4
  let src := fieldN bs 0x10 4
  let dst := fieldN bs 0x14 4
  let m := fieldN bs 0x18 4
  let t := fieldN bs 0x1C 4
  !own || fieldN bs 0 12 != 0 || ctrl != 2 || bits src 1 0 == 3 || decide (bits src 7 2 ≠ 0) || decide (bits src 31 15 ≠ 0) ||
  bits dst 1 0 == 3 || decide (bits dst 7 2 ≠ 0) || src.testBit 15 || dst.testBit 15 || decide (48 ≤ bits dst 21 16) ||
  decide (bits dst 31 22 ≠ 0) || decide (bits m 30 8 ≠ 0) || decide (bits t 14 12 ≠ 0) || decide (bits t 31 16 ≠ 0) ||
  fieldN bs 0x20 32 != 0

/-- A merge read from its record (R222, R223). -/
def mergeOf (bs : List Byte) (first ctx : Nat) : MergeRead :=
  let src := fieldN bs 0x10 4
  let dst := fieldN bs 0x14 4
  let m := fieldN bs 0x18 4
  let t := fieldN bs 0x1C 4
  { srcFrame := Fin.ofNat 3 (bits src 1 0), srcRow := bits src 14 8, dstFrame := Fin.ofNat 3 (bits dst 1 0)
    dstRow := bits dst 14 8, dstLh := bits dst 21 16, dstModule := if m.testBit 31 then none else some (bits m 7 0)
    tally := if t.testBit 15 then some (bits t 11 0) else none, first := first, slots := [], ctx := ctx }

/-- The 128 bits of a basket slot (R59). -/
def packSlot (x : Slot) : Nat :=
  if !x.occupied && x = Slot.empty then 0
  else ofSigned 104 x.v + 2 ^ 104 * x.res + 2 ^ 111 * bit x.clamp + 2 ^ 112 * ofSigned 10 x.anchor + 2 ^ 122 * bit x.occupied

/-- The basket slot of 128 bits (R59). -/
def unpackSlot (n : Nat) : Slot :=
  { v := toSigned 104 (bits n 103 0), res := bits n 110 104, clamp := n.testBit 111, anchor := toSigned 10 (bits n 121 112)
    occupied := n.testBit 122 }

/-- The agent number of the merges into a hamper, as a source of signals (R237). -/
def agentMerge (lh : Nat) : Nat := agentOf 1 lh

/-- A merge read has read its last slot: the row leaves for its target in this module, or as a MERGE message (R223, R356). -/
def sendMerge (s : State) (lh : Nat) (m : MergeRead) : State :=
  let s := countLh s lh listSub Reg.listMergesOut 1
  let local_ := match m.dstModule with
    | none => true
    | some k => inSite s && k == selfModule s
  if local_ then
    { s with merges := s.merges ++ [{ dstLh := Fin.ofNat 48 m.dstLh, dstFrame := m.dstFrame, dstRow := m.dstRow
                                      slots := (m.slots.zipIdx.filter (fun x => x.1.occupied)).map (fun x => (x.2, x.1))
                                      tally := m.tally, ctx := m.ctx, from_ := none, attempt := none }] }
  else
    nearSend s (m.dstModule.getD 0) m.ctx
      { kind := 0x40, data := m.slots.flatMap (fun x => bytesLE 16 (packSlot x))
        fields := [m.dstFrame + 256 * m.dstRow + 2 ^ 16 * m.dstLh, match m.tally with
          | some v => v + 2 ^ 15
          | none => 0, m.ctx, s.uc.step.toNat, s.flt.attempt] }

/-- Read and clear slots lo to hi − 1 of the source row of a merge read (R223). -/
def mergeSlots (h : Hamper) (m : MergeRead) (lo hi : Nat) : Hamper × MergeRead :=
  (List.range (hi - lo)).foldl (fun (a : Hamper × MergeRead) i =>
    let f := getFrame a.1 m.srcFrame
    let n := lo + i
    ({ a.1 with frames := a.1.frames.setIfInBounds m.srcFrame (setSlotB f m.srcRow n .empty) },
     { a.2 with slots := a.2.slots ++ [getSlotB f m.srcRow n] })) (h, m)

/-- The merge read of a hamper in beat t: four slots; the finished read, if it ends (R223). -/
def mergeBeat (h : Hamper) (t : Nat) : Hamper × Option MergeRead :=
  match h.list.merges with
  | [] => (h, none)
  | m :: rest =>
    if t < m.first then (h, none)
    else
      let (h, m) := mergeSlots h m m.slots.length (m.slots.length + 4)
      if 128 ≤ m.slots.length then ({ h with list := { h.list with merges := rest } }, some m)
      else ({ h with list := { h.list with merges := m :: rest } }, none)

/-- A fifth merge read stalls the package until a queued read starts (R223): the running read ends in the stalled beat t, and
the queued ones follow from the next beat on (log entry 24). -/
def mergeStall (s : State) (lh t : Nat) : State :=
  let h := getH s lh
  match h.list.merges with
  | [] => s
  | m :: rest =>
    let (h, m) := mergeSlots h m m.slots.length 128
    let rest := rest.zipIdx.map (fun x => { x.1 with first := t + 1 + 32 * x.2 })
    sendMerge (countLh (setH s lh { h with list := { h.list with merges := rest } }) lh listSub Reg.listStallBeats 1) lh m

/-- Queue a merge read in beat t: it starts then, or in the beat after the reads before it end (R223). -/
def queueMerge (s : State) (lh t : Nat) (bs : List Byte) (ctx : Nat) : State :=
  let s := if 4 ≤ (getList s lh).merges.length then mergeStall s lh t else s
  let first := match (getList s lh).merges.getLast? with
    | some m => Nat.max t (m.first + 32)
    | none => t
  modList s lh (fun l => { l with merges := l.merges ++ [mergeOf bs first ctx] })

/-- A POST in its beat b0 = t; none while the target list has no free slot, which stalls the beat (R216, R217). -/
def startPost (s : State) (lh : Nat) (own : Bool) (target addr : Nat) (tag : OpTag) : Option State :=
  let t := beatOf s lh
  let bs := (List.range 64).map (fun i => if addr + i < pantrySize s lh then memGet s.mem (pantryAddr lh (addr + i)) else 0)
  let goal := if own then lh else target
  let kind := bits (fieldN bs 0x0C 4) 1 0
  let s := setErrIf (decide (pantrySize s lh < addr + 64)) s (hamPage s lh listSub) errOutOfMap
  let bad := decide (addr % 64 ≠ 0) || (if kind = 1 then itemBad s goal bs else if kind = 2 then mergeBad own bs || listM s goal == 0 else true)
  if bad then some (setErrLh s lh listSub 0)
  else if kind = 2 then some (queueMerge (countLh s lh listSub Reg.listPosted 1) lh t bs tag.ctx)
  else if freeSlots s goal = 0 then none
  else some (countLh (appendItem s goal bs lh tag.gstep (t - 1 + 96 + ceilDiv (fieldN bs 0x20 4) 256)) goal listSub Reg.listPosted 1)

/-! ## TAKE and STEAL (R178, R218–R221) -/

/-- TAKE at its issue in beat t (R178, R218). The cost must fit into the window after the beat in which the handle is returned. -/
def takeAt (s : State) (lh : Nat) (rd : Fin 32) (t : Nat) : State :=
  let l := getList s lh
  let last := match (getH s lh).core.window with
    | some w => w.last
    | none => 0
  let s := modList s lh (fun l => { l with taken := none })
  let give := fun (s : State) (v : Word) => modCore s lh (fun c => pendReg c t rd v)
  match l.items with
  | [] => give s 0
  | i :: rest =>
    if i.visible && decide (t + 4 + i.cost ≤ last) then
      let s := modList s lh (fun l => { l with items := rest, taken := some i.slot
                                               copies := l.copies ++ [(t + 3, listReg s lh Reg.listTakeAddr, i.record)] })
      let s := countLh (countLh s lh listSub Reg.listTaken 1) lh 0 Reg.hamTakes 1
      let s := modCore s lh (fun c => { c with window := c.window.map (fun w => { w with itemStep := some i.gstep }) })
      give s i.entry
    else give s 0

/-- TAKE (R178, R218); illegal outside a window. -/
def execTake (lh : Fin 48) (rd : Fin 32) (s : State) : Host.Outcome State Fault Refusal :=
  .next (issueInside s lh [rd] (fun s => takeAt s lh rd (beatOf s lh)))

/-- PROBE of a list (R228). -/
def listProbe (s : State) (lh : Nat) : Nat := bits (listReg s lh Reg.listStealCfg) 5 0

/-- STEAL (R178, R220); illegal outside a window. -/
def execSteal (lh : Fin 48) (s : State) : Host.Outcome State Fault Refusal :=
  .next (issueInside s lh [] (fun s =>
    if (getList s lh).steal.isSome then countLh s lh 0 Reg.hamStealsDropped 1
    else if listProbe s lh = 0 then s
    else
      let st : Steal := { left := listProbe s lh, empty := 0, due := beatOf s lh + 96, answer := none, victim := 0 }
      modList (countLh s lh 0 Reg.hamSteals 1) lh (fun l => { l with steal := some st })))

/-- The victim at a position 0–46 of the victim order of a logical hamper (R219). -/
def victimAt (h pos : Nat) : Nat :=
  let d := h / 12
  let k := h % 12
  if pos < 11 then 12 * d + (k + pos + 1) % 12
  else
    let i := (pos - 11) % 12
    let d' := match (pos - 11) / 12 with
      | 0 => (d + 1) % 4
      | 1 => (d + 3) % 4
      | _ => (d + 2) % 4
    12 * d' + (k + i) % 12

/-- Whether a victim's list belongs to the context of the thief (R219). -/
def sameContext (s : State) (thief victim : Nat) : Bool :=
  let a := (getH s thief).core
  let b := (getH s victim).core
  b.launched && decide (a.ctx = b.ctx)

/-- The next position from p on whose victim is probed, within n positions (R219). -/
def nextVictim (s : State) (lh : Nat) : Nat → Nat → Option Nat
  | 0, _ => none
  | n + 1, p => if sameContext s lh (victimAt lh p) then some p else nextVictim s lh n ((p + 1) % 47)

/-- How many items a probe may remove from the tail of a list: from the newest on, up to the first pinned or not visible one,
ceil(c/2), or want (R220). -/
def stealable (l : ListUnit) (want : Nat) : Nat :=
  let free := (l.items.reverse.takeWhile (fun i => i.visible && !i.pinned)).length
  Nat.min (Nat.min free (ceilDiv (visibleCount l) 2)) want

/-- End a steal that yielded nothing (R220). -/
def stealEmpty (s : State) (lh n : Nat) : State :=
  modList (countLh s lh listSub Reg.listProbesEmpty n) lh (fun l => { l with steal := none })

/-- STEAL_PROBE (R220): the probe reaches the victim's list unit. -/
def execStealProbe (lh : Fin 48) (s : State) : Host.Outcome State Fault Refusal :=
  .next (match (getList s lh).steal with
    | none => s
    | some st =>
      if st.answer.isSome then s
      else match nextVictim s lh 47 (getList s lh).cursor with
        | none => stealEmpty s lh st.empty
        | some p =>
          let v := victimAt lh p
          let want := Nat.min (bits (listReg s lh Reg.listStealCfg) 15 8) (freeSlots s lh)
          let l := getList s v
          let k := stealable l want
          let got := l.items.drop (l.items.length - k)
          let m := listSlots s v
          let s := if k = 0 then s else
            countLh (modList s v (fun l => { l with items := l.items.take (l.items.length - k)
                                                    tail := (l.tail + m - k) % m })) v listSub Reg.listStolenOut k
          modList s lh (fun l => { l with cursor := p, steal := some { st with answer := some got, victim := v } }))

/-- PROBE_ANSWER (R220, R221): the items are appended to the thief's tail and fetched again, or the cursor moves on. -/
def execProbeAnswer (lh : Fin 48) (s : State) : Host.Outcome State Fault Refusal :=
  .next (match (getList s lh).steal with
    | none => s
    | some st =>
      match st.answer with
      | none => s
      | some got =>
        let t := beatOf s lh
        let s := if t = st.due then countLh s lh listSub Reg.listStallBeats 1 else s
        if got.isEmpty then
          let s := modList s lh (fun l => { l with cursor := (l.cursor + 1) % 47 })
          if st.left ≤ 1 then stealEmpty s lh (st.empty + 1)
          else modList s lh (fun l => { l with steal := some { st with left := st.left - 1, empty := st.empty + 1
                                                                       due := t + 96, answer := none } })
        else
          let due := t + ceilDiv ((got.map (·.fetchLen)).sum) 256
          let s := got.foldl (fun s i => appendItem s lh i.record (recordOrigin i.record) i.gstep due) s
          modList (countLh s lh listSub Reg.listStolenIn got.length) lh (fun l => { l with steal := none }))

/-- ITEM_VISIBLE (R216): the operand fetch of the first item not yet visible completes. -/
def execItemVisible (lh : Fin 48) (s : State) : Host.Outcome State Fault Refusal :=
  .next (match (getList s lh).items.find? (fun i => !i.visible) with
    | none => s
    | some i =>
      let bs := memRead s.mem i.fetchAddr i.fetchLen
      let s := { s with mem := memWrite s.mem (pantryAddr lh (stageAddr s lh i.slot)) bs }
      let s := if beatOf s lh = i.due then countLh s lh listSub Reg.listStallBeats 1 else s
      modList s lh (fun l => { l with items := l.items.map (fun x => if x.slot = i.slot then { x with visible := true } else x) }))

/-- Whether a list holds the die's beat t: an item due is not visible, or a probe due is not answered (R216, R221). -/
def listBlocks (l : ListUnit) (t : Nat) : Bool :=
  l.items.any (fun i => !i.visible && decide (i.due ≤ t)) ||
  (match l.steal with
    | some st => decide (st.due ≤ t)
    | none => false)

/-- BASKET_MERGE (R61, R62, R223, R356): row i of the merges in flight is added into its target, then the tally is signalled. A
row of a later attempt waits (R309). -/
def execBasketMerge (i : Nat) (s : State) : Host.Outcome State Fault Refusal :=
  .next (match s.merges[i]? with
    | none => s
    | some m =>
      if m.attempt.isSome && decide (m.attempt ≠ some s.flt.attempt) then s
      else
        let s := { s with merges := listErase s.merges i }
        let (f, bad) := mergeRow (getFrame (getH s m.dstLh) m.dstFrame) m.dstRow m.slots
        let s := modFrame s m.dstLh m.dstFrame (fun _ => f)
        let s := setErrIf bad s (hamPage s m.dstLh (frameSub m.dstFrame)) 4
        let s := countLh s m.dstLh listSub Reg.listMergesIn 1
        match m.tally with
        | some v => sendSignal s none (agentMerge m.dstLh) m.ctx v 1 (beatOf s m.dstLh)
        | none => s)

/-- Empty a list: its items are discarded, its taken slot released and its steal forgotten (R227, R228). -/
def emptyList (s : State) (lh : Nat) : State :=
  modList s lh (fun l => { l with items := [], tail := 0, taken := none, steal := none, copies := [] })

end Sys2Proof.Machine
end

