-- ==== Sys2Proof/Machine/Stash.lean ====
section
/-!
DEFINITION. Machine/Stash.lean: the stash unit: entries, pushes, pops, spills and errors (03_backward_and_stash.md, R81–R88;
06_control_core.md, R171).
-/
namespace Sys2Proof.Machine

/-- The block of the STASH page. -/
def stashSub : Nat := 4

/-- The engine number of the stash unit (R209). -/
def engineStash : Nat := 5

/-- Lines of the mantissa plane of an entry. -/
def mantLines (d : StashDesc) : Nat := ceilDiv d.mantLen 64

/-- n: lines of the payload of an entry (R82). -/
def entryLines (d : StashDesc) : Nat := mantLines d + ceilDiv d.expLen 64

/-- s: bytes of an entry (R82). -/
def entryBytes (d : StashDesc) : Nat := 64 * (entryLines d + 1)

/-- Beat count of a push or pop (R83, R84). -/
def stashBeats (push : Bool) (d : StashDesc) : Nat := ceilDiv (entryLines d) 4 + (if push then 1 else 48)

/-- The last beat of a stash operation. -/
def stashLast (r : StashRun) : Nat := r.b0 + stashBeats r.push r.d - 1

/-- The five fields a pop compares (R84). -/
def namedFields (d : StashDesc) : List Nat := [d.tag, d.micro, d.fmt, d.mantLen, d.expLen]

/-- The trailer of an entry (R82). -/
def trailerBytes (d : StashDesc) (step : Nat) : List Byte :=
  padTo 64 (bytesLE 4 d.tag ++ bytesLE 2 d.micro ++ bytesLE 2 d.fmt ++ bytesLE 4 d.mantLen ++ bytesLE 4 d.expLen ++
    bytesLE 6 step)

/-- The five fields of a trailer in memory (R82). -/
def trailerFields (m : List (Nat × Byte)) (a : Nat) : List Nat :=
  [memNat m a 4, memNat m (a + 4) 2, memNat m (a + 6) 2 % 8, memNat m (a + 8) 4, memNat m (a + 12) 4]

/-- Whether a descriptor is malformed under R83. -/
def stashBad (env : EngEnv) (d : StashDesc) (addr : Nat) : Bool :=
  decide (addr % 32 ≠ 0) || d.reserved || decide (3 < d.fmt) || (decide (d.fmt ≤ 1) && d.expLen == 0) ||
  (decide (2 ≤ d.fmt) && d.expLen != 0) || d.mantLen == 0 || decide (8388608 < d.mantLen) || decide (262144 < d.expLen) ||
  env.beyond d.mantAddr (64 * mantLines d) || env.beyond d.expAddr (64 * ceilDiv d.expLen 64)

/-- The effects of an error of a push or pop: PAGE_ERR bit, the error registers, the event, and the step told (R88, R92).
The DATA layout is the model's (log entry 21). -/
def stashFail (env : EngEnv) (b stack tag found info : Nat) : List Eff :=
  [.err stashSub b, .reg stashSub Reg.stashErrExpect tag, .reg stashSub Reg.stashErrFound found,
   .reg stashSub Reg.stashErrInfo (stack + info),
   .event evStashError stashSub ([BitVec.ofNat 8 env.lh, BitVec.ofNat 8 stack, BitVec.ofNat 8 b, 0] ++ bytesLE 4 tag), .stashError]

/-- Where a push lands (R85): the extension flag and the address; none is an overflow. -/
def pushPlace (k : Stack) (s : Nat) : Option (Bool × Nat) :=
  if k.topE = 0 ∧ k.topH + s ≤ k.wmark then some (false, k.base + k.topH)
  else if k.topE + s ≤ k.extSize then some (true, k.extBase + k.topE)
  else none

/-- Where a pop takes its entry (R85): the extension flag and the address of an entry of s bytes; none is an underflow. -/
def popPlace (k : Stack) (s : Nat) : Option (Bool × Nat) :=
  if 0 < k.topE then some (true, k.extBase + k.topE - s)
  else if 0 < k.topH then some (false, k.base + k.topH - s)
  else none

/-- Start a push or pop in beat b0 = t (R83–R87, R171, R176). busy tells that an operation occupies the unit. -/
def startStash (env : EngEnv) (stackRegs : Vector Stack 8) (busy push : Bool) (stack : Fin 8) (addr : Nat) (tag : OpTag) :
    Option StashRun × Out :=
  let d := readStashDesc env addr
  let k := stackRegs[stack]
  let o : Out := { writes := [], lines := tagLines false engineStash (linesOf addr 32)
                   effs := effIf (env.beyond addr 32) (.err stashSub errOutOfMap) }
  let fail := fun (b : Nat) => (none, o.app (.eff (stashFail env b stack d.tag 0 0)))
  if tag.win && decide (tag.winEnd < env.t + stashBeats push d - 1) then (none, o.app (.eff [.err 0 3]))
  else if busy then fail 4
  else if k.ctx ≠ tag.ctx ∨ stashBad env d addr then fail 0
  else
    let place := if push then pushPlace k (entryBytes d) else popPlace k (entryBytes d)
    match place with
    | none => fail (if push then 3 else 2)
    | some (ext, base) =>
      let tr := if push then base + 64 * entryLines d else k.base + k.topH - 64
      (some { b0 := env.t, push := push, stack := stack, d := d, n := entryLines d, ext := ext, base := base
              found := if push || ext then [] else trailerFields env.mem tr, checked := false, mism := false
              trailerIn := !ext, payloadIn := !ext, ran := false, done := false, tag := tag },
       if push || ext then o else o.app (.eff [.burst ⟨tr, false, 2, engineStash, 64⟩]))

/-- The pantry address of payload line i of an operation, and how many of its bytes belong to the planes (R83, R84). -/
def payloadLine (d : StashDesc) (i : Nat) : Nat × Nat :=
  let m := mantLines d
  if i < m then (d.mantAddr + 64 * i, Nat.min 64 (d.mantLen - 64 * i))
  else (d.expAddr + 64 * (i - m), Nat.min 64 (d.expLen - 64 * (i - m)))

/-- The payload lines moved in the k-th payload beat: four per beat. -/
def payloadOf (d : StashDesc) (k : Nat) : List Nat :=
  ((List.range 4).map (fun i => 4 * k + i)).filter (fun i => decide (i < entryLines d))

/-- The pantry ranges a stash operation touches in beat t (reads, writes), for the hazard detector (R206). -/
def stashPlan (r : StashRun) (t : Nat) : List (Nat × Nat) × List (Nat × Nat) :=
  if r.push then
    (if r.b0 ≤ t then (payloadOf r.d (t - r.b0)).map (fun i => ((payloadLine r.d i).1, 64)) else [], [])
  else
    ([], if r.b0 + 48 ≤ t ∧ !r.mism then (payloadOf r.d (t - r.b0 - 48)).map (payloadLine r.d) else [])

/-- A push in beat t: payload lines to memory, then the trailer (R83). -/
def pushBeat (env : EngEnv) (r : StashRun) : StashRun × Out :=
  let k := env.t - r.b0
  let ls := payloadOf r.d k
  let q := ceilDiv r.n 4
  let stores := ls.map (fun i => Eff.store (r.base + 64 * i) (env.read (payloadLine r.d i).1 64))
  let bursts := effIf (!r.ext && decide (k < q)) (.burst ⟨r.base + 256 * k, true, 2, engineStash, 64 * ls.length⟩) ++
    effIf (!r.ext && k == q) (.burst ⟨r.base + 64 * r.n, true, 2, engineStash, 64⟩)
  let trailer := effIf (k == q) (.store (r.base + 64 * r.n) (trailerBytes r.d env.step))
  (r, { writes := [], lines := tagLines false engineStash (rangeLines (ls.map (fun i => ((payloadLine r.d i).1, 64))))
        effs := stores ++ trailer ++ bursts })

/-- The failing fields of a pop for STASH_ERR_INFO (R92). -/
def mismatchInfo (want found : List Nat) : Nat :=
  let ne := fun (i : Nat) => want.getD i 0 != found.getD i 0
  256 * bit (ne 0) + 512 * bit (ne 1) + 1024 * bit (ne 2) + 2048 * bit (ne 3 || ne 4)

/-- A pop in beat t: the comparison by beat b0 + 47, then payload lines to the pantry (R84). -/
def popBeat (env : EngEnv) (r : StashRun) : StashRun × Out :=
  let k := env.t - r.b0
  if k = 47 then
    let bad := decide (namedFields r.d ≠ r.found)
    ({ r with checked := true, mism := bad },
     .eff (if bad then stashFail env 1 r.stack r.d.tag (r.found.getD 0 0) (mismatchInfo (namedFields r.d) r.found) else []))
  else if k < 48 ∨ r.mism then (r, .none_)
  else
    let ls := payloadOf r.d (k - 48)
    (r, { writes := ls.map (fun i => { prio := 2, addr := (payloadLine r.d i).1
                                       data := memRead env.mem (r.base + 64 * i) (payloadLine r.d i).2 })
          lines := tagLines true engineStash (rangeLines (ls.map (payloadLine r.d)))
          effs := effIf (!r.ext && !ls.isEmpty) (.burst ⟨r.base + 256 * (k - 48), false, 2, engineStash, 64 * ls.length⟩) })

/-- The work of a stash operation in beat t. -/
def stashBeat (env : EngEnv) (r : StashRun) : StashRun × Out :=
  if r.done || r.ran then (r, .none_) else if r.push then pushBeat env r else popBeat env r

/-- Whether a pop lacks the data its beat needs (R86). -/
def stashWaits (r : StashRun) (t : Nat) : Bool :=
  !r.push && !r.ran && ((t == r.b0 + 47 && !r.trailerIn) || (decide (r.b0 + 48 ≤ t) && !r.mism && !r.payloadIn))

/-- The stack after a successful push (R85, R92). -/
def pushTop (k : Stack) (ext : Bool) (s : Nat) : Stack :=
  let k := if ext then { k with topE := k.topE + s } else { k with topH := k.topH + s }
  { k with depth := satAdd 32 k.depth 1, peak := Nat.max k.peak (k.topH + k.topE) }

/-- The stack after a successful pop (R85). -/
def popTop (k : Stack) (ext : Bool) (s : Nat) : Stack :=
  let k := if ext then { k with topE := k.topE - s } else { k with topH := k.topH - s }
  { k with depth := k.depth - 1 }

/-- The effects of completing an operation, and the stack after it (R85, R92). The DATA layout of SPILL is the model's. -/
def stashFinish (env : EngEnv) (k : Stack) (r : StashRun) : Stack × List Eff :=
  if r.push then
    (pushTop k r.ext (entryBytes r.d),
     .count stashSub Reg.stashPushes 1 :: (if r.ext then
       .count stashSub Reg.stashSpilled 1 :: effIf (k.topE == 0) (.event evSpill stashSub
         ([BitVec.ofNat 8 env.lh, BitVec.ofNat 8 r.stack, 0, 0] ++ bytesLE 4 r.d.tag)) else []))
  else if r.mism then (k, [])
  else (popTop k r.ext (entryBytes r.d), [.count stashSub Reg.stashPops 1])

end Sys2Proof.Machine
end

