-- ==== Sys2Proof/Machine/Beat.lean ====
section
/-!
DEFINITION. Machine/Beat.lean: beats of a compute die: what each hamper's engines do in a beat, the completions of their
operations, and the advance to the next beat (07_beat_schedule_contract.md, R182–R193, R203–R209).
-/
namespace Sys2Proof.Machine

/-- What the engines of a hamper see of the beat in progress. -/
def engEnv (s : State) (lh : Nat) (ups : List Upset) : EngEnv :=
  { mem := s.mem, lh := lh, psize := pantrySize s lh, t := beatOf s lh, seed := (getCtx s (getH s lh).core.ctx).seed
    step := s.uc.step.toNat, free := Config.freeNat (s.free + lh), ups := ups }

/-! ## Effects -/

/-- Add the square of a drained value to a norm accumulator (R124). -/
def normAdd (a : NormAcc) (x : Exact) : NormAcc :=
  let sh := 2 * x.e + 128 - a.nb
  let m2 := x.m.natAbs * x.m.natAbs
  let q := if 0 ≤ sh then m2 * 2 ^ sh.toNat else m2 / 2 ^ (-sh).toNat
  if 2 ^ 192 ≤ a.n + q then { a with n := 2 ^ 192 - 1, res := 7, mark := true }
  else { a with n := a.n + q, res := (a.res + q) % 127 }

/-- Add a term to a digest slot (R285). -/
def digestAdd (l : List (Nat × Word)) (slot : Nat) (term : Word) : List (Nat × Word) :=
  sparseSet 0 l slot (sparseGet 0 l slot + term)

/-- Post a drain summary: inside a window it is kept apart (R164, R165, R177). -/
def postDrain (c : Core) (f : Nat) (win : Bool) (d : DrainSum) : Core :=
  if win then (if inWindow c then { c with drainsWin := c.drainsWin.setIfInBounds f (some d) } else c)
  else { c with drains := c.drains.setIfInBounds f d }

/-- Post a vector summary (R110, R164, R177). -/
def postVsum (c : Core) (win : Bool) (v : VecSum) : Core :=
  if win then (if inWindow c then { c with vsumWin := some v } else c) else { c with vsum := v }

/-- Apply an effect of a hamper's work. A poisoned burst fails its check (R260). -/
def applyEff (s : State) (lh : Nat) (e : Eff) : State :=
  match e with
  | .err sub b => setErrLh s lh sub b
  | .count sub off n => countLh s lh sub off n
  | .reg sub off v => setReg s (lbank lh sub) off v
  | .counts win k =>
    modCore s lh (fun c => if win then { c with winCounts := c.winCounts.add k } else { c with counts := c.counts.add k })
  | .square x => modCore s lh (fun c => { c with norm := normAdd c.norm x })
  | .digest slot term => modCore s lh (fun c => { c with digests := digestAdd c.digests slot term })
  | .drainSum f win d => modCore s lh (fun c => postDrain c f win d)
  | .vecSum win v => modCore s lh (fun c => postVsum c win v)
  | .fail => hamperFailure s lh
  | .loadFail => loadCheckFailure (countLh (setErrLh s lh feederSub 0) lh feederSub Reg.feedLoadChecks 1) lh
  | .event code sub data => emit s code (hamPage s lh sub) data
  | .stashError => chargeStash s (some (getH s lh).core.ctx)
  | .burst b => if !b.write && poisoned s b.addr b.n then hamperFailure s lh else s
  | .store a bs => storeBytes s a bs

/-- Apply effects in order. -/
def applyEffs (s : State) (lh : Nat) (es : List Eff) : State := es.foldl (fun s e => applyEff s lh e) s

/-- Whether an effect may stop programs, and so is applied last in its beat. -/
def effLast (e : Eff) : Bool :=
  match e with
  | .fail => true
  | .loadFail => true
  | .stashError => true
  | .burst _ => true
  | _ => false

/-! ## Completions -/

/-- The bursts among effects. -/
def burstsOf (es : List Eff) : List Burst :=
  es.filterMap (fun e => match e with
    | .burst b => some b
    | _ => none)

/-- Put what a completion gives into the beat in progress: its writes wait for the end of the beat, its lines count in it, its effects
are applied. -/
def completeWith (s : State) (lh : Nat) (o : Out) : State :=
  let s := modH s lh (fun h => { h with writes := h.writes ++ o.writes, lines := o.lines ++ h.lines, bursts := h.bursts ++ burstsOf o.effs })
  applyEffs s lh o.effs

/-- Whether a hamper's program has been stopped: what its engines still do is the tail, in which nothing is posted (R427, R433). -/
def inTail (s : State) (lh : Nat) : Bool := (getH s lh).core.stopped

/-- Whether a pass posts in beat t. -/
def passDue (p : PassRun) (t : Nat) : Bool := !p.done && passLast p == t && (p.refused || p.limit == p.d.rows)

/-- PASS_COMPLETE (R51, R165): the pass's last beat of work, and its summary. -/
def execPassComplete (lh : Fin 48) (f : Fin 3) (s : State) : Host.Outcome State Fault Refusal :=
  let t := beatOf s lh
  let fr := getFrame (getH s lh) f
  .next (match (if inTail s lh then none else fr.passes.find? (passDue · t)) with
    | none => s
    | some p =>
      let (fr, p', o1) := passBeat (engEnv s lh []) f fr p
      let (p', o2) := postPass f p'
      let s := modFrame s lh f (fun _ => { fr with passes := fr.passes.map (fun q => if q.b0 = p.b0 ∧ passDue q t then p' else q) })
      completeWith s lh (o1.app o2))

/-- LOAD_COMPLETE (R48): the load's last beat; the shadow and MW are as its rows gave them. -/
def execLoadComplete (lh : Fin 48) (f : Fin 3) (s : State) : Host.Outcome State Fault Refusal :=
  let t := beatOf s lh
  let fr := getFrame (getH s lh) f
  .next (match (if inTail s lh then none else fr.loads.find? (fun l => !l.done && l.b0 + 127 == t)) with
    | none => s
    | some l =>
      let (fr, o) := loadBeat (engEnv s lh []) f fr l
      let s := modFrame s lh f (fun _ => { fr with loads := fr.loads.map (fun q => if q.b0 = l.b0 then { q with done := true } else q) })
      completeWith s lh o)

/-- TURN_COMPLETE (R77): the turn's last beat; it counts when it was performed (R472). -/
def execTurnComplete (lh : Fin 48) (f : Fin 3) (s : State) : Host.Outcome State Fault Refusal :=
  let t := beatOf s lh
  let fr := getFrame (getH s lh) f
  .next (match (if inTail s lh then none else fr.turns.find? (fun u => !u.done && u.b0 + 127 == t)) with
    | none => s
    | some u =>
      let (fr, o) := turnBeat (engEnv s lh []) f fr u
      let s := modFrame s lh f (fun _ => { fr with turns := fr.turns.map (fun q => if q.b0 = u.b0 then { q with done := true } else q) })
      completeWith s lh (o.app (.eff [.count feederSub Reg.feedTurns (bit (!u.refused))])))

/-- Whether a call posts in beat t. -/
def vecDue (v : VecRun) (t : Nat) : Bool := !v.done && (v.cut.isNone || !v.stop) && vecLast v == t

/-- VCALL_COMPLETE (R101, R110). -/
def execVcallComplete (lh : Fin 48) (s : State) : Host.Outcome State Fault Refusal :=
  let t := beatOf s lh
  let h := getH s lh
  .next (match (if inTail s lh then none else h.vec.find? (vecDue · t)) with
    | none => s
    | some v =>
      let (v', o1, hit) := vecBeat (engEnv s lh []) h.vecInject v
      let (v', o2) := postVec v'
      let s := modH s lh (fun h => { h with vec := h.vec.map (fun x => if vecDue x t then v' else x)
                                            vecInject := if hit then none else h.vecInject })
      completeWith s lh (o1.app o2))

/-- The end of a push or pop (R83–R85): the last beat's lines, then the stack's top moves. -/
def completeStash (s : State) (lh : Nat) (push : Bool) : State :=
  let t := beatOf s lh
  let h := getH s lh
  match (if inTail s lh then none else h.stash.find? (fun r => !r.done && r.push == push && stashLast r == t && !stashWaits r t)) with
  | none => s
  | some r =>
    let env := engEnv s lh []
    let (r', o) := stashBeat env r
    let (k, es) := stashFinish env h.stackRegs[r.stack] r'
    let s := modH s lh (fun h => { h with stash := h.stash.map (fun x => if x.b0 = r.b0 then { r' with done := true } else x)
                                          stackRegs := h.stackRegs.set r.stack k })
    completeWith s lh (o.app (.eff es))

/-- PUSH_COMPLETE (R83). -/
def execPushComplete (lh : Fin 48) (s : State) : Host.Outcome State Fault Refusal := .next (completeStash s lh true)

/-- POP_COMPLETE (R84). -/
def execPopComplete (lh : Fin 48) (s : State) : Host.Outcome State Fault Refusal := .next (completeStash s lh false)

/-- STASH_EXTENSION_ARRIVAL (R86): the trailer or the payload of an extension pop is in; a poisoned one fails its check (R260). -/
def execStashExtensionArrival (lh : Fin 48) (payload : Bool) (s : State) : Host.Outcome State Fault Refusal :=
  .next (match (getH s lh).stash.find? (fun r => !r.push && r.ext && !r.done && !(if payload then r.payloadIn else r.trailerIn)) with
    | none => s
    | some r =>
      let a := if payload then r.base else r.base + 64 * r.n
      let n := if payload then 64 * r.n else 64
      let bad := poisoned s a n
      let r' := if payload then { r with payloadIn := true }
        else { r with trailerIn := true, found := trailerFields s.mem (r.base + 64 * r.n) }
      let s := modH s lh (fun h => { h with stash := h.stash.map (fun x => if x.b0 = r.b0 then r' else x) })
      if bad then hamperFailure s lh else s)

/-- The agent number of a hamper's DMA, as a source of signals (R237). -/
def agentDma (lh : Nat) : Nat := agentOf 2 lh

/-- SCHEDULED_DMA_COMPLETE (R172): its writes are complete, and its tally is signalled. -/
def execScheduledDmaComplete (lh : Fin 48) (s : State) : Host.Outcome State Fault Refusal :=
  let t := beatOf s lh
  .next (match (if inTail s lh then none else (getH s lh).dma.find? (fun r => !r.done && dmaLast r == t)) with
    | none => s
    | some r =>
      let (r', o) := dmaBeat (engEnv s lh []) r
      let s := modH s lh (fun h => { h with dma := h.dma.map (fun x => if x.b0 = r.b0 then { r' with done := true } else x) })
      let s := completeWith s lh o
      match r.tally with
      | some v => sendSignal s none (agentDma lh) r.tag.ctx v 1 t
      | none => s)

/-- OPEN_DMA_COMPLETE (R172): the copy, made at this moment, and the signal. -/
def execOpenDmaComplete (i : Nat) (s : State) : Host.Outcome State Fault Refusal :=
  .next (match s.dmas[i]? with
    | none => s
    | some d =>
      let bad := poisoned s d.src d.len
      let s := storeBytes { s with dmas := listErase s.dmas i } d.dst (memRead s.mem d.src d.len)
      let s := if bad then hamperFailure s d.lh else s
      match d.tally with
      | some v => sendSignal s none (agentDma d.lh) d.ctx v 1 (beatOf s d.lh)
      | none => s)

/-- The result of a commit of a recipe slot of a vector engine (R105, R106, R116). inUse tells that a call in progress names it. -/
def commitVec (s : State) (phys slot length page : Nat) (inUse : Bool) : State :=
  if inUse then setErr s page 3
  else
    let (r, x) := commitSlot false (s.stores[phys]?.getD .empty) slot length
    let s := { s with stores := s.stores.setIfInBounds phys r }
    match x with
    | none => s
    | some e => setReg (setErr s page 2) page Reg.vecRstoreFault (faultWord slot e)

/-- Whether a call in progress on a physical hamper holds a recipe slot (R106). -/
def slotHeld (s : State) (phys slot : Nat) : Bool :=
  (logicalsOf s phys).any (fun l => (getH s l).vec.any (fun v => callHolds v slot (beatOf s l)))

/-- RLOAD_COMMIT (R170): in the third beat the words are stored and the slot committed; a slot in use is left alone (R106). -/
def execRloadCommit (lh : Fin 48) (s : State) : Host.Outcome State Fault Refusal :=
  let t := beatOf s lh
  let phys := physOf s lh
  .next (match (if inTail s lh then none else (getH s lh).rloads.find? (fun r => !r.done && r.b0 + 2 == t)) with
    | none => s
    | some r =>
      let s := modH s lh (fun h => { h with rloads := h.rloads.map (fun x => if x.b0 = r.b0 then { x with done := true } else x) })
      if r.malformed then s
      else if slotHeld s phys r.slot then setErrLh s lh vectorSub 3
      else
        let st := r.words.zipIdx.foldl (fun st w => storeWord st r.slot w.2 w.1) (s.stores[phys]?.getD .empty)
        commitVec { s with stores := s.stores.setIfInBounds phys st } phys r.slot r.length (hamPage s lh vectorSub) false)

/-! ## Starts (R152) -/

/-- Open DMAs of a hamper on their way. -/
def openDmas (s : State) (lh : Nat) : Nat := s.dmas.countP (fun d => decide (d.lh.val = lh))

/-- Start a DMA in its beat b0; none while 16 open DMAs are outstanding (R172). -/
def startDmaOp (s : State) (lh : Fin 48) (addr : Nat) (tag : OpTag) : Option State :=
  let env := engEnv s lh []
  let d := readDmaDesc env addr
  let s := modH s lh (fun h => { h with lines := tagLines false engineDma (linesOf addr 32) ++ h.lines })
  let s := setErrIf (env.beyond addr 32) s (hamPage s lh 0) errOutOfMap
  if dmaBad env (bulkRangeOk s) d addr then some (setErrLh s lh 0 4)
  else if d.open_ then
    if 16 ≤ openDmas s lh then none
    else some { s with dmas := s.dmas ++ [{ lh := lh, src := d.src, dst := d.dst, len := d.len, tally := d.tally, ctx := tag.ctx }] }
  else
    let (r, es) := startDma env ((getH s lh).dma.any (fun r => !r.done)) d tag
    let s := applyEffs s lh es
    some (modH s lh (fun h => { h with dma := h.dma ++ r.toList }))

/-- Start an engine operation in beat b0, the beat in progress; none while it stalls. -/
def startOp (s : State) (lh : Fin 48) (st : EngineStart) : Option State :=
  let env := engEnv s lh []
  let h := getH s lh
  let sregs := h.core.sregs.set 0 0
  let put := fun (f : FrameIx) (x : Frame × Out) => some (completeWith (modFrame s lh f (fun _ => x.1)) lh x.2)
  match st.op with
  | .pass f a => put f (startPass env f (getFrame h f) a st.tag sregs)
  | .load f a => put f (startLoad env f (getFrame h f) a st.tag)
  | .turn f a => put f (startTurn env f (getFrame h f) a st.tag)
  | .vcall a =>
    let busy := h.vec.any (fun v => !v.done && v.cut.isNone)
    let (v, o) := startVec env (s.stores[physOf s lh]?.getD .empty) busy a st.tag sregs
    some (completeWith (modH s lh (fun h => { h with vec := h.vec ++ v.toList })) lh o)
  | .rload slot n a =>
    let (r, o) := startRload env slot n a st.tag
    some (completeWith (modH s lh (fun h => { h with rloads := h.rloads ++ r.toList })) lh o)
  | .push k a =>
    let (r, o) := startStash env h.stackRegs (h.stash.any (fun r => !r.done)) true k a st.tag
    some (completeWith (modH s lh (fun h => { h with stash := h.stash ++ r.toList })) lh o)
  | .pop k a =>
    let (r, o) := startStash env h.stackRegs (h.stash.any (fun r => !r.done)) false k a st.tag
    some (completeWith (modH s lh (fun h => { h with stash := h.stash ++ r.toList })) lh o)
  | .dma a => startDmaOp s lh a st.tag
  | .normb nb => some (modCore s lh (fun c => { c with norm := .empty nb }))
  | .post own target a => startPost s lh own target a st.tag

/-- Start an operation, or keep it as stalled; a stalled POST counts in LIST_STALL_BEATS (R217, R228). -/
def startOrStall (s : State) (lh : Fin 48) (st : EngineStart) : State :=
  match startOp s lh st with
  | some s => s
  | none =>
    let s := match st.op with
      | .post _ _ _ => countLh s lh listSub Reg.listStallBeats 1
      | _ => s
    modCore s lh (fun c => { c with stalled := c.stalled ++ [st] })

/-- Start the operations whose b0 is the beat in progress. -/
def startOps (s : State) (lh : Fin 48) : State :=
  let ops := (getH s lh).core.starts
  ops.foldl (fun s st => startOrStall s lh st) (modCore s lh (fun c => { c with starts := [] }))

/-- Try the stalled operations of a hamper again. -/
def retryStalled (s : State) (lh : Fin 48) : State :=
  let ops := (getH s lh).core.stalled
  ops.foldl (fun s st => match startOp s lh st with
    | some s => s
    | none => modCore s lh (fun c => { c with stalled := c.stalled ++ [st] })) (modCore s lh (fun c => { c with stalled := [] }))

/-! ## Acknowledgement (R183) -/

/-- Whether every completion due in beat t has come about. -/
def completionsDone (h : Hamper) (t : Nat) : Bool :=
  h.frames.all (fun f => f.passes.all (fun p => !passDue p t) && f.loads.all (fun l => l.done || l.b0 + 127 != t) &&
    f.turns.all (fun u => u.done || u.b0 + 127 != t)) &&
  h.vec.all (fun v => !vecDue v t) && h.rloads.all (fun r => r.done || r.b0 + 2 != t) &&
  h.stash.all (fun r => r.done || stashLast r != t) && h.dma.all (fun r => r.done || dmaLast r != t)

/-- Whether nothing of a hamper is outstanding that a SEAL waits for: no pass, drain, park, vector call or stash operation, except
one that ends in beat t (R120, R174). -/
def sealReady (h : Hamper) (t : Nat) : Bool :=
  h.core.starts.all (fun st => match st.op with
    | .pass _ _ => false
    | .vcall _ => false
    | .push _ _ => false
    | .pop _ _ => false
    | _ => true) &&
  h.frames.all (fun f => f.passes.all (fun p => p.done || decide (passLast p ≤ t))) &&
  h.vec.all (fun v => v.done || decide (vecLast v ≤ t)) && h.stash.all (fun r => r.done || decide (stashLast r ≤ t))

/-- Whether a seal request must leave in beat t. -/
def sealDue (h : Hamper) (t : Nat) : Bool :=
  match h.core.run with
  | .sealing _ _ => sealReady h t && h.core.sealBeat.isNone
  | _ => false

/-- Whether a window ends in beat t. -/
def windowDue (c : Core) (t : Nat) : Bool :=
  match c.window with
  | some w => w.last == t
  | none => false

/-- Whether a hamper's units have acknowledged beat t (R183); those of a stopped program do at once, but for a pop that waits for its
data (R305, R427). -/
def hamperAcked (h : Hamper) (t : Nat) : Bool :=
  if h.core.stopped then !h.stash.any (fun r => !r.done && stashWaits r t) else
  coreAcked h.core t && h.core.stalled.isEmpty && completionsDone h t && !h.stash.any (fun r => !r.done && stashWaits r t) &&
  !listBlocks h.list t && !sealDue h t && !windowDue h.core t

/-- Whether nothing of a hamper's engines is in flight in beat t: every operation has reached its break point or its end in an earlier
beat (R67, R114, R427); one done in beat t still writes at its end. -/
def tailDone (h : Hamper) (t : Nat) : Bool :=
  h.core.starts.isEmpty && h.core.stalled.isEmpty &&
  h.frames.all (fun f =>
    f.passes.all (fun p => !p.done && decide (p.b0 + (if p.refused then p.d.rows else p.limit) + 255 < t)) &&
    f.loads.all (fun l => !l.done && decide (l.b0 + 127 < t)) && f.turns.all (fun u => !u.done && decide (u.b0 + 127 < t)) &&
    f.waves.all (fun w => decide (w.2 + 254 < t))) &&
  h.vec.all (fun v => !v.done && ((v.stop && v.cut.isSome) || decide (vecLast v < t))) &&
  h.rloads.all (fun r => !r.done && decide (r.b0 + 2 < t)) &&
  h.stash.all (fun r => !r.done && decide (stashLast r < t)) && h.dma.all (fun r => !r.done && decide (dmaLast r < t))

/-- The largest BEAT of the hampers of a context: that of the last beat each issued in (R353). -/
def largestBeat (s : State) (c : Nat) : Nat :=
  (hampersOf s c).foldl (fun m l => Nat.max m (((getH s l).core.last : Int) - (getH s l).core.start).toNat) 0

/-- A context without a launch: LOADED while it holds an image, else EMPTY (R425). -/
def restState (x : Context) : CtxState := if x.image.isSome then .loaded else .empty

/-- A launch that ran ends: LAUNCH_DONE with LAUNCH_COUNT, the largest BEAT and the end code, and its hampers are free (R353; the DATA
layout is the model's, log entry 21). -/
def endLaunch (s : State) (c code : Nat) : State :=
  let x := getCtx s c
  let n := largestBeat s c
  let s := match x.launch with
    | some l => if x.state = .held then s
      else emit s evLaunchDone mgmtPage (bytesLE 8 l.count.toNat ++ bytesLE 8 n ++ [BitVec.ofNat 8 code, BitVec.ofNat 8 c])
    | none => s
  let s := (hampersOf s c).foldl (fun s l => modH s l (fun h =>
    let h := endHamper h
    { h with core := { h.core with launched := false } })) s
  setCtx s c { x with launch := none, state := restState x, stopAt := none, saved := none, restartDue := false }

/-- Whether the tail of a context reset is over: its engines' operations, its merge reads and its merges in flight (R89, R227). -/
def resetQuiet (s : State) (c : Nat) : Bool :=
  (hampersOf s c).all (fun l => tailDone (getH s l) (beatOf s l) && (getH s l).list.merges.isEmpty) && s.merges.all (fun m => m.ctx != c)

/-- Context resets whose tail is over complete (R425, R444). -/
def finishResets (s : State) : State :=
  (List.range 16).foldl (fun s c => if (getCtx s c).state = .resetting ∧ resetQuiet s c = true then endLaunch s c 2 else s) s

/-- The logical hampers of a die (R200). -/
def dieHampers (d : Fin 4) : List (Fin 48) := (List.range 12).map (fun k => Fin.ofNat 48 (12 * d + k))

/-- Whether a die may complete its beat t: it is not halted, its units have acknowledged, and the other dies have completed beat t − 6
(R182, R183). -/
def dieReady (s : State) (d : Fin 4) : Bool :=
  let t := s.dies[d]
  (s.power.phase == .running || s.power.phase == .warm) && !s.power.halts.power && !s.power.halts.thermal && !s.power.halts.debug &&
  (dieHampers d).all (fun lh => hamperAcked (getH s lh) t) && s.dies.all (fun u => decide (t ≤ u + 5))

/-! ## The work of a beat -/

/-- What a hamper's beat gives: its state after, what it writes and does, and a merge read that ended. -/
structure HamperWork where
  lh : Fin 48
  h : Hamper
  out : Out
  merged : Option MergeRead

/-- The bursts of a hamper in the beat. -/
def HamperWork.bursts (w : HamperWork) : List Burst := w.h.bursts ++ burstsOf w.out.effs

/-- One engine's list in a beat. -/
def runAll {α : Type} (f : α → α × Out) (l : List α) : List α × Out :=
  l.foldl (fun (a : List α × Out) x => let (y, o) := f x; (a.1 ++ [y], a.2.app o)) ([], .none_)

/-- The work of a hamper's engines in the beat in progress (R184). -/
def hamperWork (env : EngEnv) (lh : Fin 48) (h : Hamper) : HamperWork :=
  let (h, m) := mergeBeat h env.t
  let (h, o1) := (List.range 3).foldl (fun (a : Hamper × Out) f =>
    let (fr, o) := frameBeat env f (getFrame a.1 f)
    ({ a.1 with frames := a.1.frames.setIfInBounds f fr }, a.2.app o)) (h, .none_)
  let (vs, o2, inj) := h.vec.foldl (fun (a : List VecRun × Out × Option Nat) v =>
    let (v, o, hit) := vecBeat env a.2.2 v
    (a.1 ++ [v], a.2.1.app o, if hit then none else a.2.2)) ([], .none_, h.vecInject)
  let (rs, o3) := runAll (rloadBeat env) h.rloads
  let (ks, o4) := runAll (stashBeat env) h.stash
  let (ds, o5) := runAll (dmaBeat env) h.dma
  { lh := lh, h := { h with vec := vs, vecInject := inj, rloads := rs, stash := ks, dma := ds }
    out := (o1.app o2).app ((o3.app o4).app o5), merged := m }

/-- Whether the feeder loaded lines in the beat. -/
def feederLoads (es : List Eff) : Bool :=
  es.any (fun e => match e with
    | .count sub off n => sub == feederSub && off == Reg.feedLines && decide (0 < n)
    | _ => false)

/-- Whether an upset of the beat meets a line the feeder loads (R301). -/
def feedUpset (ups : List Upset) (lh : Nat) : Bool :=
  ups.any (fun u => match u with
    | .feedLine l => decide (l.val = lh)
    | _ => false)

/-- The load checks of a beat: an armed FEED_INJECT or an upset makes the check of a loaded line fail (R301, R472). -/
def feedCheck (ups : List Upset) (w : HamperWork) : HamperWork :=
  if !feederLoads w.out.effs then w
  else
    let n := bit w.h.feedInject + bit (feedUpset ups w.lh)
    { w with h := { w.h with feedInject := false }, out := w.out.app (.eff (List.replicate n .loadFail)) }

/-- Commit the pantry writes of a beat in the order of R184; bytes beyond the partition are ignored (R12). -/
def commitWrites (s : State) (lh : Nat) (ws : List PWrite) : State :=
  let n := pantrySize s lh
  let put := fun (m : List (Nat × Byte)) (w : PWrite) =>
    memWrite m (pantryAddr lh w.addr) (if n ≤ w.addr then [] else w.data.take (n - w.addr))
  { s with mem := (List.range 8).foldl (fun m p => (ws.filter (fun w => w.prio == p)).foldl put m) s.mem }

/-- Whether some write reaches beyond the partition, for the page of a block. -/
def beyondWrites (s : State) (lh prio : Nat) (ws : List PWrite) : Bool :=
  ws.any (fun w => w.prio == prio && decide (pantrySize s lh < w.addr + w.data.length))

/-- Set OUT_OF_MAP for engine writes beyond the partition (R12, R466). -/
def writeErrs (s : State) (lh : Nat) (ws : List PWrite) : State :=
  let s := (List.range 3).foldl (fun s f => setErrIf (beyondWrites s lh (4 + f) ws) s (hamPage s lh (frameSub f)) errOutOfMap) s
  let s := setErrIf (beyondWrites s lh 2 ws) s (hamPage s lh 4) errOutOfMap
  setErrIf (beyondWrites s lh 0 ws) s (hamPage s lh listSub) errOutOfMap

/-- The copies of item records due at the end of beat t, as writes of the open plane (R184, R218). -/
def dueCopies (l : ListUnit) (t : Nat) : List PWrite :=
  (l.copies.filter (fun c => c.1 == t)).map (fun c => { prio := 0, addr := c.2.1, data := c.2.2 })

/-! ## Bank conflicts (R188, R189) -/

/-- Extra cycles of the banks for the distinct lines of one direction. -/
def extraCycles (ls : List Nat) : Nat :=
  let ds := dedup ls
  ((List.range 32).map (fun b => ds.countP (fun l => l % 32 == b) - 1)).sum

/-- Count the bank conflicts of a hamper's beat. -/
def bankConflicts (s : State) (lh : Nat) (ls : List (Nat × Bool × Nat)) : State :=
  let c := extraCycles ((ls.filter (fun l => !l.2.1)).map (·.1)) + extraCycles ((ls.filter (fun l => l.2.1)).map (·.1))
  let page := hamPage s lh 3
  countReg (countReg s page Reg.panConflictCycles c) page Reg.panConflictBeats (bit (decide (0 < c)))

/-! ## Slot wheels and HBM3E waits (R190–R193) -/

/-- The key of a lane's entry on the wheel of a port, in a phase. -/
def wheelKey (stack : Bool) (port phase lane entry : Nat) : Nat := (((bit stack * 64 + port) * 2 + phase) * 4 + lane) * 64 + entry

/-- The phase a logical hamper runs in (R201). -/
def phaseOf (s : State) (lh : Nat) : Nat := bit (isSecond s lh)

/-- Whether an owner field names a hamper and a class (R192). -/
def ownerOk (o lh cls : Nat) : Bool := o != 0 && o % 64 == lh && (o / 64 == cls || o / 64 == 3)

/-- A free lane of a port for a burst in beat t: its key without the entry. -/
def freeLane (s : State) (stack : Bool) (port lanes lh cls t : Nat) (used : List Nat) : Option Nat :=
  ((List.range lanes).map (fun l => wheelKey stack port (phaseOf s lh) l (t % 64))).find? (fun k =>
    !used.contains k && ownerOk (sparseGet 0 s.wheels k) lh cls)

/-- Record a slot conflict (R191, R208). -/
def slotConflict (s : State) (lh port t engine : Nat) (stack : Bool) : State :=
  let page := hamPage s lh 3
  let info := port + 64 * bit stack + 128 * phaseOf s lh + 256 * (t % 64) + 2 ^ 14 * engine + 2 ^ 32 * (packageBeats s % 2 ^ 32)
  setReg (countReg (setErr s page 0) page Reg.panSlotConflicts 1) page Reg.panSlotInfo info

/-- The HBM3E conflict model for a burst in lane beat t (R193); a pseudo-channel in the larder always waits (R264, R270). -/
def hbmWait (s : State) (a t : Nat) (write : Bool) : State :=
  let c : Bool × Nat := (true, stackOf a)
  let m := getCtl s c
  let p := pcOf a
  let bank := rowKey a / 24576
  let busy := match m.pcBusy.find? (fun x => x.1 == p) with
    | some x => decide (t < x.2.1 + 9) || (x.2.2 != write && decide (t < x.2.1 + 13))
    | none => false
  let turn := match m.lastRow.find? (fun x => x.1 == bank) with
    | some x => x.2.1 != rowOf a && decide (t < x.2.2 + 40)
    | none => false
  let wait := busy || turn || m.pcs.any (fun x => x.1 == p)
  let s := setCtl s c { m with pcBusy := (p, (t, write)) :: m.pcBusy.filter (fun x => x.1 != p)
                               lastRow := (bank, (rowOf a, t)) :: m.lastRow.filter (fun x => x.1 != bank)
                               starve := m.starve.map (fun (x : Nat × Nat) => if x.1 = p then (p, x.2 + 1) else x) }
  if wait then
    let (n, s) := draw s
    countReg (countReg s (hbmcPage c.2) Reg.hbmSchedWaits 1) (hbmcPage c.2) Reg.hbmSchedWaitNs n
  else s

/-- Carry one scheduled burst: it takes a lane at its hamper port and at its stack port, or is double-booked (R191). -/
def carryBurst (s : State) (lh t : Nat) (used : List Nat) (b : Burst) : State × List Nat :=
  let a := b.addr
  let s := hbmWait s a t b.write
  match freeLane s false lh 2 lh b.cls t used, freeLane s true (stackOf a) 3 lh b.cls t used with
  | some k, some j => (s, k :: j :: used)
  | none, _ => (slotConflict s lh lh t b.engine false, used)
  | some _, none => (slotConflict s lh (stackOf a) t b.engine true, used)

/-- Carry the bursts of a die's beat, hamper by hamper (log entry 32). -/
def carryBursts (s : State) (t : Nat) (ws : List (Fin 48 × List Burst)) : State :=
  (ws.foldl (fun (x : State × List Nat) w => w.2.foldl (fun (x : State × List Nat) b => carryBurst x.1 w.1 t x.2 b) x) (s, [])).1

/-! ## The hazard detector (R205–R209) -/

/-- A pantry operation in flight as the detector sees it: its engine, its last beat, and the ranges it reads and writes in a beat. -/
structure FlightOp where
  engine : Nat
  last : Nat
  plan : Nat → List (Nat × Nat) × List (Nat × Nat)

/-- The operations of a hamper in flight (R206). -/
def flightOps (env : EngEnv) (h : Hamper) : List FlightOp :=
  (List.range 3).flatMap (fun f =>
    let fr := getFrame h f
    (fr.passes.filter (fun p => passBusy p env.t)).map (fun p => ⟨engineFrame f, passLast p, fun u => (passReads env p u, passWrites env p u)⟩) ++
    fr.loads.map (fun l => ⟨engineFrame f, l.b0 + 127, fun u => (loadReads l u, [])⟩) ++
    fr.turns.map (fun x => ⟨engineFrame f, x.b0 + 127, fun u => (turnReads x u, [])⟩)) ++
  (h.vec.filter (fun v => v.cut.isNone || !v.stop)).map (fun v => ⟨engineVector, vecLast v, vecPlan v⟩) ++
  h.stash.map (fun r => ⟨engineStash, stashLast r, stashPlan r⟩) ++
  h.dma.map (fun r => ⟨engineDma, dmaLast r, dmaPlan env r⟩)

/-- The lines an operation has yet to touch in beats from lo to its last. -/
def yetLines (o : FlightOp) (lo : Nat) (write : Bool) : List Nat :=
  dedup ((List.range (o.last + 1 - lo)).flatMap (fun i =>
    let p := o.plan (lo + i)
    rangeLines (if write then p.2 else p.1)))

/-- The hazards of a beat's accesses against the other operations in flight: kind, engine, other engine, line (R206). A read meets the
writes of this beat and later ones, a write the accesses of later beats. -/
def pantryHazards (ops : List FlightOp) (ls : List (Nat × Bool × Nat)) (t : Nat) : List (Nat × Nat × Nat × Nat) :=
  ops.flatMap (fun o =>
    let w0 := yetLines o t true
    let w1 := yetLines o (t + 1) true
    let r1 := yetLines o (t + 1) false
    ls.flatMap (fun l =>
      if l.2.2 = o.engine then []
      else if l.2.1 then
        (if r1.contains l.1 then [(1, l.2.2, o.engine, l.1)] else []) ++ (if w1.contains l.1 then [(2, l.2.2, o.engine, l.1)] else [])
      else if w0.contains l.1 then [(0, l.2.2, o.engine, l.1)] else []))

/-- The device-memory ranges in flight: engine, hamper, first address, length, written (R206). -/
def deviceRanges (s : State) : List (Nat × Nat × Nat × Nat × Bool) :=
  s.dmas.flatMap (fun d => [(7, d.lh.val, d.src, d.len, false), (7, d.lh.val, d.dst, d.len, true)]) ++
  (List.range 48).flatMap (fun l =>
    let h := getH s l
    (h.dma.filter (fun r => !r.done)).map (fun r => (6, l, if r.toHbm then r.dst else r.src, r.len, r.toHbm)) ++
    (h.stash.filter (fun r => !r.done)).map (fun r => (5, l, r.base, entryBytes r.d, r.push))) ++
  (match s.uc.sweep with
   | some w => ((w.desc.segs.take w.desc.segCount).drop w.signalled).flatMap (fun g => (segRanges g).map (fun r => (9, 48, r.1, r.2, true)))
   | none => [])

/-- The device-range hazards of a hamper's bursts (R206): engine, other engine, granule. -/
def rangeHazards (rs : List (Nat × Nat × Nat × Nat × Bool)) (lh : Nat) (bs : List Burst) : List (Nat × Nat × Nat × Nat) :=
  bs.flatMap (fun b =>
    (rs.filter (fun r => !(r.1 == b.engine && r.2.1 == lh) && (b.write || r.2.2.2.2) &&
      decide (r.2.2.1 / 256 ≤ (b.addr + b.n - 1) / 256) && decide (b.addr / 256 ≤ (r.2.2.1 + r.2.2.2.1 - 1) / 256))).map
      (fun r => (3, b.engine, r.1, b.addr / 256)))

/-- The log entry of a hazard (R209). -/
def hazEntry (second : Bool) (x : Nat × Nat × Nat × Nat) : Nat :=
  x.1 + 4 * x.2.1 + 64 * x.2.2.1 + 1024 * bit second + 2 ^ 20 * x.2.2.2

/-- The hazard log of a physical hamper. -/
def hazLog (s : State) (phys : Nat) : List (Nat × Nat) := sparseGet [] s.hazards phys

/-- Record one hazard: counted, logged in the first free entry, and raised as an event; HALT stops beat advance (R206, R207). -/
def recordHazard (s : State) (lh : Nat) (x : Nat × Nat × Nat × Nat) : State :=
  let page := hamPage s lh 3
  let phys := physOf s lh
  let log := hazLog s phys
  let e := hazEntry (isSecond s lh) x
  let s := countReg (setErr s page 1) page Reg.panHazards 1
  let s := if log.length < 16 then { s with hazards := sparseSet [] s.hazards phys (log ++ [(e, packageBeats s)]) } else setErr s page 2
  let s := emit s evHazard page (bytesLE 8 e)
  if (getReg s page Reg.panHazCtrl).testBit 0 then { s with power := { s.power with halts := { s.power.halts with debug := true } } } else s

/-- The detector of a hamper in debug mode (R205, R206). -/
def detect (s : State) (w : HamperWork) (ls : List (Nat × Bool × Nat)) (env : EngEnv) : State :=
  if !(getFlags s mgmtPage).debug then s
  else
    let page := hamPage s w.lh 3
    let hs := pantryHazards (flightOps env w.h) ls env.t
    let rs := if (getReg s page Reg.panHazCtrl).testBit 1 then deviceRanges s else []
    let full := decide (1024 < rs.length)
    let hs := hs ++ (if full then [] else rangeHazards rs w.lh w.bursts)
    (setErrIf full s page 2) |> (fun s => hs.foldl (fun s x => recordHazard s w.lh x) s)

/-! ## BEAT_ADVANCE -/

/-- A core at the start of beat t + 1: results due become available (R152, R153), and an interlock wait goes on to the next beat. -/
def nextCore (c : Core) (t : Nat) : Core :=
  { c with sregs := sregsAt c (t + 1), pend := c.pend.filter (fun p => decide (t + 1 < p.due)), stores := []
           next := if c.interlocked then t + 1 else c.next, interlocked := false }

/-- A hamper at the start of beat t + 1: completed operations leave. -/
def nextHamper (h : Hamper) (t : Nat) : Hamper :=
  { h with core := nextCore h.core t, frames := h.frames.map frameEnd, vec := h.vec.filter (fun v => !v.done)
           rloads := h.rloads.filter (fun r => !r.done), stash := h.stash.filter (fun r => !r.done)
           dma := h.dma.filter (fun r => !r.done), writes := [], lines := [], bursts := []
           list := { h.list with copies := h.list.copies.filter (fun c => decide (t < c.1)) } }

/-- Add what an accumulator took in to one that left (R124). -/
def normJoin (a b : NormAcc) : NormAcc :=
  if 2 ^ 192 ≤ a.n + b.n then { a with n := 2 ^ 192 - 1, res := 7, mark := true }
  else { a with n := a.n + b.n, res := (a.res + b.res) % 127, mark := a.mark || b.mark }

/-- The replay point a core captures at the end of beat t (R304); results still pending are taken into it (log entry 33). -/
def capturePoint (s : State) (c : Core) (step : Option StepNo) (t : Nat) : ReplayPoint :=
  let k := c.pend.foldl (fun k p => setSreg k p.reg p.val) c
  { step := step, pc := c.pc, sregs := k.sregs, drains := c.drains, vsum := c.vsum, beat := ((t : Int) - c.start + 1).toNat
    gstep := c.gstep, ns := s.clockNs }

/-- Keep a new replay point beside the launch's and the two before it (R304). -/
def keepPoint (ps : List ReplayPoint) (p : ReplayPoint) : List ReplayPoint :=
  p :: ((ps.filter (fun q => q.step != none && q.step != p.step)).take 2 ++ ps.filter (fun q => q.step == none))

/-- The end of beat tq of a seal request: what the rest of the beat counted travels with the request, and the replay point of the next
step is captured (R174, R304). -/
def flushSeal (s : State) (lh t : Nat) : State :=
  let c := (getH s lh).core
  if c.sealBeat.isNone then s
  else
    let add := fun (r : SealReq) =>
      if r.lh.val = lh ∧ r.tq = t then
        { r with counts := (r.counts.add c.counts).add c.winCounts, norm := normJoin r.norm c.norm
                 digests := c.digests.foldl (fun l d => digestAdd l d.1 d.2) r.digests }
      else r
    let p := capturePoint s c (some c.gstep) t
    let s := { s with uc := { s.uc with leaving := s.uc.leaving.map add } }
    modCore s lh (fun c => { c with sealBeat := none, counts := .zero, winCounts := .zero, digests := [], norm := .empty c.norm.nb
                                    points := keepPoint c.points p })

/-- One hamper's share of the end of beat t: its engines' state, writes, conflicts and effects but those that may stop programs. -/
def endHamperBeat (s : State) (w : HamperWork) (ups : List Upset) : State :=
  let env := engEnv s w.lh ups
  let ws := dueCopies w.h.list env.t ++ w.h.writes ++ w.h.core.stores ++ w.out.writes
  let ls := w.h.lines ++ w.out.lines
  let s := setH s w.lh w.h
  let s := detect s w ls env
  let s := bankConflicts s w.lh ls
  let s := countLh s w.lh 0 Reg.hamInterlock (bit w.h.core.interlocked)
  let s := writeErrs s w.lh ws
  let s := commitWrites s w.lh ws
  let s := applyEffs s w.lh (w.out.effs.filter (fun e => !effLast e))
  let s := flushSeal s w.lh env.t
  let s := modH s w.lh (fun h => nextHamper h env.t)
  match w.merged with
  | some m => sendMerge s w.lh m
  | none => s

/-- A parity error in the register storage of a page (R302, R466): a residue failure of the hamper or block that holds it. -/
def parityError (s : State) (page : Nat) : State :=
  let s := setErr s page errParity
  match pageType page with
  | some (12, u) => if u < 20 then countFault s (unitUpdate u) else chargeSeal s none
  | some (10, i) => residueFailure s (unitStack i) none
  | some (11, i) => residueFailure s (unitPackage i) none
  | some (8, i) => residueFailure s (unitRambler i) none
  | some (t, h) =>
    if 13 ≤ t then
      residueFailure s (unitHamper (if t = 19 then h / 3 else h))
        (((logicalsOf s (if t = 19 then h / 3 else h)).head?).map (fun l => (getH s l).core.ctx))
    else chargeSeal s none
  | none => s

/-- The parity upsets of a beat, on the pages that exist. -/
def parityUpsets (s : State) (ups : List Upset) : State :=
  ups.foldl (fun s u => match u with
    | .storageParity p => if pagePresent s p then parityError s p else s
    | _ => s) s

/-- The budget lent by a die's core domain returns, and the voltages with it, within the limits of each domain (R246, R449). -/
def returnLent (s : State) (d : Nat) : State :=
  match s.tly.lent.find? (fun x => x.1 == d) with
  | none => s
  | some (_, ns) =>
    let p := s.power
    let mv := (List.range 8).foldl (fun (v : Vector Nat 10) i =>
      let k := ns.getD i 0
      let x := v[i]?.getD 0
      v.setIfInBounds i (if i = d then Nat.max x (Nat.min (x + k) (p.ceiling[i]?.getD x)) else Nat.min x (Nat.max (x - k) (p.floor[i]?.getD x)))) p.mv
    { s with tly := { s.tly with lent := s.tly.lent.filter (fun x => x.1 != d) }, power := { p with mv := mv } }

/-- The end of beat t of a die (R182, R184, R189, R191, R206, R316). -/
def advanceDie (s : State) (d : Fin 4) (ups : List Upset) (slowest : Option (Nat × Nat)) : State :=
  let t := s.dies[d]
  let works := (dieHampers d).map (fun (lh : Fin 48) => feedCheck ups (hamperWork (engEnv s lh ups) lh (getH s lh)))
  let s := { s with free := s.free + 48 }
  let s := works.foldl (fun s w => endHamperBeat s w ups) s
  let s := carryBursts s t (works.map (fun w => (w.lh, w.bursts)))
  let s := { s with dies := s.dies.set d (t + 1) }
  let s := returnLent s d
  let s := (dieHampers d).foldl startOps s
  let s := match slowest with
    | some (u, ns) => { s with flt := { s.flt with lag := sparseSet 0 s.flt.lag u (sparseGet 0 s.flt.lag u + ns) } }
    | none => s
  let s := works.foldl (fun s w => applyEffs s w.lh (w.out.effs.filter effLast)) s
  finishResets (parityUpsets s ups)

/-- BEAT_ADVANCE (R182): stalled operations are tried again; when every unit has acknowledged and the other dies are near enough, the
die completes its beat and begins the next. -/
def execBeatAdvance (die : Fin 4) (upsets : List Upset) (slowest : Option (Nat × Nat)) (s : State) :
    Host.Outcome State Fault Refusal :=
  let s' := (dieHampers die).foldl retryStalled s
  .next (if dieReady s' die then advanceDie s' die upsets slowest else s)

end Sys2Proof.Machine
end

