-- ==== Sys2Proof/Machine/Ledger.lean ====
section
/-!
DEFINITION. Machine/Ledger.lean: the ledger ring, its records and their export, and the context seeds
(11_reproducibility.md, R280, R286–R288, R296, R297; 14_ports_and_transport.md, R361).
-/
namespace Sys2Proof.Machine

/-- Slots of the ring. -/
def ledSlots (s : State) : Nat := getReg s ledgerPage Reg.ledSlots % 65536

/-- LED_EXPORT.ENABLE. -/
def ledExport (s : State) : Bool := (getReg s ledgerPage Reg.ledExport).testBit 0

/-- The ramblers' part of the record of a step (R393). -/
def exchOf (s : State) (step : Nat) : ExchRec :=
  (s.uc.exch.find? (fun x => x.step == step)).getD ⟨step, [], [], 0, 0⟩

/-- Add digests slot by slot (R285). -/
def addDigests (a b : List (Nat × Word)) : List (Nat × Word) :=
  b.foldl (fun l x => sparseSet 0 l x.1 (sparseGet 0 l x.1 + x.2)) a

/-- The reproducible part up to its check (R288): bytes 0x000–0xEDF. -/
def recordHead (s : State) (r : OpenRec) (sweepNonfin sweepSat : Nat) (digests : List (Nat × Word)) : List Byte :=
  let x := exchOf s r.step.toNat
  let ds := addDigests digests x.digests
  let mask := ds.foldl (fun m d => m ||| 2 ^ d.1) 0
  padTo 0xEE0 (bytesLE 4 0x1ED60716 ++ bytesLE 4 1 ++ bytesLE 8 r.step.toNat ++ bytesLE 16 r.seed.toNat ++
    (if x.manifests.isEmpty then List.replicate 32 0 else sha256 x.manifests) ++ padTo 32 r.imageHash ++ bytesLE 8 r.stepBeats ++
    bytesLE 8 r.expect ++ bytesLE 8 r.nonfin ++ bytesLE 8 r.sat ++ bytesLE 8 r.mrows ++ bytesLE 8 sweepNonfin ++
    bytesLE 8 sweepSat ++ bytesLE 4 x.nonfin ++ bytesLE 4 x.sat ++ bytesLE 24 r.normTotal ++ bytesLE 4 (ofSigned 10 r.nb) ++
    bytesLE 4 r.clip.toNat ++ bytesLE 32 mask ++ List.replicate 32 0 ++
    (List.range 255).flatMap (fun i => bytesLE 8 (sparseGet (0 : Word) ds (i + 1)).toNat))

/-- The site part up to its check (R288): bytes 0xF00–0xFFB. -/
def recordSite (s : State) (r : OpenRec) : List Byte :=
  padTo 0xFC (bytesLE 8 r.launchCount.toNat ++ bytesLE 4 (r.handle % 65536 + 65536 * r.ctx) ++ bytesLE 4 r.attempts ++
    bytesLE 8 r.countSealed ++ bytesLE 8 s.sc.count ++
    bytesLE 4 (selfModule s + 256 * bit s.part.gradeB40 + 512 * bit s.part.steppingB0))

/-- The 4,096 bytes of a record (R288). -/
def recordBytes (s : State) (r : OpenRec) (sweepNonfin sweepSat : Nat) (digests : List (Nat × Word)) : List Byte :=
  let h := recordHead s r sweepNonfin sweepSat digests
  let t := recordSite s r
  h ++ sha256 h ++ t ++ bytesLE 4 (crc32c t)

/-- Kind code of LEDGER_EXPORT (R351). -/
def kindLedgerExport : Nat := 0x38

/-- The address of the record of a step in the ring (R286). -/
def recordAddr (s : State) (step : Nat) : Nat := getReg s ledgerPage Reg.ledBase + 4096 * (step % ledSlots s)

/-- Send the closed records not yet sent to the event sink, in step order; with no sink they wait (R361). -/
def exportRecords (s : State) : State :=
  match s.sink.bind (hostSess s) with
  | none => s
  | some x =>
    let steps := s.ledger.toExport
    steps.foldl (fun s st => hostSend s x.session { kind := kindLedgerExport, fields := [st], data := memRead s.mem (recordAddr s st) 4096 })
      { s with ledger := { s.ledger with toExport := [] } }

/-- Close the record of a step (R286, R287): written into its slot, with the overwriting of an unacknowledged record reported
while export is enabled. -/
def closeRecord (s : State) (r : OpenRec) (sweepNonfin sweepSat : Nat) (digests : List (Nat × Word)) : State :=
  if ledSlots s = 0 then s
  else
    let step := r.step.toNat
    let slot := step % ledSlots s
    let old := s.ledger.waiting.filter (fun w => w.1 == slot)
    let s := { s with mem := memWrite s.mem (recordAddr s step) (recordBytes s r sweepNonfin sweepSat digests) }
    let s := if ledExport s && !old.isEmpty then
        emit (setErr (countReg s ledgerPage Reg.ledOverwritten 1) ledgerPage 0) evLedgerOverwrite ledgerPage
          (bytesLE 8 ((old.headD (0, 0)).2) ++ bytesLE 8 step)
      else s
    let l := s.ledger
    let l := { l with waiting := l.waiting.filter (fun w => w.1 != slot)
                      toExport := l.toExport.filter (fun st => old.all (fun w => w.2 != st)), head := step }
    let l := if ledExport s then { l with waiting := l.waiting ++ [(slot, step)], toExport := l.toExport ++ [step] } else l
    let s := countReg { s with ledger := l } ledgerPage Reg.ledRecords 1
    exportRecords (emit s evLedgerClosed ledgerPage (bytesLE 8 step))

/-- LEDGER_ACK (R361): it frees the slot of an exported, unacknowledged record, and is ignored otherwise. -/
def execLedgerAck (step : BitVec 48) (s : State) : Host.Outcome State Fault Refusal :=
  let st := step.toNat
  let due := s.ledger.waiting.any (fun w => w.2 == st) && !s.ledger.toExport.contains st
  let led := { s.ledger with waiting := s.ledger.waiting.filter (fun w => w.2 != st), acked := st }
  .next (if due then { s with ledger := led } else s)

/-- A write of LED_RESET_RING (R296). -/
def ledResetRing (s : State) (v : Nat) : State :=
  if !v.testBit 0 then s
  else if anyLaunch s then setErr s ledgerPage 2
  else { s with ledger := { s.ledger with waiting := [], toExport := [] } }

/-- The context LED_CTX_SEL selects. -/
def ledCtx (s : State) : Nat := getReg s ledgerPage Reg.ledCtxSel % 16

/-- A write of LED_SEED_LO or LED_SEED_HI (R280): refused while a launch of the context runs. -/
def ledSeed (s : State) (high : Bool) (v : Nat) : State :=
  let c := ledCtx s
  if ctxRuns (getCtx s c) then setErr s ledgerPage 1
  else
    let x := getCtx s c
    let lo := if high then x.seed.toNat % 2 ^ 64 else v % 2 ^ 64
    let hi := if high then v % 2 ^ 64 else x.seed.toNat / 2 ^ 64
    setCtx s c { x with seed := BitVec.ofNat 128 (lo + 2 ^ 64 * hi) }

/-- Whether a ring of n records from a lies in LPDDR5X outside the larder (R296). -/
def ringOk (a n : Nat) : Bool := n == 0 || lpRangeOk a (4096 * n)

/-- A write of LED_BASE, LED_SLOTS or LED_EXPORT (R296); LED_BASE keeps its 4 KiB alignment. -/
def ledConfig (s : State) (off v : Nat) : State :=
  let base := if off = Reg.ledBase then v / 4096 * 4096 else getReg s ledgerPage Reg.ledBase
  let slots := if off = Reg.ledSlots then v % 65536 else ledSlots s
  if anyLaunch s || (off != Reg.ledExport && !ringOk base slots) then setErr s ledgerPage 2
  else setReg s ledgerPage off (if off = Reg.ledBase then base else if off = Reg.ledSlots then slots else v % 2)

/-- LED_STATE (R296). -/
def ledState (s : State) : Nat :=
  bit (decide (ledSlots s ≠ 0)) + 2 * bit (ledExport s && !s.ledger.waiting.isEmpty) + 4 * bit s.uc.rec_.isSome

/-- LED_DIGEST (R296). -/
def ledDigest (s : State) : Nat :=
  let v := getReg s ledgerPage Reg.ledLhSel
  let lh := v % 64
  let slot := bits v 15 8
  if slot = 0 ∨ 48 ≤ lh then 0 else (sparseGet (0 : Word) (getH s lh).core.digests slot).toNat

/-- LED_GSTEP (R296). -/
def ledGstep (s : State) : Nat :=
  let lh := getReg s ledgerPage Reg.ledLhSel % 64
  if 48 ≤ lh then 0 else (getH s lh).core.gstep.toNat

end Sys2Proof.Machine
end

