-- ==== Sys2Proof/Machine/Seal.lean ====
section
/-!
DEFINITION. Machine/Seal.lean: the seal of a step, its requests and its grant, the norm of a group, and the clipping scale
(05_update_units.md, R120–R126, R143, R146; 06_control_core.md, R174).
-/
namespace Sys2Proof.Machine

/-! ## Requests leave a hamper (R174) -/

/-- SEAL (R174): issue stops until the request leaves; illegal inside a window. -/
def execSeal (lh : Fin 48) (ra : Fin 32) (s : State) : Host.Outcome State Fault Refusal :=
  .next (issueOutside s lh [ra] (fun s =>
    let t := beatOf s lh
    modCore s lh (fun c => { c with run := .sealing ((sreg c ra).setWidth 48) t })))

/-- The request of a hamper for a step, with what its accumulators hold (R120, R166, R225, R285). -/
def sealReqOf (s : State) (lh : Lh) (step : StepNo) : SealReq :=
  let c := (getH s lh).core
  let l := (getCtx s c.ctx).launch
  { lh := lh, step := step, norm := c.norm, counts := c.counts.add c.winCounts, digests := c.digests, beat := beatValue s lh
    ctx := c.ctx, launchCount := (l.map (·.count)).getD 0, handle := (l.map (·.handle)).getD 0
    launchBeat := (l.map (·.startBeat)).getD 0, tq := beatOf s lh }

/-- SEAL_REQUEST_LEAVE (R174, R281): in beat tq the request leaves, the accumulators are emptied with NB kept, and GSTEP becomes
the step after the one named. The next instruction issues in tq + 1. -/
def execSealRequestLeave (lh : Fin 48) (s : State) : Host.Outcome State Fault Refusal :=
  let h := getH s lh
  let t := beatOf s lh
  .next (match h.core.run with
    | .sealing step _ =>
      if sealDue h t && completionsDone h t then
        let r := sealReqOf s lh step
        let s := { s with uc := { s.uc with leaving := s.uc.leaving ++ [r] } }
        modCore s lh (fun c => { c with run := .issuing, next := t + 1, gstep := step + 1, sealBeat := some t, counts := .zero
                                        winCounts := .zero, digests := [], norm := .empty c.norm.nb })
      else s
    | _ => s)

/-! ## Requests reach UC (R121–R123) -/

/-- UC_SEAL_MASK: the hampers whose requests have been collected. -/
def sealMask (s : State) : Nat := s.uc.reqs.foldl (fun m r => m ||| 2 ^ r.lh.val) 0

/-- UC_SEAL_EXPECT. -/
def sealExpect (s : State) : Nat := getReg s ucPage Reg.ucSealExpect % 2 ^ 48

/-- The saturating sum of norm values (R124, R125). -/
def normSum (l : List Nat) : Nat := l.foldl (fun a n => Nat.min (a + n) (2 ^ 192 - 1)) 0

/-- The module total T of the requests collected (R125). -/
def moduleTotal (s : State) : Nat := normSum (s.uc.reqs.map (·.norm.n))

/-- Whether the exact sum of the requests' squares exceeds its bound (R124). -/
def totalClamped (s : State) : Bool :=
  s.uc.reqs.any (·.norm.mark) || decide (2 ^ 192 ≤ (s.uc.reqs.map (·.norm.n)).sum)

/-- The beats of a request's step: those since the hamper's request for the step before in the same launch, or since launch (R288). -/
def requestBeats (s : State) (r : SealReq) : Nat :=
  match s.uc.lastReq.find? (fun x => x.1 == r.lh.val) with
  | some (_, (step, launch, beat)) => if step + 1 = r.step.toNat && launch == r.launchBeat then r.beat - beat else r.beat
  | none => r.beat

/-- The members of the norm group other than the module itself (R125). -/
def normOthers (s : State) : List Nat :=
  otherMembers s ((List.range 4).foldl (fun m i => m + 2 ^ (64 * i) * getReg s ucPage (Reg.ucNormGroup + 8 * i)) 0)

/-- The slot of a member in this module's norm inbox (R125). -/
def normSlot (s : State) (m : Nat) : Nat := getReg s ucPage Reg.ucNormInbox + 64 * m

/-- The 64 bytes a member sends (R125; the layout is the model's, log entry 34): T, NB, residue and saturation, step. -/
def normBytes (t : Nat) (nb : Int) (clamped : Bool) (step : Nat) : List Byte :=
  padTo 64 (bytesLE 24 t ++ bytesLE 4 (ofSigned 10 nb) ++ bytesLE 4 (t % 127 + 256 * bit clamped) ++ bytesLE 8 step)

/-- The bulk write that carries a member's total to another member's inbox (R125, R352; log entry 34). -/
def normMsg (s : State) (bs : List Byte) : OutMsg := { kind := 0x19, fields := [normSlot s (selfModule s), 0, 0], data := bs }

/-- UC_NORM_MISSING: members not yet heard from for UC_STEP (R125). -/
def normMissing (s : State) : List Nat := (normOthers s).filter (fun m => !s.uc.normSeen.contains (m, s.uc.step.toNat))

/-- The clipping scale of a sweep for the total g in base nb (R126). -/
def clipScale (clip : Bool) (clipMax : W32) (g : Nat) (nb : Int) : W32 :=
  let n2 := (toFp32 .rne (.fin false g (nb - 128))).1
  if !clip then fpOne
  else if !fpLt (fpMul clipMax clipMax) n2 then fpOne
  else fpMul clipMax (fpRsq n2)

/-- The scale and the record's norm fields, once the norm has closed and a sweep is there (R126, R288). -/
def settleClip (s : State) : State :=
  match s.uc.sweep with
  | none => s
  | some w =>
    let clip := w.desc.clip && !w.desc.skip
    if clip && !s.uc.normClosed then s
    else
      let c := clipScale clip w.desc.clipMax s.uc.normTotal s.uc.normNb
      let total := if clip then s.uc.normTotal else 0
      { s with uc := { s.uc with clip := c, sweep := some { w with normWait := false }
                                 rec_ := s.uc.rec_.map (fun r => { r with clip := c, normTotal := total }) } }

/-- The norm closes with total g (R125, R126). -/
def closeNorm (s : State) (g : Nat) (sat : Bool) : State :=
  settleClip { s with uc := { s.uc with normTotal := g, normSat := sat, normPending := false, normClosed := true } }

/-- Close the norm if every other member's slot holds the step with a passing residue and the same NB (R125). -/
def tryCloseNorm (s : State) : State :=
  if !s.uc.normPending || !(normMissing s).isEmpty then s
  else
    let ms := normOthers s
    let slots := ms.map (fun m => memRead s.mem (normSlot s m) 64)
    if slots.any (fun b => natOfLE ((b.drop 32).take 8) != s.uc.step.toNat || natOfLE (b.take 24) % 127 != natOfLE ((b.drop 28).take 1))
    then s
    else if slots.any (fun b => toSigned 10 (natOfLE ((b.drop 24).take 4) % 1024) != s.uc.normNb) then setErr s ucPage 5
    else
      let ts := slots.map (fun b => natOfLE (b.take 24))
      let g := normSum (moduleTotal s :: ts)
      let sat := totalClamped s || slots.any (fun b => (natOfLE ((b.drop 28).take 4)).testBit 8) ||
        decide (2 ^ 192 ≤ moduleTotal s + ts.sum)
      closeNorm s g sat

/-- The seal of UC_STEP is granted: SEALED, the record opens with the grant's values, and the norm closes or its totals are sent
(R121, R124, R125, R286, R288). -/
def grantSeal (s : State) : State :=
  let u := s.uc
  let rs := u.reqs
  let ctx := u.owner.getD 0
  let exp := sealExpect s
  let r0 := rs.headD (sealReqOf s 0 0)
  let k := rs.foldl (fun k r => k.add r.counts) StepCounts.zero
  let rec_ : OpenRec :=
    { step := u.step, seed := (getCtx s ctx).seed, imageHash := ((getCtx s ctx).image.map (·.hash)).getD []
      stepBeats := (rs.filter (fun r => exp.testBit r.lh.val)).foldl (fun m r => Nat.max m (requestBeats s r)) 0
      expect := exp, nonfin := k.nonfin, sat := k.sat + bit (totalClamped s), mrows := k.mrows, normTotal := 0, nb := r0.norm.nb
      clip := fpOne, digests := rs.foldl (fun d r => addDigests d r.digests) [], launchCount := r0.launchCount
      handle := r0.handle, ctx := ctx, attempts := u.attempts + 1, countSealed := s.sc.count }
  let last := rs.foldl (fun l r => (r.lh.val, (r.step.toNat, r.launchBeat, r.beat)) :: l.filter (fun x => x.1 != r.lh.val)) u.lastReq
  let s := { s with uc := { u with sealSt := .sealed, rec_ := some rec_, lastReq := last, normNb := r0.norm.nb, normTotal := 0
                                   normSat := false, normClosed := false, normPending := false } }
  let s := emit s evSealed ucPage (sealData s ctx)
  let t := moduleTotal s
  let others := normOthers s
  if others.isEmpty then closeNorm s t (totalClamped s)
  else
    let bs := normBytes t r0.norm.nb (totalClamped s) s.uc.step.toNat
    let s := others.foldl (fun s m => nearSend s m ctx (normMsg s bs)) s
    tryCloseNorm { s with uc := { s.uc with normPending := true } }

/-- Grant the seal if every expected request has arrived (R121); a request whose norm fails its residue is a failure of its hamper
(R124, R125). -/
def tryGrant (s : State) : State :=
  if s.uc.sealSt = .open_ && !s.uc.reqs.isEmpty && covers (sealMask s) (sealExpect s) then
    match s.uc.reqs.find? (fun r => r.norm.n % 127 != r.norm.res % 127) with
    | some r => residueFailure s (unitHamper (physOf s r.lh)) (some r.ctx)
    | none => grantSeal s
  else s

/-- A request for UC_STEP while the seal is OPEN is collected; a duplicate, or one with another NB, withholds the seal (R121, R123). -/
def collectReq (s : State) (r : SealReq) : State :=
  if s.uc.reqs.any (fun x => x.lh == r.lh) then withholdSeal (setErr s ucPage 7) (some r.ctx)
  else if s.uc.reqs.any (fun x => x.norm.nb != r.norm.nb) then withholdSeal (setErr s ucPage 5) (some r.ctx)
  else
    let owner := if s.uc.reqs.isEmpty then some r.ctx else s.uc.owner
    tryGrant { s with uc := { s.uc with reqs := s.uc.reqs ++ [r], owner := owner } }

/-- A request for UC_STEP + 1 is held while the seal is OPEN or SEALED; a second one of a hamper sets SEAL_STEP, and stays beside the first
as the mark that withholds the next seal (R123). -/
def holdReq (s : State) (r : SealReq) : State :=
  let s := setErrIf (s.uc.held.any (fun x => x.lh == r.lh)) s ucPage 7
  { s with uc := { s.uc with held := s.uc.held ++ [r] } }

/-- The context of a second held request of a hamper (R123). -/
def heldTwice : List SealReq → Option Nat
  | [] => none
  | r :: rs => match rs.find? (fun x => x.lh == r.lh) with
    | some x => some x.ctx
    | none => heldTwice rs

/-- A request arrives at UC (R123). -/
def arriveReq (s : State) (r : SealReq) : State :=
  let lost := s.uc.sealSt = .refused || s.uc.sealSt = .withheld
  if r.step = s.uc.step then
    if s.uc.sealSt = .open_ then collectReq s r
    else if lost then s
    else setErr s ucPage 7
  else if r.step = s.uc.step + 1 then (if lost then s else holdReq s r)
  else setErr s ucPage 7

/-! ## The step advances (R123) -/

/-- Merges of the step that ends apply freely from now on; those of attempts that never came are dropped (R309). -/
def endAttempts (s : State) : State :=
  let a := s.flt.attempt
  let ms := (s.merges.filter (fun m => match m.attempt with
    | some x => decide (x ≤ a)
    | none => true)).map (fun m => { m with attempt := none })
  { s with merges := ms, flt := { s.flt with attempt := 1, refusals := 0, held := [] } }

/-- The seal of the new step opens: a failure charged while the old one was SEALED takes it, otherwise the held requests are
delivered (R122, R123). -/
def openSeal (s : State) : State :=
  let hs := s.uc.held
  let u := { s.uc with sealSt := .open_, reqs := [], held := [], owner := none, attempts := 0, nextRefused := false
                       nextWithheld := false, nextCtx := none }
  let ctx := ((hs.head?.map (·.ctx)).orElse (fun _ => s.uc.nextCtx))
  let refused := s.uc.nextRefused
  let withheld := s.uc.nextWithheld
  let s := { s with uc := u, nearSessions := s.nearSessions.map (fun (x : NearSession) => { x with users := [] }) }
  if refused then refuseSeal s ctx (s.flt.attempt + 1) (!s.flt.replace)
  else if withheld then withholdSeal s ctx
  else match heldTwice hs with
    | some c => withholdSeal s (some c)
    | none => hs.foldl arriveReq s

/-- UC_STEP becomes s + 1, the seal opens and the record of s is closed with the units' counts and digests (R123, R285, R286). -/
def advanceStep (s : State) : State :=
  let r := s.uc.rec_
  let us := s.units.toList
  let nonfin := (us.map (·.nonfin)).sum
  let sat := (us.map (·.sat)).sum
  let digests := us.foldl (fun d u => addDigests d u.digests) []
  let digests := match r with
    | some r => addDigests r.digests digests
    | none => digests
  let s := { s with units := s.units.map (fun (u : UpdUnit) => { u with digests := [] }) }
  let old := s.uc.step
  let seen := s.uc.normSeen.filter (fun (x : Nat × Nat) => decide (old.toNat < x.2))
  let u := { s.uc with step := old + 1, rec_ := none, normPending := false, normClosed := false, normSeen := seen }
  let s := endAttempts { s with uc := u }
  let s := openSeal s
  let s := match r with
    | some r => closeRecord s r nonfin sat digests
    | none => s
  { s with uc := { s.uc with exch := s.uc.exch.filter (fun x => x.step != old.toNat) } }

/-! ## SEAL_REOPEN and UC_STEP (R143, R146) -/

/-- Whether a SEAL_REOPEN is accepted (R143). -/
def reopenOk (s : State) : Bool :=
  match s.uc.sealSt with
  | .open_ => false
  | .sealed => s.uc.sweepState = .idle || s.uc.sweepState = .done || s.uc.sweepState = .failed
  | _ => true

/-- SEAL_REOPEN: the seal returns to OPEN with nothing collected, held or accumulated, or the write is ignored with BUSY (R143). -/
def sealReopen (s : State) : State :=
  if !reopenOk s then setErr s ucPage 2
  else
    { s with units := s.units.map (fun _ => UpdUnit.idle)
             uc := { s.uc with sealSt := .open_, reqs := [], held := [], heldSweep := none, sweep := none, sweepState := .idle
                               owner := none, rec_ := none, normPending := false, normClosed := false }
             flt := { s.flt with attempt := 1, refusals := 0 } }

/-- SEAL_REOPEN written to UC_CTRL (R143). -/
def execSealReopen (value : W32) (s : State) : Host.Outcome State Fault Refusal :=
  .next (if value.getLsbD 3 then sealReopen s else s)

/-- A write of UC_STEP (R146); the attempt returns to 1 (R321). -/
def ucStepWrite (s : State) (v : Nat) : State :=
  if s.uc.sealSt = .open_ && s.uc.reqs.isEmpty && s.uc.sweepState ≠ .running && s.uc.sweepState ≠ .partial_ then
    { s with uc := { s.uc with step := BitVec.ofNat 48 v }, flt := { s.flt with attempt := 1, refusals := 0 } }
  else setErr s ucPage 0

/-- UC_STEP_WRITE (R146). -/
def execUcStepWrite (value : Word) (s : State) : Host.Outcome State Fault Refusal := .next (ucStepWrite s value.toNat)

/-! ## The norm inbox (R125) -/

/-- Whether a bulk write of another member goes into its slot of the norm inbox. -/
def isNormSlot (s : State) (m a n : Nat) : Bool := (normOthers s).contains m && a == normSlot s m && n == 64

/-- A member's total arrives in its slot: a second one for its step sets NORM_DUP and is ignored; otherwise it is stored, and the norm
may close (R125). -/
def normArrive (s : State) (m a : Nat) (bs : List Byte) : State :=
  let step := natOfLE ((bs.drop 32).take 8)
  if s.uc.normSeen.contains (m, step) then setErr s ucPage 6
  else
    let s := storeBytes s a bs
    tryCloseNorm { s with uc := { s.uc with normSeen := s.uc.normSeen ++ [(m, step)] } }

end Sys2Proof.Machine
end

