-- ==== Sys2Proof/Machine/Update.lean ====
section
/-!
DEFINITION. Machine/Update.lean: sweeps and the update units: acceptance, chunks, the journal, the end of a step
(05_update_units.md, R118–R119, R127–R148), and the update recipe slots (R131, R132).
-/
namespace Sys2Proof.Machine

/-! ## Acceptance (R127–R130, R140) -/

/-- Whether two ranges overlap. -/
def rangesMeet (a b : Nat × Nat) : Bool := decide (a.1 < b.1 + b.2) && decide (b.1 < a.1 + a.2)

/-- Whether some two ranges of a list overlap. -/
def anyMeet : List (Nat × Nat) → Bool
  | [] => false
  | r :: t => t.any (rangesMeet r) || anyMeet t

/-- The ranges a sweep touches: the planes, the journal region and the descriptor (R130). -/
def sweepRanges (d : SweepDesc) : List (Nat × Nat) :=
  (d.addr, 0x40 + 0x80 * d.segCount) :: (d.journal, 4096) :: d.segs.flatMap segRanges

/-- Whether the plane bases of a segment meet R129. -/
def segAligned (g : Segment) : Bool :=
  let a := fun (use : Bool) (x m : Nat) => !use || x % m == 0
  a true g.pHi 512 && a (g.pfmt != 3) g.pLo 512 && a true g.gMant 512 && a (g.gfmt == 0) g.gExp 64 &&
  a (g.m1form != 0) g.m1a 512 && a (g.m1form == 1) g.m1b 512 && a (g.m1form == 2) g.m1b 64 &&
  a (g.m2form != 0) g.m2a 512 && a (g.m2form == 1) g.m2b 512 && a (g.m2form == 2) g.m2b 64

/-- The instructions of an update recipe slot. -/
def uRecipe (s : State) (slot : Nat) : List RInstr := (slotWords s.ustore slot (slotLen s.ustore slot)).map rdecode

/-- Whether a segment's recipe agrees with its moment forms (R130). -/
def recipeFits (is : List RInstr) (g : Segment) : Bool :=
  let ld := fun o => is.any (fun i => i.op == 1 && i.aux == o)
  let st := fun o => is.any (fun i => i.op == 2 && i.aux % 4 == o)
  (g.m1form != 0 || (!ld 2 && !st 1)) && (g.m2form != 0 || (!ld 3 && !st 2)) && (!(st 1 || st 2) || st 0)

/-- Whether a segment is well formed (R128–R130). -/
def segOk (s : State) (g : Segment) : Bool :=
  decide (1 ≤ g.count) && (g.pfmt == 3 || g.pfmt == 4) && (g.gfmt == 0 || g.gfmt == 2 || g.gfmt == 3) &&
  g.m1form != 3 && g.m2form != 3 && !g.reserved && segAligned g && (segRanges g).all (fun r => deviceRangeOk r.1 r.2) &&
  slotLen s.ustore g.recipe != 0 && recipeFits (uRecipe s g.recipe) g

/-- Whether 32 bits are a positive finite FP32 value. -/
def fpPositive (x : W32) : Bool := decide (0 < x.toNat) && decide (x.toNat < 0x7F800000)

/-- Whether a descriptor is well formed (R127–R130); SKIP reads only part of it (R143). -/
def descOk (s : State) (d : SweepDesc) : Bool :=
  !d.reserved && (d.skip ||
    (decide (1 ≤ d.segCount) && decide (d.segCount ≤ 64) && (!d.clip || fpPositive d.clipMax) && d.journal % 4096 == 0 &&
     lpRangeOk d.journal 4096 && deviceRangeOk d.addr (0x40 + 0x80 * d.segCount) && d.segs.all (segOk s)))

/-- Whether a 64-byte block passes its check code. -/
def checkOk (bs : List Byte) : Bool := natOfLE (bs.drop 60) == crc32c (bs.take 60)

/-- The journal record of unit u at a journal address. -/
def readRecord (s : State) (journal u : Nat) : List Byte := memRead s.mem (journal + 0x40 + 0x40 * u) 64

/-- Whether the journal of a descriptor lets it resume (R140). -/
def resumeOk (s : State) (d : SweepDesc) : Bool :=
  let h := memRead s.mem d.journal 64
  let rs := (List.range 20).map (readRecord s d.journal)
  fieldN h 0 8 == s.uc.step.toNat && fieldN h 0x14 4 == 2 && fieldN h 8 8 == d.addr && fieldN h 0x10 4 == d.crc && checkOk h &&
  rs.all (fun r => checkOk r && fieldN r 0 8 == s.uc.step.toNat)

/-- The error a sweep request sets, by the order of the table of R130; none where it is accepted. UC drained takes no sweep (R436). -/
def sweepRefusal (s : State) (d : SweepDesc) (resume : Bool) : Option Nat :=
  if !(d.addr % 64 == 0 && deviceRangeOk d.addr 64) then some 0
  else if d.step ≠ s.uc.step.toNat ∨ s.uc.sealSt = .refused ∨ s.uc.sealSt = .withheld then some 1
  else if pageOff s ucPage || s.uc.sweepState = .running || s.uc.heldSweep.isSome || (s.uc.sweepState = .partial_ && !resume) ||
      s.uc.sweepState = .failed then some 2
  else if !descOk s d then some 0
  else if !d.skip && anyMeet (sweepRanges d) then some 3
  else if !d.skip && resume && !resumeOk s d then some 4
  else none

/-! ## Running a sweep -/

/-- Source number of UC's signals. -/
def agentUc : Nat := agentOf 3 0

/-- UC signals a tally for the context that owns the sweep (R127, R130). -/
def ucSignal (s : State) (ctx : Nat) (en : Bool) (vid : Nat) : State := if en then sendSignal s none agentUc ctx vid 1 0 else s

/-- The segments of the running sweep. -/
def sweepSegs (s : State) : List Segment := (s.uc.sweep.map (·.desc.segs)).getD []

/-- A unit that has committed its share of a segment writes its record and goes on to the next segment; after the last it is done
(R137, R139). n bounds the segments left. -/
def settleUnit : Nat → State → Nat → State
  | 0, s, _ => s
  | n + 1, s, u =>
    let x := getUnit s u
    let gs := sweepSegs s
    match gs[x.seg]? with
    | none => s
    | some g =>
      if x.done || decide (x.cursor < (unitChunks g u).length) then s
      else if x.seg + 1 = gs.length then setUnit (writeRecord s u 1) u { x with done := true, since := 0 }
      else settleUnit n (setUnit (writeRecord s u 0) u { x with seg := x.seg + 1, cursor := 0, since := 0 }) u

/-- Whether every home unit has committed its share of segment j. -/
def segDone (s : State) (j : Nat) : Bool := s.units.toList.all (fun x => x.done || decide (j < x.seg))

/-- Signal the tallies of the segments that are complete, in order (R130). -/
def signalSegs : Nat → State → State
  | 0, s => s
  | n + 1, s =>
    match s.uc.sweep with
    | none => s
    | some w =>
      match w.desc.segs[w.signalled]? with
      | none => s
      | some g =>
        if segDone s w.signalled then
          let s := { s with uc := { s.uc with sweep := some { w with signalled := w.signalled + 1 } } }
          signalSegs n (ucSignal s w.ctx g.tallyEn g.tallyVid)
        else s

/-- A sweep reaches DONE: its header, DONE_TALLY, and the step advances (R123, R130, R138, R143). -/
def sweepDone (s : State) : State :=
  match s.uc.sweep with
  | none => s
  | some w =>
    let s := if w.desc.skip then s else writeHeader s 3
    let s := ucSignal s w.ctx w.desc.doneEn w.desc.doneVid
    let s := countReg s ucPage Reg.ucSweeps 1
    let s := { s with uc := { s.uc with sweepState := .done, sweep := none }
                      units := s.units.map (fun (x : UpdUnit) => { x with active := false }) }
    advanceStep s

/-- What follows a commit or a stop: segments are signalled, and the sweep ends when every unit has finished, or becomes PARTIAL when
the rest have stopped (R130, R142). -/
def sweepProgress (s : State) : State :=
  let s := signalSegs 64 s
  if s.uc.sweep.isNone then s
  else if s.units.toList.all (·.done) then sweepDone s
  else if allHalted s then sweepPartial s
  else s

/-- A unit at the start of a sweep, or as its journal record says (R140). -/
def unitStart (s : State) (d : SweepDesc) (resume : Bool) (u : Nat) : UpdUnit :=
  let x := getUnit s u
  if resume then
    let r := readRecord s d.journal u
    { x with active := true, stopped := false, faultStop := false, done := fieldN r 0x10 4 == 1, seg := fieldN r 8 4
             cursor := fieldN r 12 4, since := 0, nonfin := fieldN r 0x14 4, sat := fieldN r 0x18 4 }
  else { UpdUnit.idle with active := true }

/-- Take the norm and the scale of a journal whose norm had closed (R140). -/
def resumeNorm (s : State) (d : SweepDesc) : State :=
  let h := memRead s.mem d.journal 64
  if fieldN h 0x34 4 = 1 then
    let c := BitVec.ofNat 32 (fieldN h 0x30 4)
    let g := fieldN h 0x18 24
    { s with uc := { s.uc with normTotal := g, clip := c, normClosed := true, normPending := false,
                               sweep := s.uc.sweep.map (fun (w : Sweep) => { w with normWait := false }),
                               rec_ := s.uc.rec_.map (fun (r : OpenRec) => { r with clip := c, normTotal := if d.clip then g else 0 }) } }
  else settleClip s

/-- The leading segments every unit has finished. -/
def leadingDone (s : State) (n : Nat) : Nat := ((List.range n).takeWhile (segDone s)).length

/-- Begin an accepted sweep once the seal is granted: SKIP ends the step; otherwise the units take their shares, UC writes the
header, and shares that are empty are finished at once (R130, R137–R140, R143). -/
def beginSweep (s : State) (w : Sweep) : State :=
  let ctx := s.uc.owner.getD w.ctx
  let d := w.desc
  let w := { w with ctx := ctx, normWait := d.clip && !d.skip, signalled := 0 }
  let s := { s with uc := { s.uc with sweep := some w, heldSweep := none, sweepState := .running } }
  if d.skip then sweepDone { s with units := s.units.map (fun _ => UpdUnit.idle), uc := { s.uc with clip := fpOne } }
  else
    let us := Vector.ofFn (fun (u : Fin 20) => unitStart s d w.resume u)
    let s := { s with units := us }
    let s := if w.resume then resumeNorm s d else settleClip s
    let k := if w.resume then leadingDone s d.segs.length else 0
    let s := { s with uc := { s.uc with sweep := s.uc.sweep.map (fun (w : Sweep) => { w with signalled := k }) } }
    let s := writeHeader s 1
    let s := (List.range 20).foldl (fun s u => if pageOff s (updPage u) then stopUnit s u else s) s
    sweepProgress ((List.range 20).foldl (fun s u => settleUnit 65 s u) s)

/-- Begin the sweep held for the seal, if the seal is granted (R123). -/
def beginHeld (s : State) : State :=
  match s.uc.heldSweep with
  | some w => if s.uc.sealSt = .sealed then beginSweep s w else s
  | none => s

/-- Start or resume a sweep, hold it for the seal, or refuse it (R127, R130). -/
def startSweep (s : State) (addr : Nat) (resume : Bool) (ctx : Nat) : State :=
  let d := readSweepDesc s addr
  match sweepRefusal s d resume with
  | some b => setErr s ucPage b
  | none =>
    let w : Sweep := { desc := d, ctx := ctx, resume := resume, normWait := false, signalled := 0 }
    if s.uc.sealSt = .sealed then beginSweep s w else { s with uc := { s.uc with heldSweep := some w } }

/-- SWEEP (R174): illegal inside a window. -/
def execSweep (lh : Fin 48) (ra : Fin 32) (resume : Bool) (s : State) : Host.Outcome State Fault Refusal :=
  .next (issueOutside s lh [ra] (fun s =>
    let c := (getH s lh).core
    startSweep s (sreg c ra).toNat resume c.ctx))

/-- GO in UC_CTRL (R127, R146). -/
def sweepGo (s : State) (resume : Bool) : State := startSweep s (getReg s ucPage Reg.ucSweepDesc) resume 0

/-- SWEEP_GO (R127). -/
def execSweepGo (value : W32) (s : State) : Host.Outcome State Fault Refusal :=
  .next (if value.getLsbD 0 then sweepGo s (value.getLsbD 1) else s)

/-- SEAL_REQUEST (R123): request i of those on their way arrives, after the beat it left in has ended. -/
def execSealRequest (i : Nat) (s : State) : Host.Outcome State Fault Refusal :=
  .next (match s.uc.leaving[i]? with
    | none => s
    | some r =>
      if beatOf s r.lh ≤ r.tq then s
      else beginHeld (arriveReq { s with uc := { s.uc with leaving := listErase s.uc.leaving i } } r))

/-- A write of UC_SEAL_EXPECT may complete the conditions of the grant (R121). -/
def ucExpectWrite (s : State) (v : Nat) : State := beginHeld (tryGrant (setReg s ucPage Reg.ucSealExpect (v % 2 ^ 48)))

/-- A sweep ends FAILED: the units stop, UC writes the header (R130, R137, R138). -/
def sweepFail (s : State) : State :=
  let s := writeHeader ((List.range 20).foldl stopUnit s) 4
  { s with uc := { s.uc with sweepState := .failed, sweep := none }
           units := s.units.map (fun (x : UpdUnit) => { x with active := false }) }

/-- NORM_CANCEL: the wait for the norm ends without closing, and a waiting sweep ends FAILED with no chunk issued (R125, R130). -/
def normCancel (s : State) : State :=
  let s := { s with uc := { s.uc with normPending := false } }
  match s.uc.sweep with
  | some w => if w.normWait then sweepFail s else s
  | none => s

/-- NORM_CANCEL in UC_CTRL (R125). -/
def execNormCancel (value : W32) (s : State) : Host.Outcome State Fault Refusal := .next (if value.getLsbD 2 then normCancel s else s)

/-- A write of UC_CTRL: NORM_CANCEL, SEAL_REOPEN and GO act in this order (R146). -/
def ucCtrl (s : State) (v : Nat) : State :=
  let s := if v.testBit 2 then normCancel s else s
  let s := if v.testBit 3 then sealReopen s else s
  if v.testBit 0 then sweepGo s (v.testBit 1) else s

/-! ## Chunks (R129, R131, R134–R137) -/

/-- A joined split element of two planes of 2 bytes (R134). -/
def splitElem (s : State) (hi lo i : Nat) : W32 := BitVec.ofNat 32 (65536 * memNat s.mem (hi + 2 * i) 2 + memNat s.mem (lo + 2 * i) 2)

/-- Element i of a moment (R128, R136). -/
def momentElem (s : State) (form a b i : Nat) : W32 :=
  match form with
  | 1 => splitElem s a b i
  | 2 =>
    let e := memNat s.mem (b + i / 32) 1
    let m := toSigned 8 (memNat s.mem (a + i) 1)
    if e = 0 then 0 else (toFp32 .rne (fvalOfExact ⟨m, (e : Int) - 150⟩)).1
  | _ => 0

/-- Input o of element i with its saturation count (R131, R135). -/
def chunkInput (s : State) (g : Segment) (o i : Nat) : W32 × Nat :=
  match o with
  | 0 => (if g.pfmt = 3 then BitVec.ofNat 32 (memNat s.mem (g.pHi + 4 * i) 4) else splitElem s g.pHi g.pLo i, 0)
  | 1 =>
    if g.gfmt = 0 then blockToFp32 bs16Params (toSigned 16 (memNat s.mem (g.gMant + 2 * i) 2)) (memNat s.mem (g.gExp + i / 32) 1)
    else if g.gfmt = 2 then (bf16Widen (BitVec.ofNat 16 (memNat s.mem (g.gMant + 2 * i) 2)), 0)
    else (BitVec.ofNat 32 (memNat s.mem (g.gMant + 4 * i) 4), 0)
  | 2 => (momentElem s g.m1form g.m1a g.m1b i, 0)
  | _ => (momentElem s g.m2form g.m2a g.m2b i, 0)

/-- What a recipe's run over one element gives: its lane, its saturation count and its outputs (output, value, SR). -/
structure ElemRun where
  lane : Lane
  sat : Nat
  outs : List (Nat × W32 × Bool)

/-- Run an update recipe over element i (R131). -/
def runElem (s : State) (g : Segment) (ks : List W32) (i : Nat) (is : List RInstr) : ElemRun :=
  is.foldl (fun r x =>
    if x.op = 1 then
      let (v, c) := chunkInput s g x.aux i
      { r with lane := setV r.lane x.dst v, sat := r.sat + c }
    else if x.op = 2 then { r with outs := r.outs ++ [(x.aux % 4, operand r.lane ks [] x.a, x.aux.testBit 2)] }
    else if laneOp x.op then { r with lane := laneStep ks [] x r.lane }
    else r) ⟨Lane.zero, 0, []⟩

/-- What a chunk stores: its writes, its digest terms and its counts. -/
structure ChunkOut where
  writes : List (Nat × List Byte)
  digests : List (Nat × Word)
  counts : Counts

/-- One stored element: vbits, block exponent. -/
abbrev StoredWord := Nat × Nat

/-- The digest terms of the elements an output stores from logical index idx on (R283, R284). -/
def chunkDigests (tensor : W32) (form idx : Nat) (xs : List Nat) : List (Nat × Word) :=
  if digestSlot tensor = 0 then []
  else [(digestSlot tensor, (xs.zipIdx.map (fun x => digestTerm tensor form x.1 (BitVec.ofNat 64 (idx + x.2)))).foldl (· + ·) 0)]

/-- Store FP32 values as FP32 or in split form (R32, R134). -/
def storeFull (split : Bool) (hi lo i0 : Nat) (tensor : W32) (idx : Nat) (xs : List (W32 × Rounding)) : ChunkOut :=
  let vs := xs.map (fun x => (toFp32 x.2 (fp32Val x.1)).1.toNat)
  { writes := if split then [(hi + 2 * i0, vs.flatMap (fun v => bytesLE 2 (v / 65536))), (lo + 2 * i0, vs.flatMap (fun v => bytesLE 2 v))]
              else [(hi + 4 * i0, vs.flatMap (fun v => bytesLE 4 v))]
    digests := chunkDigests tensor (if split then 4 else 3) idx vs
    counts := ⟨0, xs.countP (fun x => fpIsNan x.1 || fpIsInf x.1)⟩ }

/-- The parameters of the compact moment form (R136). -/
def compactParams : BlockParams := ⟨150, 127, 144⟩

/-- One block of a compact moment: a block whose nonzero elements are all infinite takes the largest exponent (R136). -/
def compactBlock (vs : List (FVal × Rounding)) : Nat × List Int × Counts :=
  let (e, ms, c) := toBlock compactParams vs
  (if (blockBig (vs.map (·.1))).m = 0 ∧ e = 254 then 255 else e, ms, c)

/-- Store a compact moment, padded to whole blocks (R27, R136). -/
def storeCompact (mant exp i0 : Nat) (tensor : W32) (idx : Nat) (xs : List (W32 × Rounding)) : ChunkOut :=
  let bs := (groupsOf 32 xs.length xs).map (fun g => compactBlock (g.map (fun x => (fp32Val x.1, x.2))))
  let ms := bs.flatMap (fun b => b.2.1.map (ofSigned 8))
  let vs := bs.flatMap (fun b => b.2.1.map (fun m => b.1 * 256 + ofSigned 8 m))
  { writes := [(mant + i0, padTo (padded xs.length) (ms.map (BitVec.ofNat 8))), (exp + i0 / 32, bs.map (fun b => BitVec.ofNat 8 b.1))]
    digests := chunkDigests tensor 5 idx vs
    counts := bs.foldl (fun c b => addCounts c b.2.2) noCounts }

/-- What output o of a chunk stores. -/
def storeOutput (g : Segment) (o i0 : Nat) (xs : List (W32 × Rounding)) : ChunkOut :=
  let tensor := g.tensor + BitVec.ofNat 32 o
  let idx := g.idxBase + i0
  match o with
  | 0 => storeFull (g.pfmt != 3) g.pHi g.pLo i0 tensor idx xs
  | 1 => if g.m1form = 2 then storeCompact g.m1a g.m1b i0 tensor idx xs else storeFull true g.m1a g.m1b i0 tensor idx xs
  | _ => if g.m2form = 2 then storeCompact g.m2a g.m2b i0 tensor idx xs else storeFull true g.m2a g.m2b i0 tensor idx xs

/-- Chunk k of a segment under seed, step and scale: what it stores (R129, R131, R282). -/
def runChunk (s : State) (g : Segment) (seed : BitVec 128) (step : StepNo) (c : W32) (k : Nat) : ChunkOut :=
  let is := uRecipe s g.recipe
  let ks := listSet g.ks 7 c
  let i0 := 128 * k
  let n := Nat.min 128 (g.count - i0)
  let rs := (List.range n).map (fun j => runElem s g ks (i0 + j) is)
  let sat := (rs.map (·.sat)).sum
  let outs := (is.filter (fun i => i.op == 2)).map (fun i => (i.aux % 4, i.aux.testBit 2))
  outs.foldl (fun (a : ChunkOut) o =>
    let tensor := g.tensor + BitVec.ofNat 32 o.1
    let xs := rs.zipIdx.map (fun r =>
      let v := (r.1.outs.find? (fun y => y.1 == o.1)).map (·.2.1)
      let md := if o.2 then Rounding.sr (genSr seed tensor step (BitVec.ofNat 64 (g.idxBase + i0 + r.2))) else .rne
      (v.getD 0, md))
    let x := storeOutput g o.1 i0 xs
    { writes := a.writes ++ x.writes, digests := a.digests ++ x.digests, counts := addCounts a.counts x.counts })
    ⟨[], [], ⟨sat, 0⟩⟩

/-- Whether an input plane of a chunk holds a poisoned unit (R260). -/
def chunkPoisoned (s : State) (g : Segment) (k : Nat) : Bool :=
  let i0 := 128 * k
  let n := Nat.min 128 (g.count - i0)
  let chunk : Segment := { g with
    count := n, pHi := g.pHi + pWidth g * i0, pLo := g.pLo + 2 * i0, gMant := g.gMant + (if g.gfmt = 3 then 4 else 2) * i0
    gExp := g.gExp + i0 / 32, m1a := g.m1a + (if g.m1form = 1 then 2 else 1) * i0
    m1b := if g.m1form = 1 then g.m1b + 2 * i0 else g.m1b + i0 / 32, m2a := g.m2a + (if g.m2form = 1 then 2 else 1) * i0
    m2b := if g.m2form = 1 then g.m2b + 2 * i0 else g.m2b + i0 / 32 }
  (segRanges chunk).any (fun r => poisoned s r.1 r.2)

/-- UPD_INJECT.ARM of a unit. -/
def updArmed (s : State) (u : Nat) : Bool := (getReg s (updPage u) Reg.updInject).testBit 0

/-- The checks of a chunk, with an armed injection and poison taken in (R137, R145, R260). -/
def chunkChecks (s : State) (u : Nat) (g : Segment) (k : Nat) (c : ChunkChecks) : ChunkChecks :=
  if chunkPoisoned s g k then .stopped
  else if updArmed s u then (match c with
    | .good => .retried
    | x => x)
  else c

/-- A failed check of a unit's chunk (R137, R145, R147). -/
def chunkFail (s : State) (u retries fails : Nat) : State :=
  let s := countReg s (updPage u) Reg.updRetries retries
  setErr (countReg s (updPage u) Reg.updResidueFails fails) (updPage u) 0

/-- A second failure on a chunk: the old values stay, the unit writes a FAULT record and sets FAULT_STOP, the other units stop and the
sweep ends FAILED; the failure is permanent (R137, R311). -/
def chunkFault (s : State) (u : Nat) : State :=
  let s := setErr (chunkFail s u 1 2) (updPage u) 1
  let s := writeRecord s u 2
  let s := setUnit s u { getUnit s u with stopped := true, faultStop := true }
  countPermanent (sweepFail s) (unitUpdate u) 1

/-- Commit a chunk: its planes are written, its counts and terms enter the unit, and the journal follows (R137, R139, R285). -/
def commitChunk (s : State) (u : Nat) (o : ChunkOut) : State :=
  let s := o.writes.foldl (fun s w => storeBytes s w.1 w.2) s
  let s := countReg s (updPage u) Reg.updChunks 1
  let s := countReg (countReg s (updPage u) Reg.updNonfin o.counts.nonfin) (updPage u) Reg.updSat o.counts.sat
  let x := getUnit s u
  let x := { x with cursor := x.cursor + 1, since := x.since + 1, nonfin := x.nonfin + o.counts.nonfin, sat := x.sat + o.counts.sat
                    digests := o.digests.foldl (fun l d => digestAdd l d.1 d.2) x.digests }
  let s := setUnit s u x
  let every := Nat.max 1 (getReg s ucPage Reg.ucJournalEvery % 65536)
  let s := if every ≤ x.since then writeRecord s u 0 else s
  sweepProgress (settleUnit 65 s u)

/-- Whether a unit has a chunk to commit: the sweep runs, does not wait for the norm, and the unit has not stopped (R130, R137). -/
def chunkDue (s : State) (u : Nat) : Option (Sweep × Segment × Nat) :=
  match s.uc.sweep with
  | none => none
  | some w =>
    let x := getUnit s u
    if s.uc.sweepState = .running && x.active && !x.stopped && !x.done && !w.normWait then
      match w.desc.segs[x.seg]? with
      | none => none
      | some g => ((unitChunks g u)[x.cursor]?).map (fun k => (w, g, k))
    else none

/-- CHUNK_COMMIT (R137): the unit's next chunk in order passes its checks, passes them when recomputed, or stops the unit. -/
def execChunkCommit (u : Fin 20) (checks : ChunkChecks) (s : State) : Host.Outcome State Fault Refusal :=
  .next (match chunkDue s u with
    | none => s
    | some (w, g, k) =>
      let o := runChunk s g (getCtx s w.ctx).seed s.uc.step s.uc.clip k
      let r := chunkChecks s u g k checks
      let s := setReg s (updPage u) Reg.updInject 0
      match r with
      | .good => commitChunk s u o
      | .retried => countFault (commitChunk (chunkFail s u 1 1) u o) (unitUpdate u)
      | .stopped => chunkFault s u)

/-! ## Recipe slots of the update units (R132) -/

/-- UC_RSTORE_SEL: SLOT and INDEX. -/
def ucSel (s : State) : Nat × Nat :=
  let v := getReg s ucPage Reg.ucRstoreSel
  (bits v 3 0, bits v 8 4)

/-- Advance INDEX by one modulo 32 (R116, R132). -/
def ucNextIndex (s : State) : State :=
  let (k, i) := ucSel s
  setReg s ucPage Reg.ucRstoreSel (k + 16 * ((i + 1) % 32))

/-- The word UC_RSTORE_DATA shows. -/
def ucWord (s : State) : W32 := slotWord s.ustore (ucSel s).1 (ucSel s).2

/-- A read of UC_RSTORE_DATA advances INDEX (R116, R132). -/
def ucRstoreRead (s : State) : State := ucNextIndex s

/-- UC_RSTORE_DATA_READ (R132): the word is the answer. -/
def execUcRstoreDataRead (s : State) : Host.Outcome State Fault Refusal :=
  .next { ucRstoreRead s with answer := bytesLE 4 (ucWord s).toNat }

/-- A write of UC_RSTORE_DATA; ignored with RECIPE_BUSY while a sweep runs (R132). -/
def ucRstoreWrite (s : State) (v : W32) : State :=
  if s.uc.sweepState = .running then setErr s ucPage 9
  else ucNextIndex { s with ustore := storeWord s.ustore (ucSel s).1 (ucSel s).2 v }

/-- UC_RSTORE_DATA_WRITE (R132). -/
def execUcRstoreDataWrite (value : W32) (s : State) : Host.Outcome State Fault Refusal := .next (ucRstoreWrite s value)

/-- Commit an update recipe: valid, or RECIPE_INVALID with the fault recorded; ignored with RECIPE_BUSY while a sweep runs (R131, R132,
R146). -/
def ucCommit (s : State) (slot length : Nat) : State :=
  if s.uc.sweepState = .running then setErr s ucPage 9
  else
    let (r, x) := commitSlot true s.ustore slot length
    let s := { s with ustore := r }
    match x with
    | none => s
    | some (chk, i) => setReg (setErr s ucPage 8) ucPage Reg.ucRstoreFault (slot + 16 * i + 512 * chk)

/-- UC_RSTORE_COMMIT (R131). -/
def execUcRstoreCommit (value : W32) (s : State) : Host.Outcome State Fault Refusal :=
  .next (ucCommit s (ucSel s).1 (value.toNat % 64))

/-! ## Registers of the units and of UC (R145, R146) -/

/-- UPD_STATE. -/
def updState (s : State) (u : Nat) : Nat :=
  let x := getUnit s u
  bit x.active + 2 * bit x.stopped + 4 * bit x.faultStop + 8 * (x.seg % 64)

/-- UPD_HOME (R118). -/
def updHome (u : Nat) : Nat := if u < 16 then 2 ^ u else 15 * 2 ^ (16 + 4 * (u - 16))

/-- UPD_INJECT (R145). -/
def updInject (s : State) (u v : Nat) : State := setReg s (updPage u) Reg.updInject (v % 2)

/-- UPD_INJECT (R145). -/
def execUpdInject (u : Fin 20) (value : W32) (s : State) : Host.Outcome State Fault Refusal := .next (expertOnly s (updPage u) (fun s => updInject s u value.toNat))

/-- START of a self-test: the register shows the test running until BIST_COMPLETE; other bits are kept (R145). -/
def startBist (s : State) (page off v : Nat) (idle : Bool) : State :=
  if v.testBit 0 && idle then setReg s page off 1 else s

/-- UPD_BIST (R145): accepted only while ACTIVE is 0. -/
def execUpdBist (u : Fin 20) (value : W32) (s : State) : Host.Outcome State Fault Refusal :=
  .next (expertOnly s (updPage u) (fun s => startBist s (updPage u) Reg.updBist value.toNat (!(getUnit s u).active)))

/-- UC_STATE (R146). -/
def ucStateWord (s : State) : Nat :=
  let a := match s.uc.sealSt with
    | .open_ => 0
    | .sealed => 1
    | .refused => 2
    | .withheld => 3
  let b := match s.uc.sweepState with
    | .idle => 0
    | .running => 1
    | .done => 2
    | .partial_ => 3
    | .failed => 4
  a + 4 * b + 32 * bit s.uc.normPending + 64 * bit s.uc.normClosed + 128 * bit s.uc.heldSweep.isSome

end Sys2Proof.Machine
end

