-- ==== Sys2Proof/Machine/Exchange.lean ====
section
/-!
DEFINITION. Machine/Exchange.lean: the arithmetic of the far exchange: descriptors, the exact delta, selection and conversion of a
contribution, bodies, the merged change, the erasure code (15_far_exchange.md, R369, R374–R380, R390, R391, R398).
-/
namespace Sys2Proof.Machine

/-! ## Exchange descriptors (R369) -/

/-- One segment of an exchange descriptor (R369). -/
structure XSeg where
  count : Nat
  pfmt : Nat
  f : Nat
  pHi : Nat
  pLo : Nat
  sAddr : Nat
  rMant : Nat
  rExp : Nat
  tensor : W32
  idxBase : Nat
  reserved : Bool
deriving DecidableEq, Repr

/-- A segment from its 64 bytes (R369). -/
def xSegOf (b : List Byte) : XSeg :=
  let f := fieldN b 4 4
  { count := fieldN b 0 4, pfmt := f % 8, f := bits f 12 8, pHi := fieldN b 8 8, pLo := fieldN b 0x10 8, sAddr := fieldN b 0x18 8
    rMant := fieldN b 0x20 8, rExp := fieldN b 0x28 8, tensor := BitVec.ofNat 32 (fieldN b 0x30 4), idxBase := fieldN b 0x38 8
    reserved := bits f 7 3 != 0 || bits f 31 13 != 0 || fieldN b 0x34 4 != 0 }

/-- The segments of the descriptor at an address (R369). -/
def xSegs (s : State) (a : Nat) : List XSeg :=
  (List.range (Nat.min 64 (memNat s.mem a 4))).map (fun j => xSegOf (memRead s.mem (a + 0x40 + 0x40 * j) 0x40))

/-- Bytes of a BS16 mantissa plane of n elements, padded to whole blocks (R27). -/
def rPlane (n : Nat) : Nat := 2 * padded n

/-- The planes of a segment, as address and length. -/
def xRanges (g : XSeg) : List (Nat × Nat) :=
  (if g.pfmt = 3 then [(g.pHi, 4 * g.count)] else [(g.pHi, 2 * g.count), (g.pLo, 2 * g.count)]) ++
  [(g.sAddr, 4 * g.count), (g.rMant, rPlane g.count), (g.rExp, ceilDiv g.count 32)]

/-- Whether a segment meets R369 and R129. -/
def xSegOk (g : XSeg) : Bool :=
  decide (1 ≤ g.count) && (g.pfmt == 3 || g.pfmt == 4) && decide (g.f ≤ 16) && !g.reserved && g.pHi % 512 == 0 &&
  (g.pfmt == 3 || g.pLo % 512 == 0) && g.sAddr % 512 == 0 && g.rMant % 512 == 0 && g.rExp % 64 == 0 &&
  (xRanges g).all (fun r => deviceRangeOk r.1 r.2)

/-- Whether the descriptor at an address is well formed, with no planes overlapping (R369, R371). -/
def xDescOk (s : State) (a : Nat) : Bool :=
  let n := memNat s.mem a 4
  let gs := xSegs s a
  a % 64 == 0 && decide (1 ≤ n) && decide (n ≤ 64) && deviceRangeOk a (0x40 + 0x40 * n) && (memRead s.mem (a + 4) 0x3C).all (· == 0) &&
  gs.all xSegOk && !anyMeet (gs.flatMap xRanges)

/-! ## The exact delta (R374) -/

/-- The largest finite FP32 magnitude. -/
def fpMaxExact : Exact := ⟨2 ^ 24 - 1, 104⟩

/-- A value of FP32 as R374 takes it: none for a NaN, the largest finite magnitude for an infinity. -/
def xVal (b : W32) : Option Exact :=
  match fp32Val b with
  | .nan => none
  | .inf n => some (if n then exactNeg fpMaxExact else fpMaxExact)
  | x => some (exactOfFval x)

/-- Parameter element i. -/
def xParam (s : State) (g : XSeg) (i : Nat) : W32 :=
  if g.pfmt = 3 then BitVec.ofNat 32 (memNat s.mem (g.pHi + 4 * i) 4) else splitElem s g.pHi g.pLo i

/-- Last-synchronised parameter element i. -/
def xSync (s : State) (g : XSeg) (i : Nat) : W32 := BitVec.ofNat 32 (memNat s.mem (g.sAddr + 4 * i) 4)

/-- Residual element i. -/
def xResidual (s : State) (g : XSeg) (i : Nat) : Exact :=
  blockVal bs16Params (toSigned 16 (memNat s.mem (g.rMant + 2 * i) 2)) (memNat s.mem (g.rExp + i / 32) 1)

/-- e = P − S + Rd of element i; none for a NaN (R374). -/
def xDelta (s : State) (g : XSeg) (i : Nat) : Option Exact :=
  match xVal (xParam s g i), xVal (xSync s g i) with
  | some p, some q => some (exactAdd (exactAdd p (exactNeg q)) (xResidual s g i))
  | _, _ => none

/-! ## Selection and conversion (R375, R376) -/

/-- The magnitude of an exact value. -/
def exactAbs (x : Exact) : Exact := ⟨(x.m.natAbs : Int), x.e⟩

/-- Whether element a at index i ranks before element b at index j (R375). -/
def xBefore (a : Option Exact) (i : Nat) (b : Option Exact) (j : Nat) : Bool :=
  match a, b with
  | some x, some y => exactLt (exactAbs y) (exactAbs x) || (!exactLt (exactAbs x) (exactAbs y) && decide (i < j))
  | some _, none => true
  | none, some _ => false
  | none, none => decide (i < j)

/-- The elements selected, in ascending order: the k that rank first (R375). -/
def xSelect (es : List (Option Exact)) (k : Nat) : List (Nat × Option Exact) :=
  let xs := es.zipIdx
  (xs.filter (fun x => decide (xs.countP (fun y => xBefore y.1 y.2 x.1 x.2) < k))).map (fun x => (x.2, x.1))

/-- An element as a source of a conversion. -/
def xSource : Option Exact → FVal
  | some x => fvalOfExact x
  | none => .nan

/-- The elements sent: index, mantissa and block exponent, with the counts (R376). -/
def xSend (sel : List (Nat × Option Exact)) : List (Nat × Int × Nat) × Counts :=
  let bs := (groupsOf 32 sel.length sel).map (fun g => (g.map (·.1), toBlock bs8Params (g.map (fun x => (xSource x.2, .rne)))))
  (bs.flatMap (fun b => (b.1.zip b.2.2.1).map (fun x => (x.1, x.2, b.2.1))), bs.foldl (fun c b => addCounts c b.2.2.2) noCounts)

/-- The sent value of element i; zero for one not selected. -/
def sentVal (sent : List (Nat × Int × Nat)) (i : Nat) : Exact :=
  match sent.find? (fun x => x.1 == i) with
  | some x => blockVal bs8Params x.2.1 x.2.2
  | none => exactZero

/-- FP32 sum of a stored value and an exact one, rounded under RNE and saturating (R37, R377). -/
def xAdd (b : W32) (x : Exact) : W32 × Counts :=
  match fp32Val b with
  | .fin n m e =>
    let r := toFp32 .rne (fvalOfExact (exactAdd (exactOfFval (.fin n m e)) x))
    (r.1, ⟨r.2, 0⟩)
  | v => ((toFp32 .rne v).1, noCounts)

/-! ## Bodies (R378) -/

/-- Unsigned LEB128 of a number below 2³⁵. -/
def leb : Nat → Nat → List Byte
  | 0, n => [BitVec.ofNat 8 n]
  | k + 1, n => if n < 128 then [BitVec.ofNat 8 n] else BitVec.ofNat 8 (n % 128 + 128) :: leb k (n / 128)

/-- The gaps of ascending element numbers, from element number `next` on. -/
def gapsFrom : Nat → List Nat → List Nat
  | _, [] => []
  | next, i :: is => (i - next) :: gapsFrom (i + 1) is

/-- Pad to a multiple of 64 bytes. -/
def pad64 (bs : List Byte) : List Byte := padTo (ceilDiv bs.length 64 * 64) bs

/-- The body of one segment (R378). -/
def segBody (g : XSeg) (j round site step steps : Nat) (sent : List (Nat × Int × Nat)) : List Byte :=
  let idx := (gapsFrom 0 (sent.map (·.1))).flatMap (leb 4)
  let exps := (groupsOf 32 sent.length sent).map (fun b => BitVec.ofNat 8 ((b.head?.map (·.2.2)).getD 0))
  padTo 64 (bytesLE 4 0x5C0B0716 ++ bytesLE 2 j ++ bytesLE 1 g.f ++ [0] ++ bytesLE 4 g.count ++ bytesLE 4 sent.length ++ bytesLE 4 round ++
    bytesLE 1 site ++ [0, 0, 0] ++ bytesLE 8 step ++ bytesLE 4 steps ++ bytesLE 4 idx.length) ++
  pad64 idx ++ pad64 exps ++ pad64 (sent.map (fun x => BitVec.ofNat 8 (ofSigned 8 x.2.1)))

/-- Bytes of a segment body of k elements and an index stream of n bytes. -/
def segBodyLen (k n : Nat) : Nat := 64 + 64 * ceilDiv n 64 + 64 * ceilDiv (ceilDiv k 32) 64 + 64 * ceilDiv k 64

/-- Elements a segment sends. -/
def xK (g : XSeg) : Nat := ceilDiv g.count (2 ^ g.f)

/-- The longest index stream of k of n elements: each further byte of a gap costs the elements it steps over, cheapest first. -/
def longestIndex (n k : Nat) : Nat :=
  let b := n - k
  let n1 := Nat.min k (b / 128)
  let b := b - 128 * n1
  let n2 := Nat.min n1 (b / 16256)
  let b := b - 16256 * n2
  let n3 := Nat.min n2 (b / 2080768)
  let b := b - 2080768 * n3
  k + n1 + n2 + n3 + Nat.min n3 (b / 266338304)

/-- The largest body a descriptor allows (R398). -/
def largestBody (gs : List XSeg) : Nat := (gs.map (fun g => segBodyLen (xK g) (longestIndex g.count (xK g)))).sum

/-- What a segment of a COMPOSE gives: the elements sent, the new residual blocks, the new parameters, and the counts. -/
structure SegCompose where
  sent : List (Nat × Int × Nat)
  rd : List (Nat × List Int)
  p : List W32
  counts : Counts

/-- COMPOSE of a segment (R374–R377). -/
def composeSeg (s : State) (g : XSeg) : SegCompose :=
  let es := (List.range g.count).map (xDelta s g)
  let (sent, c1) := xSend (xSelect es (xK g))
  let rest := es.zipIdx.map (fun x => match x.1 with
    | some e => fvalOfExact (exactAdd e (exactNeg (sentVal sent x.2)))
    | none => .nan)
  let bs := (groupsOf 32 rest.length rest).map (fun b => toBlock bs16Params (b.map (fun v => (v, .rne))))
  let ps := (List.range g.count).map (fun i => xAdd (xSync s g i) (sentVal sent i))
  let c := addCounts (bs.foldl (fun c b => addCounts c b.2.2) c1) (ps.foldl (fun c x => addCounts c x.2) noCounts)
  { sent := sent, rd := bs.map (fun b => (b.1, b.2.1)), p := ps.map (·.1), counts := c }

/-- Write the parameters of elements i0 to i0 + n − 1 of a segment: the writes, the digest terms and the counts (R284, R377, R393). -/
def paramOut (g : XSeg) (i0 : Nat) (ps : List W32) : ChunkOut :=
  storeFull (g.pfmt != 3) g.pHi g.pLo i0 g.tensor (g.idxBase + i0) (ps.map (fun p => (p, .rne)))

/-- What chunk k of a composed segment writes (R377, R400). -/
def composeChunk (g : XSeg) (x : SegCompose) (k : Nat) : ChunkOut :=
  let o := paramOut g (128 * k) ((x.p.drop (128 * k)).take 128)
  let bs := (x.rd.drop (4 * k)).take 4
  let ms := bs.flatMap (fun b => (b.2 ++ List.replicate (32 - b.2.length) 0).flatMap (fun m => bytesLE 2 (ofSigned 16 m)))
  { o with writes := o.writes ++ [(g.rMant + 256 * k, ms), (g.rExp + 4 * k, bs.map (fun b => BitVec.ofNat 8 b.1))] }

/-- Chunks of a segment. -/
def xChunks (g : XSeg) : Nat := ceilDiv g.count 128

/-! ## Reading a body (R378) -/

/-- Read an LEB128 number: its value and the bytes left. -/
def unleb : Nat → List Byte → Nat × List Byte
  | _, [] => (0, [])
  | 0, b :: bs => (b.toNat % 128, bs)
  | k + 1, b :: bs => if b.toNat < 128 then (b.toNat, bs) else let r := unleb k bs; (b.toNat % 128 + 128 * r.1, r.2)

/-- The element numbers of an index stream of k gaps. -/
def unindex : Nat → Nat → List Byte → List Nat
  | 0, _, _ => []
  | k + 1, next, bs => let r := unleb 4 bs; (next + r.1) :: unindex k (next + r.1 + 1) r.2

/-- A segment body read from memory: STEPS, COMPOSE_STEP, its elements and its length. -/
structure SegRead where
  steps : Nat
  step : Nat
  elems : List (Nat × Int × Nat)
  len : Nat

/-- Read the segment body at an address (R378). -/
def readSegBody (s : State) (a : Nat) : SegRead :=
  let k := memNat s.mem (a + 0x0C) 4
  let n := memNat s.mem (a + 0x24) 4
  let ea := a + 64 + 64 * ceilDiv n 64
  let ma := ea + 64 * ceilDiv (ceilDiv k 32) 64
  let is := unindex k 0 (memRead s.mem (a + 64) n)
  { steps := memNat s.mem (a + 0x20) 4, step := memNat s.mem (a + 0x18) 8
    elems := is.zipIdx.map (fun x => (x.1, toSigned 8 (memNat s.mem (ma + x.2) 1), memNat s.mem (ea + x.2 / 32) 1))
    len := segBodyLen k n }

/-- Read the n segment bodies from an address on. -/
def readBody (s : State) : Nat → Nat → List SegRead
  | 0, _ => []
  | n + 1, a => let x := readSegBody s a; x :: readBody s n (a + x.len)

/-- Length of the body of n segments at an address. -/
def bodyLenAt (s : State) (n a : Nat) : Nat := ((readBody s n a).map (·.len)).sum

/-! ## The merged change (R390, R391) -/

/-- An element's bs8 value widened to FP32; +0 for one not selected (R41, R390). -/
def elemFp (xs : List (Nat × Int × Nat)) (i : Nat) : W32 :=
  match xs.find? (fun x => x.1 == i) with
  | some x => (blockToFp32 bs8Params x.2.1 x.2.2).1
  | none => 0

/-- The weights n_j / N, rounded once to FP32 (R390). -/
def weights (ns : List Nat) : List W32 := ns.map (fun n => fvDiv (.fin false n 0) (.fin false ns.sum 0))

/-- The merged change of element i: a chain of fused multiply-adds in ascending site order (R390). -/
def mergedElem (ws : List W32) (bodies : List (List (Nat × Int × Nat))) (i : Nat) : W32 :=
  (ws.zip bodies).foldl (fun m x => fpFma x.1 (elemFp x.2 i) m) 0

/-- The new S and P of element i, each step rounded to FP32 (R391). -/
def applyElem (s : State) (g : XSeg) (ws : List W32) (bodies : List (List (Nat × Int × Nat))) (own : List (Nat × Int × Nat)) (i : Nat) :
    W32 × W32 :=
  let m := mergedElem ws bodies i
  (fpAdd (xSync s g i) m, fpAdd (xParam s g i) (fpSub m (elemFp own i)))

/-- What chunk k of a segment writes when a round is applied: S, then P with its digest terms (R391, R393). -/
def applyChunk (s : State) (g : XSeg) (ws : List W32) (bodies : List (List (Nat × Int × Nat))) (own : List (Nat × Int × Nat)) (k : Nat) :
    ChunkOut :=
  let i0 := 128 * k
  let xs := (List.range (Nat.min 128 (g.count - i0))).map (fun j => applyElem s g ws bodies own (i0 + j))
  let o := paramOut g i0 (xs.map (·.2))
  let nan := xs.countP (fun x => fpIsNan x.1 || fpIsInf x.1)
  { o with writes := (g.sAddr + 4 * i0, xs.flatMap (fun x => bytesLE 4 x.1.toNat)) :: o.writes, counts := addCounts o.counts ⟨0, nan⟩ }

/-! ## The erasure code (R380) -/

/-- The coefficient of data shard i in parity shard j (R380). -/
def rsCoef (j i : Nat) : Nat := gfInv ((32 + j) ^^^ i)

/-- Add a multiple of a byte list to another in GF(2⁸). -/
def gfAxpy (c : Nat) (xs ys : List Nat) : List Nat := xs.zipWith (fun x y => y ^^^ gfMul c x) ys

/-- Parity shard j of k data shards of l bytes (R380). -/
def parityShard (l : Nat) (data : List (List Byte)) (j : Nat) : List Byte :=
  (data.zipIdx.foldl (fun acc x => gfAxpy (rsCoef j x.2) (x.1.map (·.toNat)) acc) (List.replicate l 0)).map (BitVec.ofNat 8)

/-- The row of a shard in the equations of k data shards: its coefficients, then its bytes. -/
def shardRow (k : Nat) (x : Nat × List Byte) : List Nat :=
  (if x.1 < 32 then (List.range k).map (fun i => if i = x.1 then 1 else 0) else (List.range k).map (fun i => rsCoef (x.1 - 32) i)) ++
  x.2.map (·.toNat)

/-- Eliminate column c from the rows: the row that holds it is scaled and taken first. -/
def gfColumn (c : Nat) (rows : List (List Nat)) : List (List Nat) :=
  match (rows.drop c).find? (fun r => r.getD c 0 != 0) with
  | none => rows
  | some p =>
    let q := p.map (gfMul (gfInv (p.getD c 0)))
    let rest := (rows.take c ++ (rows.drop c).erase p).map (fun r => gfAxpy (r.getD c 0) q r)
    rest.take c ++ [q] ++ rest.drop c

/-- Decode a message from k of its shards: the k data shards joined (R380). -/
def rsDecode (k : Nat) (shards : List (Nat × List Byte)) : List Byte :=
  let rows := (List.range k).foldl (fun rs c => gfColumn c rs) ((shards.take k).map (shardRow k))
  (rows.flatMap (fun r => r.drop k)).map (BitVec.ofNat 8)

end Sys2Proof.Machine
end

