-- ==== Sys2Proof/Machine/TallyCmds.lean ====
section
/-!
DEFINITION. Machine/TallyCmds.lean: the arrival of tally and barrier operations at their banks, the tally messages of other
modules and of the host, and the tally registers (09_tallies.md, R230–R249; 14_ports_and_transport.md, R355; R309).
-/
namespace Sys2Proof.Machine

/-! ## Operations reach their bank (R234–R237, R240) -/

/-- Operation i on its way. -/
def tallyMsgAt (s : State) (i : Nat) : Option TallyMsg := s.tly.msgs[i]?

/-- Take operation i off its way. -/
def takeMsg (s : State) (i : Nat) : State := { s with tly := { s.tly with msgs := listErase s.tly.msgs i } }

/-- Whether signal i may arrive: a core's signal not before the end of its beat, and after the earlier signals of its source to its
tally (R237). -/
def signalReady (s : State) (i : Nat) (m : TallyMsg) : Bool :=
  (match m.lh with
   | some l => decide (m.beat < beatOf s l)
   | none => true) &&
  !(s.tly.msgs.take i).any (fun x => x.op == .signal && x.agent == m.agent && x.phys == m.phys)

/-- TALLY_SIGNAL (R234, R236, R237): signal i reaches its bank. -/
def execTallySignal (i : Nat) (s : State) : Host.Outcome State Fault Refusal :=
  .next (match tallyMsgAt s i with
    | none => s
    | some m =>
      if m.op = .signal ∧ signalReady s i m = true then signalAt (takeMsg s i) m.phys m.n m.ctx m.vid localParty
      else s)

/-- The waiter a core's request becomes. -/
def coreWaiter (m : TallyMsg) (lh : Lh) : Waiter := { src := .core lh m.dst, n := m.n, ctx := m.ctx, vid := m.vid }

/-- TALLY_OBSERVE_WAIT (R234, R235): observe-wait i reaches its bank. -/
def execTallyObserveWait (i : Nat) (s : State) : Host.Outcome State Fault Refusal :=
  .next (match tallyMsgAt s i with
    | none => s
    | some m =>
      match m.op, m.lh with
      | .observe, some lh => observeAt (takeMsg s i) m.phys (coreWaiter m lh)
      | _, _ => s)

/-- TALLY_CONSUME_WAIT (R234, R235): consume-wait i reaches its bank. -/
def execTallyConsumeWait (i : Nat) (s : State) : Host.Outcome State Fault Refusal :=
  .next (match tallyMsgAt s i with
    | none => s
    | some m =>
      match m.op, m.lh with
      | .consume, some lh => consumeAt (takeMsg s i) m.phys (coreWaiter m lh)
      | _, _ => s)

/-- BARRIER_ARRIVAL (R240, R241): arrival i reaches the barrier unit. -/
def execBarrierArrival (i : Nat) (s : State) : Host.Outcome State Fault Refusal :=
  .next (match tallyMsgAt s i with
    | none => s
    | some m =>
      match m.op, m.lh with
      | .arrive wait, some lh => arriveCore (takeMsg s i) m.phys lh m.dst wait m.ctx m.vid
      | _, _ => s)

/-! ## Registers (R243, R248) -/

/-- An error of the TALLY page that TLY_ERR_INFO has no cause for (R249). -/
def tallyFlag (s : State) (b : Nat) : State :=
  emit (setErr s tallyPage b) evTallyError tallyPage (bytesLE 8 (getReg s tallyPage Reg.tlyErrInfo) ++ [BitVec.ofNat 8 b])

/-- The context and VID TLY_SEL selects. -/
def tlySel (s : State) : Nat × Nat :=
  let v := getReg s tallyPage Reg.tlySel
  (bits v 15 12, bits v 11 0)

/-- A write of TLY_COUNT_SET (R248). -/
def tlyCountSet (s : State) (v : Nat) : State :=
  let (c, vid) := tlySel s
  let e := getEntry s c vid
  if ctxRuns (getCtx s c) || e.kind != .local_ then tallyFlag s 7
  else serve (setTally s e.target { getTally s e.target with count := v % 2 ^ 32 }) e.target

/-- TLY_COUNT_SET (R248). -/
def execTlyCountSet (value : W32) (s : State) : Host.Outcome State Fault Refusal :=
  .next (expertOnly s tallyPage (fun s => tlyCountSet s value.toNat))

/-- A write of GO to TLY_BAR_REPAIR (R243, R248). -/
def tlyBarRepair (s : State) (v : Nat) : State :=
  let i := getReg s tallyPage Reg.tlyBarSel % 64
  let b := getSlot s i
  if !v.testBit 0 then s
  else if !b.waiters.isEmpty then tallyFlag s 7
  else setSlot s i { b with broken := false, current := 0, next := 0, peersCur := 0, peersNext := 0, gen := 0, told := false }

/-- TLY_BAR_REPAIR (R243). -/
def execTlyBarRepair (value : W32) (s : State) : Host.Outcome State Fault Refusal :=
  .next (expertOnly s tallyPage (fun s => tlyBarRepair s value.toNat))

/-- TLY_ENTRY (R231). -/
def entryWord (e : Entry) : Nat :=
  match e.kind with
  | .unmapped => 0
  | .local_ => 1 + 2 ^ 16 * e.target
  | .barrier => 2 + 2 ^ 16 * e.target
  | .remote => 3 + 2 ^ 8 * e.module + 2 ^ 16 * e.target
  | .host => 4 + 2 ^ 16 * e.target

/-- TLY_COUNT and TLY_WAITERS of the selected VID (R248). -/
def selTally (s : State) : Tally :=
  let e := getEntry s (tlySel s).1 (tlySel s).2
  if e.kind = .local_ then getTally s e.target else .free

/-- Barrier slots in use. -/
def slotsUsed (s : State) : Nat := s.tly.slots.toList.countP (fun b => b.owner.isSome)

/-- Physical tallies in use. -/
def talliesUsed (s : State) : Nat := s.tly.tallies.countP (fun x => x.2.owner.isSome)

/-- TLY_BAR_STATE (R248). -/
def barWord (b : BarSlot) : Nat :=
  b.gen + 2 ^ 32 * bit b.owner.isSome + 2 ^ 33 * bit b.broken + 2 ^ 34 * bit (decide (b.modules ≠ 0)) + 2 ^ 36 * b.owner.getD 0 +
    2 ^ 40 * b.waiters.length

/-! ## Messages of other modules and of the host (R244, R309, R355) -/

/-- What R309 does with a message. -/
inductive AttemptRule where
  | apply
  | drop
  | hold
deriving DecidableEq, Repr

/-- The rule of R309 for a message of a sender, step and attempt. -/
def attemptRule (s : State) (sender : Option Nat) (step attempt : Nat) : AttemptRule :=
  match sender with
  | none => .apply
  | some m =>
    if !(domainOthers s).contains m || step ≠ s.uc.step.toNat || attempt = s.flt.attempt then .apply
    else if attempt < s.flt.attempt then .drop
    else .hold

/-- A near session carries a message of a context (R348). -/
def noteUser (s : State) (module ctx : Nat) : State :=
  match nearSess s module with
  | some x => setNearSess s { x with users := if x.users.contains ctx then x.users else ctx :: x.users }
  | none => s

/-- Whether a message's sender is connected: a member over a near session that is up, or the host over some session (R345, R347). -/
def senderUp (s : State) (h : MsgHead) : Bool :=
  match h.sender with
  | some m => nearUp s m.val
  | none => !s.hostSessions.isEmpty

/-- The module index of a sender in TLY_ERR_INFO: 0xFF for the host. -/
def senderIndex (h : MsgHead) : Nat := (h.sender.map (·.val)).getD localParty

/-- Source number of the signals of another module. -/
def agentPeer (m : Nat) : Nat := agentOf 4 m

/-- Answer a remote wait ABANDONED at once (R232, R244). -/
def refuseWait (s : State) (w : Waiter) : State := release s w true 0

/-- A remote signal takes effect (R232, R234, R244). -/
def remoteSignal (s : State) (src ctx vid n : Nat) : State :=
  let e := getEntry s ctx vid
  match e.kind with
  | .local_ =>
    if (getCtx s ctx).state = .resetting then countReg s tallyPage Reg.tlyRemoteLost 1 else signalAt s e.target n ctx vid src
  | .barrier => tallyErr s 0 ctx vid src 1 0
  | .unmapped => tallyErr s 0 ctx vid src 0 0
  | _ => sendSignal s none (agentPeer src) ctx vid n 0

/-- A remote wait takes effect: it takes an entry of the remote-waiter table (R232, R244). -/
def remoteWait (s : State) (src : Nat) (w : Waiter) (consume : Bool) : State :=
  let e := getEntry s w.ctx w.vid
  if e.kind ≠ .local_ then refuseWait (tallyErr s 0 w.ctx w.vid src (kindCause e) 0) w
  else if 1024 ≤ remoteWaiters s then refuseWait (tallyFlag s 6) w
  else if consume then consumeAt s e.target w
  else observeAt s e.target w

/-- A barrier arrival of a member takes effect (R242). -/
def remoteArrive (s : State) (src ctx vid gen : Nat) : State :=
  let e := getEntry s ctx vid
  if e.kind ≠ .barrier then tallyErr s 0 ctx vid src (kindCause e) 0
  else if !(getSlot s e.target).modules.testBit src then tallyErr s 2 ctx vid src 3 e.target
  else arrivePeer s e.target src gen ctx vid

/-- A held message takes effect (R309). -/
def applyHeld (s : State) (m : HeldMsg) : State :=
  match m.op with
  | 0 => remoteSignal s m.module m.ctx m.vid m.value
  | 1 => remoteWait s m.module { src := .peer m.module m.token, n := m.value, ctx := m.ctx, vid := m.vid } false
  | 2 => remoteWait s m.module { src := .peer m.module m.token, n := m.value, ctx := m.ctx, vid := m.vid } true
  | _ => remoteArrive s m.module m.ctx m.vid m.value

/-- Apply, drop or hold a tally message of a member (R309). -/
def tallyFrom (s : State) (h : MsgHead) (op vid value : Nat) (token : W32) (f : State → State) : State :=
  if !senderUp s h then s
  else
    let src := senderIndex h
    let s := match h.sender with
      | some m => noteUser s m.val h.ctx.val
      | none => s
    match attemptRule s (h.sender.map (·.val)) h.step.toNat h.attempt.toNat with
    | .apply => f s
    | .drop => countReg s faultPage Reg.fltStaleDrops 1
    | .hold =>
      let m : HeldMsg := { op := op, module := src, ctx := h.ctx.val, attempt := h.attempt.toNat, vid := vid, value := value, token := token }
      { s with flt := { s.flt with held := s.flt.held ++ [m] } }

/-- The source of a remote wait. -/
def waitSrc (h : MsgHead) (token : W32) : WaitSrc :=
  match h.sender with
  | some m => .peer m.val token
  | none => .host token

/-- TALLY_SIGNAL_MESSAGE (R244, R355). -/
def execTallySignalMessage (m : MsgHead) (vid : BitVec 16) (n : W32) (s : State) : Host.Outcome State Fault Refusal :=
  let v := vid.toNat % 4096
  .next (tallyFrom s m 0 v n.toNat 0 (fun s => remoteSignal s (senderIndex m) m.ctx v n.toNat))

/-- TALLY_WATCH (R244, R355). -/
def execTallyWatch (m : MsgHead) (vid : BitVec 16) (target token : W32) (s : State) : Host.Outcome State Fault Refusal :=
  let v := vid.toNat % 4096
  .next (tallyFrom s m 1 v target.toNat token (fun s =>
    remoteWait s (senderIndex m) { src := waitSrc m token, n := target.toNat, ctx := m.ctx, vid := v } false))

/-- TALLY_CONSUME (R244, R355). -/
def execTallyConsume (m : MsgHead) (vid : BitVec 16) (n token : W32) (s : State) : Host.Outcome State Fault Refusal :=
  let v := vid.toNat % 4096
  .next (tallyFrom s m 2 v n.toNat token (fun s =>
    remoteWait s (senderIndex m) { src := waitSrc m token, n := n.toNat, ctx := m.ctx, vid := v } true))

/-- The host's arrival at the barrier of a VID (R240, R244). -/
def hostArrive (s : State) (ctx vid : Nat) : State :=
  let e := getEntry s ctx vid
  if e.kind ≠ .barrier then tallyErr s 0 ctx vid localParty (kindCause e) 0 else arriveHost s e.target ctx vid

/-- TALLY_ARRIVE (R240, R242, R355). -/
def execTallyArrive (m : MsgHead) (vid : BitVec 16) (gen : W32) (s : State) : Host.Outcome State Fault Refusal :=
  let v := vid.toNat % 4096
  .next (match m.sender with
    | none => if senderUp s m then hostArrive s m.ctx v else s
    | some p => tallyFrom s m 3 v gen.toNat 0 (fun s => remoteArrive s p.val m.ctx v gen.toNat))

/-- TALLY_RELEASE (R244, R355): the answer to a remote wait this module sent, found by its token. -/
def execTallyRelease (m : MsgHead) (abandoned : Bool) (_vid : BitVec 16) (token _count : W32) (s : State) :
    Host.Outcome State Fault Refusal :=
  let mine := fun (w : SentWait) => decide (some w.module = m.sender.map (·.val)) && decide (w.token = token.toNat)
  .next (if !senderUp s m then s
    else match s.tly.sent.find? mine with
      | none => s
      | some w =>
        let s := { s with tly := { s.tly with sent := s.tly.sent.filter (fun x => !mine x) } }
        modCore s w.lh (fun c => endWait c (statusWord abandoned)))

/-- BARRIER_ABANDON (R245, R355): the slot the VID names is marked BROKEN. -/
def execBarrierAbandon (m : MsgHead) (vid : BitVec 16) (s : State) : Host.Outcome State Fault Refusal :=
  let v := vid.toNat % 4096
  let e := getEntry s m.ctx v
  .next (if !senderUp s m || e.kind != .barrier || (getSlot s e.target).broken then s else breakSlot s e.target)

end Sys2Proof.Machine
end

