-- ==== Sys2Proof/Machine/FaultCmds.lean ====
section
/-!
DEFINITION. Machine/FaultCmds.lean: the replay of a refused step, the notices of the replay domain, the module drain, laggards, and the
registers of the FAULT and MGMT pages that act (12_integrity_and_faults.md, R304–R322; R246, R449, R475).
-/
namespace Sys2Proof.Machine

/-! ## What a stopped context still waits for (step 2 of R305) -/

/-- Whether nothing issued by a context is outstanding: its engines have reached their break points or ends, and its open DMAs, merges,
fetches, probe answers and signals have completed (steps 1 and 2 of R305). A merge of a later attempt waits for the restart (R309). -/
def contextQuiet (s : State) (c : Nat) : Bool :=
  (hampersOf s c).all (fun l =>
    let h := getH s l
    tailDone h (beatOf s l) && h.list.items.all (·.visible) && h.list.steal.isNone && h.list.merges.isEmpty) &&
  s.dmas.all (fun d => d.ctx != c) &&
  s.merges.all (fun m => m.ctx != c || decide (m.attempt.getD 0 > s.flt.attempt)) && s.tly.msgs.all (fun m => m.ctx != c)

/-- The beat in which stopped programs go on together: after the furthest die. -/
def commonBeat (s : State) : Nat := s.dies.toList.foldl Nat.max 0 + 1

/-- Clear what a step left in a hamper of a context: basket slots, its list, the tops and depths of its stacks, and the accumulators
(step 3 of R305). NB stays. -/
def clearHamper (s : State) (c l : Nat) : State :=
  let s := emptyList s l
  modH s l (fun h =>
    let h := endHamper h
    { h with frames := h.frames.map (fun (f : Frame) => { f with basket := [] })
             stackRegs := h.stackRegs.map (fun (k : Stack) => if k.ctx = c then { k with topH := 0, topE := 0, depth := 0 } else k)
             core := { h.core with counts := .zero, winCounts := .zero, digests := [], norm := .empty h.core.norm.nb
                                   drainsWin := Vector.replicate 3 none, vsumWin := none } })

/-- Clear what a step left in a context: its hampers, its LOCAL tallies and its barrier slots, and requests still on their way (step 3
of R305). -/
def clearStep (s : State) (c : Nat) : State :=
  let s := (hampersOf s c).foldl (fun s l => clearHamper s c l) s
  let s := (talliesOf s c).foldl resetTally s
  let s := (slotsOf s c).foldl clearSlot s
  { s with uc := { s.uc with leaving := s.uc.leaving.filter (fun r => r.ctx != c) } }

/-- A core takes a replay point: it issues again from beat b on, with BEAT as if tq had been the beat before (R304, R305). -/
def takePoint (b : Nat) (p : ReplayPoint) (c : Core) : Core :=
  { c with pc := p.pc, sregs := p.sregs, drains := p.drains, vsum := p.vsum, gstep := p.gstep, run := .issuing, ended := false
           stopped := false, next := b, start := (b : Int) - p.beat }

/-- Every hamper of a context takes its replay point for UC_STEP (step 4 of R305). -/
def takePoints (s : State) (c : Nat) : State :=
  let b := commonBeat s
  (hampersOf s c).foldl (fun s l => modCore s l (fun k => match replayPoint s k with
    | some p => takePoint b p k
    | none => k)) s

/-- Apply the messages held for the attempt that begins, and drop those of earlier ones (R309). -/
def releaseHeld (s : State) : State :=
  let a := s.flt.attempt
  let now := s.flt.held.filter (fun m => m.attempt == a)
  let stale := s.flt.held.countP (fun m => decide (m.attempt < a)) +
    s.merges.countP (fun m => m.attempt.isSome && decide (m.attempt.getD 0 < a))
  let s := { s with flt := { s.flt with held := s.flt.held.filter (fun m => decide (a < m.attempt)) }
                    merges := s.merges.filter (fun m => m.attempt.isNone || decide (a ≤ m.attempt.getD 0)) }
  now.foldl applyHeld (countReg s faultPage Reg.fltStaleDrops stale)

/-- The end of a restart: the step's state is cleared, the replay points are taken, and the seal opens for the next attempt (R305, R320). -/
def replayStep (s : State) (r : Restart) : State :=
  let s := takePoints (clearStep s r.ctx) r.ctx
  let s := { s with uc := { s.uc with sealSt := .open_, reqs := [], held := [], owner := none }
                    flt := { s.flt with attempt := r.goal, restart := none } }
  let s := countReg s faultPage Reg.fltReplays 1
  let s := addLoss s (s.clockNs - r.fromNs)
  releaseHeld (emit s evStepReplay faultPage (sealData s r.ctx))

/-- STEP_REPLAY (R305): steps 3 to 5 of a restart, once nothing of the context is outstanding. -/
def execStepReplay (s : State) : Host.Outcome State Fault Refusal :=
  .next (match s.flt.restart with
    | none => s
    | some r => if contextQuiet s r.ctx then replayStep s r else s)

/-! ## Notices (R308, R314) -/

/-- A refusal notice for step st and attempt a (R308). One that meets a seal already REFUSED in that attempt has been served (log entry
35); one for the step to come is charged to it. -/
def refusalNotice (s : State) (ctx st a : Nat) : State :=
  let own := s.flt.attempt
  let served := own > a || s.uc.sealSt = .refused
  if st = s.uc.step.toNat ∧ s.uc.sealSt = .open_ ∧ own ≤ a then
    refuseSeal { s with flt := { s.flt with attempt := a } } (some ctx) (a + 1) (!s.flt.replace)
  else if st = s.uc.step.toNat ∧ served = true then s
  else if st = s.uc.step.toNat + 1 then { s with uc := { s.uc with nextRefused := true, nextCtx := s.uc.nextCtx.orElse (fun _ => some ctx) } }
  else if s.uc.step.toNat < st then s
  else emit (setErr s faultPage 1) evDomainLate faultPage (bytesLE 8 st ++ bytesLE 2 a ++ [BitVec.ofNat 8 ctx])

/-- REFUSAL_NOTICE (R308, R357), from a member of the replay domain whose session is up. -/
def execRefusalNotice (module : Fin 256) (ctx : Fin 16) (step : BitVec 48) (attempt : BitVec 16) (s : State) :
    Host.Outcome State Fault Refusal :=
  .next (if nearUp s module && (domainOthers s).contains module.val then
      refusalNotice (noteUser s module ctx) ctx step.toNat attempt.toNat
    else s)

/-! ## The module drain (R314) -/

/-- End the programs of a context under a drain or a reset (R179, R314). -/
def endContext (s : State) (c : Nat) : State :=
  let s := (hampersOf s c).foldl (fun s l => modH s l endHamper) s
  modCtx s c (fun x => { x with launch := x.launch.map (fun l => { l with forced := true }) })

/-- The contexts whose programs run. -/
def runningCtxs (s : State) : List Nat := (List.range 16).filter (fun c => ctxRuns (getCtx s c))

/-- MODULE_DRAIN_COMPLETE (R314): steps 4 to 6, once transfers and a running sweep have completed. -/
def execModuleDrainComplete (s : State) : Host.Outcome State Fault Refusal :=
  let cs := runningCtxs s
  .next (if s.flt.draining && s.uc.sweepState ≠ .running && cs.all (contextQuiet s) then
      let s := cs.foldl endContext s
      let s := sendNotices s 1 0
      { s with flt := { s.flt with draining := false } }
    else s)

/-! ## Laggards (R316, R317) -/

/-- The core domain of the die of a unit: only the units of a compute die have one (R310, R449). -/
def coreDomain (u : Nat) : Option Nat :=
  let i := u % 4096
  match u / 4096 with
  | 0 => if i < 48 then some (i / 12) else none
  | 1 => if i < 16 then some (i / 4) else none
  | 2 => if i < 16 then some (i / 4) else none
  | _ => none

/-- Raise or lower the voltage of a domain, within its limits (R317, R449). -/
def moveMv (s : State) (d : Nat) (up : Bool) (mV : Nat) : State :=
  let p := s.power
  let v := p.mv[d]?.getD 0
  let v' := if up then Nat.max v (Nat.min (v + mV) (p.ceiling[d]?.getD v)) else Nat.min v (Nat.max (v - mV) (p.floor[d]?.getD v))
  { s with power := { p with mv := p.mv.setIfInBounds d v' } }

/-- Ten minutes and one minute in ns. -/
def lagWindow : Nat := 600000000000
/-- One minute in ns. -/
def lagInterval : Nat := 60000000000

/-- The charges of a unit's last ten intervals of 60 s. -/
def lagHist (s : State) (u : Nat) : List Nat := sparseGet [] s.flt.lagHist u

/-- Declare a suspect (R317): the event names the unit and its share in units of 0.01 %; a hamper counts one event. -/
def suspect (s : State) (u share : Nat) : State :=
  let s := emit (countReg s faultPage Reg.fltSuspects 1) evSuspectUnit faultPage (bytesLE 2 u ++ bytesLE 2 share)
  if u / 4096 = 0 then countFault s u else s

/-- LAGGARD_EVALUATION (R317): the end of an interval of 60 s of a unit. -/
def execLaggardEvaluation (unit : BitVec 16) (s : State) : Host.Outcome State Fault Refusal :=
  let u := unit.toNat
  let total := sparseGet 0 s.flt.lag u
  let charge := total - sparseGet 0 s.flt.lagSeen u
  let hist := (charge :: lagHist s u).take 10
  let sum := hist.sum
  let raised := sparseGet 0 s.flt.lagRaised u
  let exceeds := decide (lagInterval * 5 < charge * 100) && !s.power.throttled
  let calm := decide (hist.length = 10) && hist.all (fun x => decide (x * 100 < lagInterval * 2))
  let bad := decide (lagWindow * 15 < sum * 100)
  let was := s.flt.lagSuspect.contains u
  let f := { s.flt with lagSeen := sparseSet 0 s.flt.lagSeen u total, lagHist := sparseSet [] s.flt.lagHist u hist
                        lagRaised := sparseSet 0 s.flt.lagRaised u (if exceeds then raised + 1 else if calm then raised - 1 else raised)
                        lagSuspect := if bad then (if was then s.flt.lagSuspect else u :: s.flt.lagSuspect)
                                      else s.flt.lagSuspect.filter (· ≠ u) }
  let s := { s with flt := f }
  let s := match coreDomain u with
    | some d => if exceeds then moveMv s d true 10 else if calm && decide (0 < raised) then moveMv s d false 10 else s
    | none => s
  .next (if bad && !was then suspect s u (sum * 10000 / lagWindow) else s)

/-- FLT_LAG_SHARE (R321). -/
def lagShare (s : State) (u : Nat) : Nat := Nat.min 65535 ((lagHist s u).sum * 10000 / lagWindow)

/-! ## Reports and flags (R312, R315, R318, R321, R475) -/

/-- A write of FLT_REPORT (R318, R321). -/
def fltReport (s : State) (v : Nat) : State :=
  let s := countReg s faultPage Reg.fltEscapes 1
  let s := emit s evEscapeReported faultPage (bytesLE 8 (v % 2 ^ 48))
  if v.testBit 48 then countFaultAs s (4096 * bits v 63 60 + bits v 56 49) 4 else s

/-- FLT_REPORT (R318). -/
def execFltReport (value : Word) (s : State) : Host.Outcome State Fault Refusal := .next (fltReport s value.toNat)

/-- A write of FLT_FLAG_CLEAR (R315, R321). -/
def fltFlagClear (s : State) (v : W32) : State :=
  if v = Config.clearCode s.part.serial then
    let s := setReg s faultPage Reg.fltCause 0
    { s with flash := { s.flash with flag := none, writes := s.flash.writes + 1 }
             flt := { s.flt with replace := false, causeUnit := 0, causeKind := 0, failed := [] } }
  else setErr s faultPage 4

/-- FLT_FLAG_CLEAR (R315). -/
def execFltFlagClear (value : W32) (s : State) : Host.Outcome State Fault Refusal :=
  .next (expertOnly s faultPage (fun s => fltFlagClear s value))

/-- A write of MG_FLASH_ERASE_LOG (R475). -/
def flashEraseLog (s : State) (v : Nat) : State :=
  if !v.testBit 0 then s
  else if anyLaunch s || s.flt.replace then setErr s mgmtPage 3
  else { s with flash := { s.flash with faults := [], tracks := [], writes := s.flash.writes + 1 } }

/-- MG_FLASH_ERASE_LOG (R475). -/
def execMgFlashEraseLog (value : W32) (s : State) : Host.Outcome State Fault Refusal :=
  .next (expertOnly s mgmtPage (fun s => flashEraseLog s value.toNat))

/-- A write of MG_EVENT_TEST (R475). -/
def eventTest (s : State) (v : Nat) : State := emit s (v % 65536) mgmtPage (List.replicate 32 0)

/-- MG_EVENT_TEST (R475). -/
def execMgEventTest (value : W32) (s : State) : Host.Outcome State Fault Refusal :=
  .next (expertOnly s mgmtPage (fun s => eventTest s value.toNat))

/-- A write of a word of FLT_DOMAIN (R321). -/
def domainWrite (s : State) (off v : Nat) : State := if anyLaunch s then setErr s faultPage 2 else setReg s faultPage off v

/-- FLT_STATE (R321). -/
def fltStateWord (s : State) : Nat :=
  bit s.flt.restart.isSome + 2 * ((s.flt.restart.map (·.ctx)).getD 0) + 32 * bit s.flt.draining + 64 * bit s.flt.replace

/-- The window of a unit in seconds (R311). -/
def winLength (u : Nat) : Nat := if u / 4096 = 6 then 600 else 86400

/-- FLT_WIN_INFO of a unit (R312, R321): the events in its window, and the seconds since the oldest of them. -/
def winInfo (s : State) (u : Nat) : Nat :=
  let es := (s.flt.events.filter (fun e => decide (e.1 = u) && decide (clockSec s ≤ e.2 + winLength u))).map (·.2)
  Nat.min 255 es.length + 256 * (match es with
    | [] => 0
    | t :: ts => Nat.min (2 ^ 24 - 1) (clockSec s - ts.foldl Nat.min t))

/-! ## Lending (R246) -/

/-- Whether a unit of a die is held in a tally wait in the die's beat. -/
def dieWaits (s : State) (d : Nat) : Bool :=
  (List.range 12).any (fun k => match (getH s (12 * d + k)).core.run with
    | .waiting _ _ => true
    | _ => false)

/-- Whether a die waits: one of its units does, or it is held under R182 behind a die that does (R182, R246). -/
def dieHeld (s : State) (d : Fin 4) : Bool :=
  dieWaits s d || (List.range 4).any (fun e => dieWaits s e && decide ((s.dies[e]?.getD 0) + 5 < s.dies[d]))

/-- LENDING (R246): the core domain of a waiting die falls to its floor, and the budget so freed is lent until the die goes on. How far
the memory-side domains rise within their limits is open (log entry 3). -/
def execLending (die : Fin 4) (s : State) : Host.Outcome State Fault Refusal :=
  .next (if getReg s tallyPage Reg.tlyLendThresh = 0 ∨ s.tly.lent.any (fun x => x.1 == die.val) ∨ dieHeld s die = false then s
    else
      let s := countReg s tallyPage Reg.tlyLendEvents 1
      let (n, s) := draw s
      let p := s.power
      let v := fun (i : Nat) => p.mv[i]?.getD 0
      let change := fun (i : Nat) =>
        if i = die.val then v i - (p.floor[i]?.getD 0)
        else if 4 ≤ i then (n / 1024 ^ (i - 4)) % (p.ceiling[i]?.getD 0 - v i + 1)
        else 0
      let ns := (List.range 8).map change
      let mv := (List.range 8).foldl (fun (w : Vector Nat 10) i =>
        w.setIfInBounds i (if i = die.val then v i - ns.getD i 0 else v i + ns.getD i 0)) p.mv
      { s with tly := { s.tly with lent := (die.val, ns) :: s.tly.lent }, power := { p with mv := mv } })

end Sys2Proof.Machine
end

