-- ==== Sys2Proof/Machine/Sessions.lean ====
section
/-!
DEFINITION. Machine/Sessions.lean: host and near sessions: opening, order, acknowledgement, credit, loss
(14_ports_and_transport.md, R343, R345–R350, R358; 12_integrity_and_faults.md, R314).
-/
namespace Sys2Proof.Machine

/-! ## Sequence numbers (R343) -/

/-- Whether SEQ a is below b in serial-number arithmetic (R343). -/
def seqBelow (a b : Nat) : Bool :=
  let d := (b + 2 ^ 32 - a % 2 ^ 32) % 2 ^ 32
  decide (1 ≤ d) && decide (d < 2 ^ 31)

/-- Whether ACK a and the SACK bitmap w name a SEQ q as received (R343, R345). -/
def seqAcked (q a : Nat) (w : Nat) : Bool :=
  let i := (q + 2 ^ 33 - a % 2 ^ 32 - 1) % 2 ^ 32
  seqBelow q a || (decide (i < 64) && w.testBit i)

/-! ## Ports -/

/-- A port. -/
def getPort (s : State) (p : Nat) : Port :=
  s.ports[p]?.getD { link := Vector.replicate 2 .down, split := false, retired := [], fallback := none, echoes := [], downSince := none }

/-- Replace a port. -/
def setPort (s : State) (p : Nat) (x : Port) : State := { s with ports := s.ports.setIfInBounds p x }

/-- The link of a port or half. -/
def linkOf (s : State) (p h : Nat) : Link := (getPort s p).link[h]?.getD .down

/-- Whether a half of a port carries traffic: half 1 only while the port is split (R338, R362). -/
def halfUsed (s : State) (p h : Nat) : Bool := h == 0 || (h == 1 && (getPort s p).split)

/-- Whether a port or half takes frames: its link is up and the port is not drained (R436). -/
def portUp (s : State) (p h : Nat) : Bool := halfUsed s p h && linkOf s p h == .up && !(getFlags s (portPage p)).drained

/-- The near port of an index 0–7, with its two halves. -/
def nearHalves : List (Nat × Nat) := (List.range 8).flatMap (fun i => [(2 + i, 0), (2 + i, 1)])

/-! ## Host sessions (R345, R358) -/

/-- Send an ACK message on a host session: the frames received so far; it takes no SEQ of its own (R345, log entry 39). -/
def hostAck (s : State) (x : HostSession) : State :=
  let sack := ((List.range 64).map (fun i => 2 ^ i * bit (x.rxSeen.contains ((x.rxNext + 1 + i) % 2 ^ 32)))).sum
  let m : OutMsg := { kind := 4, fields := [sack, x.rxNext], data := [] }
  countReg { s with outbox := s.outbox ++ [(.host x.session, x.txNext, m)] } (portPage x.port) Reg.portTxFrames 1

/-- The sink's acknowledgement of frames takes their events from the queue (R358). -/
def dropEvents (s : State) (session : Nat) (gone : Nat → Bool) : State :=
  { s with events := s.events.filter (fun e => match e.sentIn with
      | some (n, q) => !(n == session && gone q)
      | none => true) }

/-- Frames of a host session are acknowledged: they are forgotten, events leave the queue, and waiting frames follow (R345, R358). -/
def hostAcked (s : State) (session : Nat) (gone : Nat → Bool) : State :=
  match hostSess s session with
  | none => s
  | some x =>
    let s := setHostSess s { x with unacked := x.unacked.filter (fun u => !gone u.seq) }
    let s := hostDrain 256 (dropEvents s session gone) session
    if s.sink = some session then sendEvents s else s

/-- A host session ends or is lost: a sink that goes leaves its events, and ledger records not acknowledged, for the next one
(R345, R358, log entry 40). -/
def endHost (s : State) (session : Nat) : State :=
  match hostSess s session with
  | none => s
  | some x =>
    let s := { s with hostSessions := s.hostSessions.filter (fun y => y.session != session) }
    if s.sink = some session then
      let steps := ((x.unacked.map (·.msg)) ++ x.waiting).filterMap (fun m => if m.kind = kindLedgerExport then m.fields.head? else none)
      { s with sink := none, events := s.events.map (fun (e : Event) => { e with sentIn := none })
               ledger := { s.ledger with toExport := steps ++ s.ledger.toExport } }
    else s

/-- A host session is lost (R345, R363). -/
def loseHost (s : State) (session : Nat) : State :=
  match hostSess s session with
  | none => s
  | some x => endHost (setErr s (portPage x.port) 3) session

/-- A session becomes the event sink: every event not acknowledged is sent on it, and records that wait (R358, R361). -/
def makeSink (s : State) (session : Nat) : State :=
  let s := { s with sink := some session, events := s.events.map (fun (e : Event) => { e with sentIn := none }) }
  exportRecords (sendEvents s)

/-- Messages for the host that waited for a session leave on one (log entry 20). -/
def flushHeld (s : State) (session : Nat) : State :=
  s.hostHeld.foldl (fun s m => hostSend s session m) { s with hostHeld := [] }

/-- The n leading bits of two 128-bit addresses agree. -/
def prefixMatch (n : Nat) (a b : Nat) : Bool := decide (a / 2 ^ (128 - Nat.min n 128) = b / 2 ^ (128 - Nat.min n 128))

/-- Whether the host allow table admits an address (R346, R364). -/
def hostAllowed (s : State) (addr : Nat) : Bool :=
  (List.range 8).any (fun k =>
    let cfg := getReg s mgmtPage (Reg.vyvHostAllowCfg + 4 * k)
    let a := getReg s mgmtPage (Reg.vyvHostAllow + 16 * k) * 2 ^ 64 + getReg s mgmtPage (Reg.vyvHostAllowLo + 16 * k)
    cfg.testBit 8 && prefixMatch (cfg % 256) a addr)

/-- Send a CLOSE outside any session, refusing an OPEN (R345); its REASON is open (log entry 3). -/
def refuseOpen (s : State) (d : Dest) : State :=
  let (n, s) := draw s
  { s with outbox := s.outbox ++ [(d, 0, { kind := 3, fields := [n % 2 ^ 32], data := [] })] }

/-- An OPEN in host mode (R345, R346, R358). -/
def openHost (s : State) (m : SessHead) (events : Bool) : State :=
  let n := m.session.toNat
  if !portUp s m.port m.half || decide (2 ≤ m.port.val) || (getFlags s (portPage m.port)).draining then s
  else if !hostAllowed s m.addr.toNat then setErr s (portPage m.port) 5
  else match hostSess s n with
    | some x => if x.addr = m.addr.toNat then hostAck s x else refuseOpen s (.host n)
    | none =>
      if 8 ≤ s.hostSessions.length then refuseOpen s (.host n)
      else
        let q := (m.seq.toNat + 1) % 2 ^ 32
        let x : HostSession := { session := n, port := m.port, half := m.half, addr := m.addr.toNat, appNext := q, rxNext := q
                                 rxSeen := [], txNext := 0, unacked := [], waiting := [] }
        let s := hostPush { s with hostSessions := s.hostSessions ++ [x] } x { kind := 2, fields := [], data := [] }
        let s := if events then makeSink s n else s
        flushHeld s n

/-- The next message of a host session takes effect, or is a duplicate or one not yet received in order (R345). -/
def hostTurn (s : State) (session q : Nat) : Option State :=
  match hostSess s session with
  | none => none
  | some x =>
    if (q == x.appNext || seqBelow x.appNext q) && seqBelow q x.rxNext then
      some (setHostSess s { x with appNext := (q + 1) % 2 ^ 32 })
    else none

/-- HOST_RESEND_TIMEOUT (R345): the frame is resent with its SEQ and twice the timeout, or the session is lost. -/
def execHostResendTimeout (session : Nat) (seq : W32) (s : State) : Host.Outcome State Fault Refusal :=
  .next (match hostSess s session with
    | none => s
    | some x =>
      match x.unacked.find? (fun u => u.seq == seq.toNat) with
      | none => s
      | some u =>
        if Nat.max 1 (getReg s mgmtPage Reg.vyvHostRetries % 256) ≤ u.resends then loseHost s session
        else
          let again := fun (v : Unacked) => if v.seq = u.seq then { v with resends := v.resends + 1, timeout := 2 * v.timeout } else v
          let s := setHostSess s { x with unacked := x.unacked.map again }
          countReg { s with outbox := s.outbox ++ [(.host session, u.seq, u.msg)] } (portPage x.port) Reg.portTxFrames 1)

/-! ## Near sessions (R347–R350) -/

/-- VYV_PEER_PORTS of a peer entry (R364). -/
def peerCfg (s : State) (m : Nat) : Nat := getReg s (peerBank m) Reg.vyvPeerPorts

/-- Whether a peer entry is VALID. -/
def peerValid (s : State) (m : Nat) : Bool := (peerCfg s m).testBit 8

/-- The port or half a session to a peer is bound to: the lowest-numbered allowed one whose link is up (R347). -/
def nearEligible (s : State) (m : Nat) : Option (Nat × Nat) :=
  nearHalves.find? (fun x => (peerCfg s m).testBit (x.1 - 2) && portUp s x.1 x.2 && !(getFlags s (portPage x.1)).draining)

/-- A near session at its start. -/
def newNear (module session : Nat) (at_ : Nat × Nat) : NearSession :=
  { module := module, session := session, port := at_.1, half := at_.2, up := false, rxNext := 0, txNext := 0, unacked := [], waiting := []
    limit := 0, sent := 0, rxLimit := 2048, rxLimitSent := 2048, users := [] }

/-- The lower-indexed module opens the session to a peer on the lowest eligible port; the number it chooses is open (R347, log entry 3). -/
def openNear (s : State) (m : Nat) : State :=
  if !inSite s || m == selfModule s || decide (m < selfModule s) || !peerValid s m || (nearSess s m).isSome then s
  else match nearEligible s m with
    | none => s
    | some at_ =>
      let (n, s) := draw s
      let x := { newNear m (n % 2 ^ 32) at_ with txNext := 1, sent := 1 }
      countReg { s with nearSessions := s.nearSessions ++ [x], outbox := s.outbox ++ [(.peer m, 0, { kind := 1, fields := [], data := [] })] }
        (portPage at_.1) Reg.portTxFrames 1

/-- Open every near session that this module should open and that has a port (R347). -/
def openNears (s : State) : State := (List.range 256).foldl openNear s

/-- Signals of a near session that were not acknowledged (R245). -/
def lostSignals (x : NearSession) : Nat :=
  ((x.unacked.map (·.msg)) ++ x.waiting).countP (fun m => m.kind == 0x28 && m.fields.head? == some 0)

/-- Charge the loss of a session to the open seal, if the context that holds the seal used the session since it opened (R122, R348). -/
def chargeUsers (s : State) (users : List Nat) : State :=
  match users.find? (fun c => s.uc.owner.isNone || s.uc.owner == some c) with
  | some c => chargeSeal s (some c)
  | none => s

/-- Loss of a near session: its tally traffic, the seal, and the reopening by the lower-indexed module (R348). -/
def loseNear (s : State) (m : Nat) : State :=
  match nearSess s m with
  | none => s
  | some x =>
    let s := emit (setErr s (portPage x.port) 3) evSessionLost (portPage x.port) [BitVec.ofNat 8 m]
    let s := { s with nearSessions := s.nearSessions.filter (fun y => y.module != m) }
    let s := loseModule s m (lostSignals x)
    openNear (chargeUsers s x.users) m

/-- SESSION_LOST (R348): no frame within VYV_NEAR_TIMEOUT. -/
def execSessionLost (module : Fin 256) (s : State) : Host.Outcome State Fault Refusal := .next (loseNear s module)

/-- MEMBER_DRAINED (R314, R357): the session to a drained member is treated as lost. -/
def execMemberDrained (module : Fin 256) (s : State) : Host.Outcome State Fault Refusal :=
  .next (if nearUp s module then loseNear s module else s)

/-- An OPEN in near mode from a lower-indexed peer: it is answered OPEN_ACK; an earlier session to that peer is lost (R347, R350). -/
def openPeer (s : State) (m : SessHead) (p : Nat) : State :=
  let at_ := (m.port.val, m.half.val)
  if !inSite s || decide (selfModule s ≤ p) || !peerValid s p || decide (m.port.val < 2) || !(peerCfg s p).testBit (m.port.val - 2) ||
      !portUp s at_.1 at_.2 || (getFlags s (portPage at_.1)).draining then s
  else
    let s := loseNear s p
    let x := { newNear p m.session.toNat at_ with up := true, rxNext := (m.seq.toNat + 1) % 2 ^ 32, limit := m.credit.toNat, rxLimit := 2049 }
    nearPush { s with nearSessions := s.nearSessions ++ [x] } x { kind := 2, fields := [], data := [] }

/-- OPEN (R345–R347, R350). -/
def execOpen (m : SessHead) (events : Bool) (s : State) : Host.Outcome State Fault Refusal :=
  .next (match m.near with
    | none => openHost s m events
    | some p => openPeer s m p)

/-- OPEN_ACK (R347, R350): the near session this module opened is up, with the initial credit it grants. -/
def execOpenAck (m : SessHead) (s : State) : Host.Outcome State Fault Refusal :=
  .next (match m.near.bind (fun p => nearSess s p.val) with
    | some x =>
      if !x.up && x.session == m.session.toNat then
        nearDrain 256 (setNearSess s { x with up := true, limit := m.credit.toNat }) x.module
      else s
    | none => s)

/-- CLOSE (R351): the session ends; a near session closed after all its frames is not a lost one, and the lower-indexed module reopens
it (R436, log entry 41). -/
def execClose (m : SessHead) (_reason : W32) (s : State) : Host.Outcome State Fault Refusal :=
  .next (match m.near with
    | none => endHost s m.session.toNat
    | some p =>
      match nearSess s p.val with
      | some x =>
        if x.session = m.session.toNat then
          openNear { s with nearSessions := s.nearSessions.filter (fun y => y.module != p.val) } p
        else s
      | none => s)

/-- Send an ACK message on a near session; it costs no credit and waits for none (R350). -/
def nearAck (s : State) (x : NearSession) : State :=
  let m : OutMsg := { kind := 4, fields := [0, x.rxNext, x.rxLimit], data := [] }
  let s := setNearSess s { x with txNext := (x.txNext + 1) % 2 ^ 32, rxLimitSent := x.rxLimit }
  countReg { s with outbox := s.outbox ++ [(.peer x.module, x.txNext, m)] } (portPage x.port) Reg.portTxFrames 1

/-- NEAR_IDLE_ACK (R347). -/
def execNearIdleAck (module : Fin 256) (s : State) : Host.Outcome State Fault Refusal :=
  .next (match nearSess s module with
    | some x => if x.up then nearAck s x else s
    | none => s)

/-- CREDIT_ACK_TIMER (R350): a credit rise not sent for 2 µs is sent. -/
def execCreditAckTimer (module : Fin 256) (s : State) : Host.Outcome State Fault Refusal :=
  .next (match nearSess s module with
    | some x => if x.up && x.rxLimit != x.rxLimitSent then nearAck s x else s
    | none => s)

/-- ACK and CREDIT of a frame received on a near session (R343, R350). -/
def nearAcked (s : State) (x : NearSession) (a credit : Nat) : State :=
  nearDrain 256 (setNearSess s { x with unacked := x.unacked.filter (fun u => !seqBelow u.seq a), limit := credit }) x.module

/-- ACK (R345, R350): what it acknowledges is forgotten; SACK marks frames beyond ACK. -/
def execAck (m : SessHead) (sack : Word) (s : State) : Host.Outcome State Fault Refusal :=
  .next (match m.near with
    | none => hostAcked s m.session.toNat (fun q => seqAcked q m.ack.toNat sack.toNat)
    | some p =>
      match nearSess s p.val with
      | some x => if x.up then nearAcked s x m.ack.toNat m.credit.toNat else s
      | none => s)

/-! ## Sessions of a port -/

/-- The sessions on a port, or on one half of it, are lost (R338, R339, R345, R348). -/
def losePort (s : State) (p : Nat) (half : Option Nat) : State :=
  let on := fun (port h : Nat) => port == p && (half.isNone || half == some h)
  let hs := (s.hostSessions.filter (fun x => on x.port x.half)).map (·.session)
  let ns := (s.nearSessions.filter (fun x => on x.port x.half)).map (·.module)
  ns.foldl loseNear (hs.foldl loseHost s)

/-- Whether a port carries the traffic of a running launch: a session is bound to it while a launch runs (R339, R362). -/
def portInLaunch (s : State) (p : Nat) : Bool :=
  anyLaunch s && (s.hostSessions.any (fun x => x.port == p) || s.nearSessions.any (fun x => x.port == p))

end Sys2Proof.Machine
end

