-- ==== Sys2Proof/Machine/Ports.lean ====
section
/-!
DEFINITION. Machine/Ports.lean: lanes and links of the Ethernet ports, the filters of received frames, the replies of the ports, and
the bulk and merge messages (14_ports_and_transport.md, R337–R344, R352, R356, R362–R364).
-/
namespace Sys2Proof.Machine

/-! ## Links (R338, R339, R362) -/

/-- Set the link of a half. -/
def setLink (s : State) (p h : Nat) (l : Link) : State :=
  let x := getPort s p
  setPort s p { x with link := x.link.setIfInBounds h l }

/-- A port's link goes down: the time without link begins (R320, R362). -/
def noteDown (s : State) (p : Nat) : State :=
  let x := getPort s p
  if x.downSince.isSome then s else setPort s p { x with downSince := some (s.clockNs, portInLaunch s p) }

/-- A port's link is up again: the time without it counts, toward FLT_LOSS_NS too where the port carried a launch's traffic (R320, R339,
R362). -/
def noteUp (s : State) (p : Nat) : State :=
  let x := getPort s p
  match x.downSince with
  | none => s
  | some (t, carried) =>
    let s := setPort s p { x with downSince := none }
    let s := countReg s (portPage p) Reg.portDownNs (s.clockNs - t)
    if carried then addLoss s (s.clockNs - t) else s

/-- Whether retired lanes take a half of a split port, or the whole of an unsplit one, out of service (R339). -/
def outOfService (x : Port) (h : Nat) : Bool :=
  let bad := fun (k : Nat) => x.retired.any (fun l => decide (l / 4 = k))
  if x.split then bad h else bad 0 && bad 1

/-- The half an unsplit port falls back to (R339). -/
def fallbackOf (x : Port) : Option Nat :=
  let bad := fun (k : Nat) => x.retired.any (fun l => decide (l / 4 = k))
  if x.split then none else if bad 0 && !bad 1 then some 1 else if bad 1 && !bad 0 then some 0 else none

/-- A port takes the form its configuration and retired lanes give it: links train anew, or leave service (R338, R339). -/
def formPort (s : State) (p : Nat) (split : Bool) : State :=
  let x := { getPort s p with split := split }
  let link := fun (h : Nat) => if outOfService x h then Link.outOfService else if h = 0 ∨ split = true then Link.training else Link.down
  setPort s p { x with fallback := fallbackOf x, link := #v[link 0, link 1] }

/-- Emit PORT_OUT_OF_SERVICE (R339). -/
def portLeaves (s : State) (p h : Nat) : State :=
  emit (setErr s (portPage p) 1) evPortOutOfService (portPage p) [BitVec.ofNat 8 p, BitVec.ofNat 8 h]

/-- Retire a lane: recorded in the flash, its port falls back or leaves service, and the sessions that meet a change are lost (R339). -/
def retireLane (s : State) (p l : Nat) : State :=
  let x := getPort s p
  if x.retired.contains l then s
  else
    let y := { x with retired := x.retired ++ [l] }
    let s := { s with flash := { s.flash with lanes := s.flash.lanes ++ [(p, l)], writes := s.flash.writes + 1 } }
    let s := emit (setErr (setPort s p y) (portPage p) 0) evLaneRetired (portPage p) [BitVec.ofNat 8 p, BitVec.ofNat 8 l]
    let h := l / 4
    if x.split then
      if outOfService x h then s
      else losePort (portLeaves (setLink (noteDown s p) p h .outOfService) p h) p (some h)
    else if outOfService x 0 then s
    else if outOfService y 0 then losePort (portLeaves (setLink (noteDown s p) p 0 .outOfService) p 0) p none
    else if x.fallback.isSome then s
    else losePort (formPort (noteDown s p) p false) p none

/-- LANE_RETRAIN (R311, R339): counted in its window; the ninth event retires the lane, otherwise the link is down until it has
trained. -/
def execLaneRetrain (port : Fin 10) (lane : Fin 8) (s : State) : Host.Outcome State Fault Refusal :=
  let p := port.val
  let x := getPort s p
  let h := if x.split then lane.val / 4 else 0
  .next (if x.retired.contains lane.val || (!x.split && x.fallback == some (1 - lane.val / 4)) then s
    else
      let s := countReg s (portPage p) Reg.portRetrains 1
      let u := unitLane p lane
      let s := recordEvent s u
      let n := inWindowCount s u 600
      let s := faultCounted s u n 9
      if 9 ≤ n then retireLane s p lane
      else if linkOf s p h = .up then setLink (noteDown s p) p h .training
      else s)

/-- Whether a link may train: it is in use and neither up nor out of service, and its port is neither drained nor in loopback (R339,
R362). -/
def linkTrains (s : State) (p h : Nat) : Bool :=
  (linkOf s p h == .training || linkOf s p h == .down) && halfUsed s p h && !(getFlags s (portPage p)).drained &&
  !(getReg s (portPage p) Reg.portLoopback).testBit 0

/-- LINK_UP (R339, R347): a link that has trained comes up, and near sessions that waited for one are opened. -/
def execLinkUp (port : Fin 10) (half : Fin 2) (s : State) : Host.Outcome State Fault Refusal :=
  .next (if linkTrains s port half then
      openNears (noteUp (setLink s port half .up) port)
    else s)

/-- Keep the value of a register that the flash holds (R462). -/
def flashReg (s : State) (bank off v : Nat) : State :=
  let s := setReg s bank off v
  { s with flash := { s.flash with regs := sparseSet (regDefault bank off) s.flash.regs (regKey bank off) v, writes := s.flash.writes + 1 } }

/-- A write of PORT_CFG (R338, R362): refused while a launch uses the port; a change retrains the port in its new form. -/
def portCfg (s : State) (p v : Nat) : State :=
  let old := getReg s (portPage p) Reg.portCfg
  if portInLaunch s p then setErr s (portPage p) 4
  else if v % 4 = old then s
  else losePort (formPort (noteDown (flashReg s (portPage p) Reg.portCfg (v % 4)) p) p (v.testBit 0)) p none

/-- PORT_CFG_WRITE (R338). -/
def execPortCfgWrite (port : Fin 10) (value : W32) (s : State) : Host.Outcome State Fault Refusal :=
  .next (portCfg s port value.toNat)

/-- A write of PORT_LANE_RETIRE (R362). -/
def portLaneRetire (s : State) (p v : Nat) : State := if v.testBit 8 then retireLane s p (v % 8) else s

/-- PORT_LANE_RETIRE (R362). -/
def execPortLaneRetire (port : Fin 10) (value : W32) (s : State) : Host.Outcome State Fault Refusal :=
  .next (expertOnly s (portPage port) (fun s => portLaneRetire s port value.toNat))

/-- A write of PORT_LOOPBACK: the link is down to its partner while it is set (R362). -/
def portLoopback (s : State) (p v : Nat) : State :=
  let was := (getReg s (portPage p) Reg.portLoopback).testBit 0
  let s := setReg s (portPage p) Reg.portLoopback (v % 2)
  let x := getPort s p
  if v.testBit 0 then
    let down := fun (l : Link) => if l == .outOfService then l else .down
    let s := noteDown s p
    setPort s p { getPort s p with link := x.link.map down }
  else if was then formPort s p x.split
  else s

/-- PORT_LOOPBACK (R362). -/
def execPortLoopback (port : Fin 10) (value : W32) (s : State) : Host.Outcome State Fault Refusal :=
  .next (expertOnly s (portPage port) (fun s => portLoopback s port value.toNat))

/-- The code of a link in PORT_STATE (R362). -/
def linkCode : Link → Nat
  | .down => 0
  | .training => 1
  | .up => 2
  | .outOfService => 3

/-- The lanes of a port that are up. -/
def lanesUp (s : State) (p : Nat) : List Nat :=
  let x := getPort s p
  (List.range 8).filter (fun l =>
    !x.retired.contains l &&
    (if x.split then linkOf s p (l / 4) == .up
     else linkOf s p 0 == .up && (match x.fallback with
       | some h => l / 4 == h
       | none => true)))

/-- PORT_STATE (R362). -/
def portStateWord (s : State) (p : Nat) : Nat :=
  let x := getPort s p
  let mask := fun (ls : List Nat) => (ls.map (fun l => 2 ^ l)).sum
  linkCode (linkOf s p 0) + 4 * linkCode (linkOf s p 1) + 16 * bit x.split + 32 * bit x.fallback.isSome + 64 * (x.fallback.getD 0) +
    256 * mask x.retired + 65536 * mask (lanesUp s p)

/-- PORT_LANE_INFO of the selected lane (R362). -/
def portLaneInfo (s : State) (p : Nat) : Nat :=
  let l := getReg s (portPage p) Reg.portLaneSel % 8
  bit ((getPort s p).retired.contains l) + 2 * bit ((lanesUp s p).contains l) + 256 * Nat.min 255 (inWindowCount s (unitLane p l) 600)

/-! ## Frames received (R340, R342, R344) -/

/-- The per-half register of a port. -/
def halfReg (s : State) (p h off : Nat) : Nat := getReg s (portPage p) (off + 0x40 * h)

/-- The address of a port half: an IPv6 address, or an IPv4 address as ::ffff:a.b.c.d (R362). -/
def portAddr (s : State) (p h : Nat) : Nat := halfReg s p h Reg.portIp * 2 ^ 64 + halfReg s p h Reg.portIpLo

/-- Whether a 128-bit address stands for an IPv4 one. -/
def isV4 (a : Nat) : Bool := decide (a / 2 ^ 32 = 0xFFFF)

/-- The VLAN tag a port half accepts (R340, R362). -/
def vlanOk (s : State) (p h : Nat) (tag : Option (BitVec 12)) : Bool :=
  let v := halfReg s p h Reg.portVlan
  match tag with
  | none => !v.testBit 15
  | some t => v.testBit 15 && v % 4096 == t.toNat

/-- Whether the protocol filters of R340 let a frame pass. -/
def protocolOk (s : State) (p h : Nat) (f : RxFrame) : Bool :=
  match f.kind with
  | .arp => isV4 (portAddr s p h)
  | .nd => !isV4 (portAddr s p h) && f.ipPlain
  | .echo => f.ipPlain
  | .ptp => decide (p < 2) && (getReg s (portPage p) Reg.portPtp).testBit 9
  | .vyvex => f.ipPlain && f.udpGood && f.udpPort.toNat == getReg s mgmtPage Reg.vyvUdpPort % 65536
  | .other => false

/-- Whether a frame passes the filters of R340. -/
def frameOk (s : State) (p h : Nat) (f : RxFrame) : Bool :=
  decide (64 ≤ f.len) && decide (f.len ≤ getReg s (portPage p) Reg.portMaxFrame) && !f.pause &&
  (f.destOwn || (f.broadcast && f.kind == .arp)) && vlanOk s p h f.vlan && protocolOk s p h f

/-- A big-endian field of a message header (R342). -/
def headField (h : List Byte) (off n : Nat) : Nat := natOfBE ((h.drop off).take n)

/-- The modes a message kind is received in: 0 host, 1 near, 2 far (R351). -/
def kindModes (k : Nat) : List Nat :=
  if [0x01, 0x02, 0x03, 0x04, 0x18, 0x19, 0x1A, 0x1B, 0x28].contains k then [0, 1]
  else if [0x10, 0x11, 0x12, 0x20, 0x21, 0x30, 0x38, 0x39].contains k then [0]
  else if [0x40, 0x41, 0x42].contains k then [1]
  else if 0x50 ≤ k ∧ k < 0x60 then [2]
  else []

/-- Whether a Vyvex header meets R342 and R351 for a payload of n bytes. -/
def headerGood (h : List Byte) (n : Nat) : Bool :=
  let v := headField h 0 1
  let mode := v / 4 % 4
  h.length == 40 && v / 16 == 1 && v % 4 == 0 && (kindModes (headField h 1 1)).contains mode && decide (headField h 2 2 < 8) &&
  headField h 4 2 == n && decide (n ≤ 9106) && decide (headField h 6 1 < 16) && headField h 7 1 == 0 && headField h 0x16 2 == 0 &&
  headField h 0x24 4 == 0

/-- A host frame passes to its session: its acknowledgement is taken, its SEQ is received, repeated or beyond the next, and it is
acknowledged (R345). An ACK message takes no SEQ. -/
def hostFrame (s : State) (session kind seq a : Nat) : State :=
  let s := hostAcked s session (fun q => seqBelow q a)
  match hostSess s session with
  | none => s
  | some x =>
    if kind = 4 then s
    else
      let x := if seq = x.rxNext then
          let seen := x.rxSeen
          let run := ((List.range 256).takeWhile (fun i => seen.contains ((seq + 1 + i) % 2 ^ 32))).length
          let nxt := (seq + 1 + run) % 2 ^ 32
          { x with rxNext := nxt, rxSeen := seen.filter (fun q => seqBelow nxt q) }
        else if seqBelow x.rxNext seq && decide ((seq + 2 ^ 32 - x.rxNext) % 2 ^ 32 < 256) && !x.rxSeen.contains seq then
          { x with rxSeen := x.rxSeen ++ [seq] }
        else x
      hostAck (setHostSess s x) x

/-- A near frame passes to its session: a gap loses the session; otherwise its SEQ, acknowledgement and credit are taken, its units are
freed, and a rise of 64 units is sent at once (R343, R348, R350). -/
def nearFrame (s : State) (x : NearSession) (kind seq a credit len : Nat) : State :=
  if seq ≠ x.rxNext then loseNear s x.module
  else
    let units := if kind = 4 then 0 else ceilDiv (40 + len) 256
    let x := { x with rxNext := (seq + 1) % 2 ^ 32, rxLimit := (x.rxLimit + units) % 2 ^ 16 }
    let s := nearAcked (setNearSess s x) x a (if kind = 2 ∨ x.up = true then credit else x.limit)
    match nearSess s x.module with
    | some y => if y.up && decide (64 ≤ (y.rxLimit + 2 ^ 16 - y.rxLimitSent) % 2 ^ 16) then nearAck s y else s
    | none => s

/-- The near session of a number on a port. -/
def nearByNumber (s : State) (p h n : Nat) : Option NearSession :=
  s.nearSessions.find? (fun x => x.port == p && x.half == h && x.session == n)

/-- A Vyvex message that has passed the filters (R342–R345, R348). -/
def vyvexFrame (s : State) (p h : Nat) (f : RxFrame) : State :=
  let d := f.header
  let len := f.payload.length
  if !headerGood d len then countReg s mgmtPage Reg.vyvDropped 1
  else
    let mode := headField d 0 1 / 4 % 4
    let session := headField d 8 4
    let near := nearByNumber s p h session
    if crc32c f.payload ≠ headField d 0x20 4 then
      let s := setErr (countReg s (portPage p) Reg.portPchkErrors 1) (portPage p) 2
      match mode, near with
      | 1, some x => loseNear s x.module
      | _, _ => s
    else
      let s := if f.residueGood then s else residueFailure s (unitGate (if p = 1 ∨ 6 ≤ p then 1 else 0)) none
      let kind := headField d 1 1
      let seq := headField d 0x0C 4
      let a := headField d 0x10 4
      if mode = 0 then hostFrame s session kind seq a
      else if mode = 1 then
        match near with
        | some x => if kind = 1 then s else nearFrame s x kind seq a (headField d 0x14 2) len
        | none => s
      else s

/-- FRAME_RECEIVE (R340, R342–R345, R348). -/
def execFrameReceive (port : Fin 10) (half : Fin 2) (frame : RxFrame) (s : State) : Host.Outcome State Fault Refusal :=
  let page := portPage port
  .next (if !portUp s port half then s
    else
      let s := countReg s page Reg.portRxFrames 1
      if !frame.fcsGood then countReg s page Reg.portFcsErrors 1
      else if !frameOk s port half frame then countReg s page Reg.portRxDropped 1
      else if frame.kind = .vyvex then vyvexFrame s port half frame
      else s)

/-! ## Replies of the ports (R340) -/

/-- Send a reply on the wire of a port half. kind numbers the model's own: 0xF0 ARP, 0xF1 neighbour advertisement, 0xF2 echo. -/
def wireReply (s : State) (p h kind : Nat) (fields : List Nat) : State :=
  countReg { s with outbox := s.outbox ++ [(.wire p h, 0, { kind := kind, fields := fields, data := [] })] } (portPage p) Reg.portTxFrames 1

/-- A neighbour's question for an address is answered when it is the port's own: with its address and MAC (R340). -/
def neighbourReply (s : State) (p h kind ip : Nat) (v4 : Bool) : State :=
  if portUp s p h && ip == portAddr s p h && isV4 ip == v4 then wireReply s p h kind [ip, halfReg s p h Reg.portMac] else s

/-- ARP_REQUEST (R340). -/
def execArpRequest (port : Fin 10) (half : Fin 2) (ip : BitVec 128) (s : State) : Host.Outcome State Fault Refusal :=
  .next (neighbourReply s port half 0xF0 ip.toNat true)

/-- NEIGHBOUR_SOLICITATION (R340). -/
def execNeighbourSolicitation (port : Fin 10) (half : Fin 2) (ip : BitVec 128) (s : State) : Host.Outcome State Fault Refusal :=
  .next (neighbourReply s port half 0xF1 ip.toNat false)

/-- ICMP_ECHO (R340): at most 100 replies in a second of the module clock. -/
def execIcmpEcho (port : Fin 10) (half : Fin 2) (s : State) : Host.Outcome State Fault Refusal :=
  let x := getPort s port
  let now := (half.val, clockSec s)
  let mine := x.echoes.filter (fun e => e.2 == clockSec s)
  .next (if portUp s port half && decide (mine.countP (fun e => e.1 == half.val) < 100) then
      wireReply (setPort s port { x with echoes := mine ++ [now] }) port half 0xF2 []
    else s)

/-! ## Bulk messages (R352) -/

/-- Data bytes of a frame: 8,192, or the largest multiple of 64 that PORT_MAX_FRAME leaves after the frame's headers and n bytes of
fields (R352). -/
def dataLimit (s : State) (p h n : Nat) : Nat :=
  let tag := if (halfReg s p h Reg.portVlan).testBit 15 then 4 else 0
  let head := 14 + tag + (if isV4 (portAddr s p h) then 20 else 40) + 8 + 40 + n + 4
  Nat.min 8192 ((getReg s (portPage p) Reg.portMaxFrame - head) / 64 * 64)

/-- Cut bytes into pieces of n, at most k of them, each with its offset. -/
def pieces (n : Nat) : Nat → Nat → List Byte → List (Nat × List Byte)
  | 0, _, _ => []
  | k + 1, off, bs => if bs.length ≤ n then [(off, bs)] else (off, bs.take n) :: pieces n k (off + n) (bs.drop n)

/-- A message is applied: of a host session in SEQ order, of a near session that is up, whose use is noted for no context. -/
def turn (s : State) (m : SessHead) : Option State :=
  match m.near with
  | none => hostTurn s m.session.toNat m.seq.toNat
  | some p => if nearUp s p then some s else none

/-- Reply on the session of a message. -/
def replyTo (s : State) (m : SessHead) (o : OutMsg) : State :=
  match m.near with
  | none => hostSend s m.session.toNat o
  | some p => match nearSess s p.val with
    | some x => if x.up then nearPush s x o else s
    | none => s

/-- The requester behind a session. -/
def sessRq (m : SessHead) : Requester :=
  match m.near with
  | none => .host
  | some p => .peer p

/-- BULK_READ (R352). -/
def bulkRead (s : State) (m : SessHead) (a n tag : Nat) : State :=
  if n < 64 ∨ 2 ^ 24 < n ∨ n % 64 ≠ 0 ∨ bulkRangeOk s a n = false then
    replyTo s m { kind := 0x1A, fields := [tag, 0, 1], data := [] }
  else
    let k := Nat.max 64 (dataLimit s m.port m.half 12)
    let ps := pieces k (n / 64) 0 (memRead s.mem a n)
    let s := ps.foldl (fun s x => replyTo s m { kind := 0x1A, fields := [tag, x.1, 0, bit (x.1 + x.2.length == n)], data := x.2 }) s
    let s := readErrors s a n
    if deviceRangeOk a n && poisoned s a n then requesterFailure s (sessRq m) a else s

/-- BULK_READ (R352). -/
def execBulkRead (m : SessHead) (addr : Word) (len tag : W32) (s : State) : Host.Outcome State Fault Refusal :=
  .next (match turn s m with
    | some s => bulkRead s m addr.toNat len.toNat tag.toNat
    | none => s)

/-- Source number of the signals of a session's bulk writes (R237). -/
def bulkAgent (m : SessHead) : Nat :=
  match m.near with
  | none => agentOf 3 1
  | some p => agentPeer p

/-- BULK_WRITE (R125, R237, R352). -/
def bulkWrite (s : State) (m : SessHead) (a : Nat) (bs : List Byte) (vid : Option (BitVec 12)) (tag : Nat) (bad : List Nat) : State :=
  let n := bs.length
  if n < 64 ∨ 8192 < n ∨ n % 64 ≠ 0 ∨ bulkRangeOk s a n = false then
    replyTo s m { kind := 0x1B, fields := [tag, 1], data := [] }
  else
    let norm := match m.near with
      | some p => if isNormSlot s p a n then some p.val else none
      | none => none
    let fails := !bad.isEmpty || (deviceRangeOk a n && (injectedWrite s a n).1)
    let s := match norm with
      | some p => normArrive s p a bs
      | none => checkedWrite s (sessRq m) a bs bad
    let s := match vid with
      | some v => sendSignal s none (bulkAgent m) m.ctx v.toNat 1 0
      | none => s
    replyTo s m { kind := 0x1B, fields := [tag, if fails then 2 else 0], data := [] }

/-- BULK_WRITE (R352). -/
def execBulkWrite (m : SessHead) (addr : Word) (data : List Byte) (vid : Option (BitVec 12)) (tag : W32) (badWords : List Nat) (s : State) :
    Host.Outcome State Fault Refusal :=
  .next (match turn s m with
    | some s => bulkWrite s m addr.toNat data vid tag.toNat badWords
    | none => s)

/-- BULK_DATA (R352): read data reaches the requester, the management core. -/
def execBulkData (m : SessHead) (tag offset status : W32) (data : List Byte) (last : Bool) (s : State) : Host.Outcome State Fault Refusal :=
  .next (match turn s m with
    | some s => { s with answer := bytesLE 4 tag.toNat ++ bytesLE 4 offset.toNat ++ bytesLE 4 status.toNat ++ [BitVec.ofNat 8 (bit last)] ++ data }
    | none => s)

/-- BULK_DONE (R352): the completion of a write this module made reaches its requester. -/
def execBulkDone (m : SessHead) (tag status : W32) (s : State) : Host.Outcome State Fault Refusal :=
  .next (match turn s m with
    | some s => { s with answer := bytesLE 4 tag.toNat ++ bytesLE 4 status.toNat }
    | none => s)

/-! ## Merges from other modules (R309, R356) -/

/-- MERGE (R356). -/
def merge (s : State) (m : MsgHead) (p dst tally : Nat) (slots : List (BitVec 128)) : State :=
  let lh := bits dst 21 16
  let s := noteUser s p m.ctx
  if !(ctxMask s m.ctx).testBit lh then tallyErr s 0 m.ctx (tally % 4096) p 0 0
  else
    let rule := attemptRule s (some p) m.step.toNat m.attempt.toNat
    let inDomain := (domainOthers s).contains p && decide (m.step.toNat = s.uc.step.toNat)
    let x : MergeMsg :=
      { dstLh := Fin.ofNat 48 lh, dstFrame := Fin.ofNat 3 (bits dst 1 0), dstRow := bits dst 14 8
        slots := ((slots.take 128).zipIdx.map (fun b => (b.2, unpackSlot b.1.toNat))).filter (fun b => b.2.occupied)
        tally := if tally.testBit 15 then some (tally % 4096) else none, ctx := m.ctx, from_ := some p
        attempt := if inDomain then some m.attempt.toNat else none }
    match rule with
    | .drop => countReg s faultPage Reg.fltStaleDrops 1
    | _ => { s with merges := s.merges ++ [x] }

/-- MERGE (R356), over a near session that is up. -/
def execMerge (m : MsgHead) (dst tally : W32) (slots : List (BitVec 128)) (s : State) : Host.Outcome State Fault Refusal :=
  .next (match m.sender with
    | some p => if nearUp s p then merge s m p dst.toNat tally.toNat slots else s
    | none => s)

/-! ## Configuration registers (R362, R364) -/

/-- Whether an offset of a PORT page is a register of a half, and which. -/
def halfOfReg (off : Nat) : Option Nat := if 0x80 ≤ off ∧ off < 0xC0 then some 0 else if 0xC0 ≤ off ∧ off < 0x100 then some 1 else none

/-- A write to a configuration register of a port other than PORT_CFG (R362). -/
def portConfig (s : State) (p off v : Nat) : State :=
  let refused := setErr s (portPage p) 4
  match halfOfReg off with
  | some h => if linkOf s p h = .up then refused else flashReg s (portPage p) off v
  | none =>
    if off = Reg.portMaxFrame then (if v < 1518 ∨ 9216 < v then refused else flashReg s (portPage p) off v)
    else if off = Reg.portPtp then (if p < 2 then flashReg s (portPage p) off v else s)
    else setReg s (portPage p) off v

/-- Whether any session is up (R364). -/
def anySession (s : State) : Bool := !s.hostSessions.isEmpty || s.nearSessions.any (·.up)

/-- VYV_SESSIONS (R364). -/
def vyvSessionsWord (s : State) : Nat :=
  s.hostSessions.length % 16 + 16 * (s.nearSessions.countP (·.up) % 512) + 8192 * bit s.sink.isSome

/-- The peer entry VYV_PEER_SEL selects (R364). -/
def peerSel (s : State) : Nat := getReg s mgmtPage Reg.vyvPeerSel % 256

/-- VYV_PEER_PORTS of the selected peer (R364). -/
def peerPortsWord (s : State) : Nat :=
  peerCfg s (peerSel s) % 512 + (match nearSess s (peerSel s) with
    | some x => 4096 * x.port + 65536 * x.half + 131072 * bit x.up
    | none => 0)

/-- A write to a peer entry (R364): refused while its session is up. -/
def peerWrite (s : State) (off v : Nat) : State :=
  let m := peerSel s
  if nearUp s m then setErr s (portPage 0) 4
  else openNear (flashReg s (peerBank m) off (if off = Reg.vyvPeerPorts then v % 512 else v)) m

end Sys2Proof.Machine
end

