-- ==== Sys2Proof/Machine/Secure.lean ====
section
/-!
DEFINITION. Machine/Secure.lean: identity, firmware slots, reports, trust anchors and site chains, entropy
(16_security.md, R404–R417, R421–R423).
-/
namespace Sys2Proof.Machine

/-! ## Status and entropy (R406, R422) -/

/-- Apply a function to the secure engine. -/
def modSec (s : State) (f : Secure → Secure) : State := { s with sec := f s.sec }

/-- An operation ends with a code: 0 done, otherwise refused with REFUSED (R422, R423). -/
def secCode (s : State) (code : Nat) : State :=
  setErrIf (code != 0) (modSec s (fun x => { x with state := if code = 0 then 2 else 3, code := code })) securePage 0

/-- Draw n bytes of entropy (R406, log entry 3). -/
def entropy (n : Nat) (s : State) : List Byte × State :=
  ((List.range n).map (fun i => Config.entropyByte (s.sec.entropyUsed + i)), modSec s (fun x => { x with entropyUsed := x.entropyUsed + n }))

/-- ENTROPY (R406): a health test fails. -/
def execEntropy (s : State) : Host.Outcome State Fault Refusal :=
  .next (setErr (countReg (modSec s (fun x => { x with entropyOk := false })) securePage Reg.secEntropyFails 1) securePage 1)

/-- ENTROPY_OK (R406): the source passes again. -/
def execEntropyOk (s : State) : Host.Outcome State Fault Refusal := .next (modSec s (fun x => { x with entropyOk := true }))

/-! ## Firmware images (R407–R412) -/

/-- A firmware image that meets R408, or the code of the first check that fails (R422). len is the staged length. -/
def fwVerify (sec : Secure) (bs : List Byte) : Except Nat FwSlot :=
  let svn := fieldN bs 8 4
  let key := fieldN bs 0x0C 4
  let n := fieldN bs 0x10 8
  let m := bs.take 0x1C0 ++ (bs.drop 0x400).take n
  if fieldN bs 0 4 ≠ 0x5EC00716 ∨ fieldN bs 4 4 ≠ 1 ∨ 64 < svn ∨ 4 ≤ key ∨ n = 0 ∨ 2 ^ 26 - 1024 < n ∨ bs.length ≠ 0x400 + n ∨
      !((bs.drop 0x18).take 0x28).all (· == 0) ∨ !((bs.drop 0x340).take 0xC0).all (· == 0) then .error 2
  else if !sec.programmed.contains key ∨ sec.revoked.contains key ∨ sha256 ((bs.drop 0x40).take 384) ≠ Config.fwKeyHash key then .error 5
  else if !Config.verify ((bs.drop 0x40).take 384) m ((bs.drop 0x1C0).take 384) then .error 3
  else if svn < sec.svnFuses then .error 4
  else .ok { svn := svn, keySlot := key, hash := sha256 m, order := 0 }

/-- Whether the image a slot holds still verifies: its key is programmed and not revoked, and its SVN meets the counter (R408). -/
def slotValid (sec : Secure) (f : FwSlot) : Bool :=
  sec.programmed.contains f.keySlot && !sec.revoked.contains f.keySlot && decide (sec.svnFuses ≤ f.svn)

/-- The valid image of a slot. -/
def validSlot (sec : Secure) (i : Nat) : Option FwSlot := ((sec.slots[i]?).join).filter (slotValid sec)

/-- The slot the boot ROM starts: the verified image of the higher SVN, the one staged later of two of one SVN (R409). -/
def bootChoice (sec : Secure) : Option (Nat × FwSlot) :=
  match validSlot sec 0, validSlot sec 1 with
  | some a, some b => if a.svn < b.svn ∨ (a.svn = b.svn ∧ a.order < b.order) then some (1, b) else some (0, a)
  | some a, none => some (0, a)
  | none, some b => some (1, b)
  | none, none => none

/-- A request of the secure engine begins, or is refused with BUSY (R414). -/
def secBegin (s : State) (op : SecOp) : State :=
  if s.sec.op.isSome then secCode s 1 else modSec s (fun x => { x with op := some op, state := 1, code := 0 })

/-- FW_STAGE (R411). -/
def execFwStage (s : State) : Host.Outcome State Fault Refusal := .next (secBegin s .fwStage)

/-- The end of a firmware stage (R411): the image is verified and written into the other slot; a flash that fails leaves that slot without a
valid image. -/
def fwStageDone (s : State) (flashOk : Bool) : State :=
  let a := getReg s securePage Reg.secStageAddr
  let n := getReg s securePage Reg.secStageLen
  let other := 1 - s.sec.boot
  if !deviceRangeOk a n then secCode s 9
  else match fwVerify s.sec (memRead s.mem a n) with
    | .error c => secCode s c
    | .ok f =>
      let order := (s.sec.slots.toList.map (fun x => (x.map (·.order)).getD 0)).foldl Nat.max 0 + 1
      let put := fun (v : Option FwSlot) => modSec { s with flash := { s.flash with writes := s.flash.writes + 1 } }
        (fun x => { x with slots := x.slots.setIfInBounds other v })
      if flashOk then secCode (put (some { f with order := order })) 0 else secCode (put none) 10

/-- A write of SEC_SVN_COMMIT (R410); a fuse that fails leaves the counter short. -/
def svnCommit (s : State) (v : Nat) (fuseOk : Bool) : State :=
  if v % 256 ≠ s.sec.running.svn then secCode s 4
  else if fuseOk then secCode (modSec s (fun x => { x with svnFuses := Nat.max x.svnFuses x.running.svn })) 0
  else secCode (setErr s securePage 3) 11

/-- SEC_SVN_COMMIT (R410). -/
def execSecSvnCommit (value : W32) (fuseOk : Bool) (s : State) : Host.Outcome State Fault Refusal :=
  .next (expertOnly s securePage (fun s => svnCommit s value.toNat fuseOk))

/-- A write of SEC_KEY_REVOKE (R412). -/
def keyRevoke (s : State) (v : Nat) (fuseOk : Bool) : State :=
  let k := v % 4
  let left := s.sec.programmed.filter (fun i => !s.sec.revoked.contains i)
  if !v.testBit 8 then s
  else if k = s.sec.running.keySlot ∨ left = [k] then secCode s 5
  else if fuseOk then secCode (modSec s (fun x => { x with revoked := if x.revoked.contains k then x.revoked else x.revoked ++ [k] })) 0
  else secCode (setErr s securePage 3) 11

/-- SEC_KEY_REVOKE (R412). -/
def execSecKeyRevoke (value : W32) (fuseOk : Bool) (s : State) : Host.Outcome State Fault Refusal :=
  .next (expertOnly s securePage (fun s => keyRevoke s value.toNat fuseOk))

/-! ## Chains and anchors (R416, R417) -/

/-- The public modulus of the module's device key. -/
def ownModulus (s : State) : List Byte := Config.modulus s.part.serial

/-- DEVICE_ID (R405). -/
def deviceId (s : State) : Nat := natOfBE ((sha256 (padTo 384 (ownModulus s))).take 8)

/-- The site index, RMB_CFG.SELF. -/
def selfSite (s : State) : Nat := getReg s (ramblerPage 0) Reg.rmbCfg % 16

/-- Whether a far session exists (R417). -/
def farSessionExists (s : State) : Bool := s.rmb.peers.toList.any (·.session.isSome)

/-- Whether validity periods are checked now (R417). -/
def timeChecked (s : State) : Bool := s.sc.sync == .locked && (s.sc.src == 1 || s.sc.src == 2 || s.sc.src == 3)

/-- Check a validity period against the site count; a check not made is counted (R417). -/
def timeCheck (s : State) (nb na : Nat) : State × Bool :=
  if timeChecked s then (s, decide (nb ≤ s.sc.count + 60000000000) && decide (s.sc.count ≤ na + 60000000000))
  else (countReg s securePage Reg.secTimeSkips 1, true)

/-- Whether a chain's path ends at one of the anchors (R416). -/
def pathOk (s : State) (chain : List Byte) : Bool :=
  decide (chain.length ≤ 4096) && s.sec.anchors.any (fun a => Config.chainPath chain a.2)

/-- Install the staged site chain (R417). -/
def sitecertInstall (s : State) : State :=
  let a := getReg s securePage Reg.secStageAddr
  let n := getReg s securePage Reg.secStageLen
  let chain := memRead s.mem a n
  if farSessionExists s then secCode s 1
  else if !deviceRangeOk a n then secCode s 9
  else if n = 0 ∨ 4096 < n then secCode s 2
  else match Config.chainSays chain with
    | none => secCode s 6
    | some (key, _, site, nb, na) =>
      if key ≠ ownModulus s then secCode s 7
      else if site ≠ selfSite s ∨ !pathOk s chain then secCode s 6
      else
        let (s, ok) := timeCheck s nb na
        if !ok then secCode s 8
        else secCode (modSec { s with flash := { s.flash with writes := s.flash.writes + 1 } } (fun x => { x with chain := chain })) 0

/-- SITECERT_INSTALL (R417). -/
def execSitecertInstall (s : State) : Host.Outcome State Fault Refusal := .next (expertOnly s securePage sitecertInstall)

/-- Erase the site chain (R417). -/
def sitecertErase (s : State) : State :=
  if farSessionExists s then secCode s 1
  else secCode (modSec { s with flash := { s.flash with writes := s.flash.writes + 1 } } (fun x => { x with chain := [] })) 0

/-- SITECERT_ERASE (R417). -/
def execSitecertErase (s : State) : Host.Outcome State Fault Refusal := .next (expertOnly s securePage sitecertErase)

/-- Install the staged anchor, the modulus of an RSA-3072 key, into a slot (R416, R417). -/
def anchorInstall (s : State) (slot : Nat) : State :=
  let a := getReg s securePage Reg.secStageAddr
  let n := getReg s securePage Reg.secStageLen
  if farSessionExists s then secCode s 1
  else if !deviceRangeOk a n then secCode s 9
  else if n ≠ 384 then secCode s 2
  else
    let put := fun (x : Secure) => { x with anchors := (slot, memRead s.mem a n) :: x.anchors.filter (fun y => y.1 != slot) }
    secCode (modSec { s with flash := { s.flash with writes := s.flash.writes + 1 } } put) 0

/-- ANCHOR_INSTALL (R417). -/
def execAnchorInstall (slot : Fin 4) (s : State) : Host.Outcome State Fault Refusal :=
  .next (expertOnly s securePage (fun s => anchorInstall s slot))

/-- Erase an anchor (R417). -/
def anchorErase (s : State) (slot : Nat) : State :=
  if farSessionExists s then secCode s 1
  else secCode (modSec { s with flash := { s.flash with writes := s.flash.writes + 1 } }
    (fun x => { x with anchors := x.anchors.filter (fun y => y.1 != slot) })) 0

/-- ANCHOR_ERASE (R417). -/
def execAnchorErase (slot : Fin 4) (s : State) : Host.Outcome State Fault Refusal :=
  .next (expertOnly s securePage (fun s => anchorErase s slot))

/-- A write of SEC_TRUST_CTRL: its operations in bit order (R421). -/
def trustCtrl (s : State) (v : Nat) : State :=
  let slot := bits v 5 4
  let s := if v.testBit 0 then sitecertInstall s else s
  let s := if v.testBit 1 then sitecertErase s else s
  let s := if v.testBit 2 then anchorInstall s slot else s
  if v.testBit 3 then anchorErase s slot else s

/-- SEC_ANCHOR_HASHk: 32 bytes, zero when the slot is empty (R416, R421). -/
def anchorHash (s : State) (k : Nat) : List Byte :=
  match s.sec.anchors.find? (fun a => a.1 == k) with
  | some a => sha256 a.2
  | none => List.replicate 32 0

/-! ## Reports (R413–R415) -/

/-- A register's bytes. -/
def regBytes (s : State) (bank off n : Nat) : List Byte := bytesLE n (getReg s bank off)

/-- The configuration bytes of a PORT page (R413). -/
def portConfigBytes (s : State) (p : Nat) : List Byte :=
  let b := portPage p
  let half := fun (h : Nat) =>
    regBytes s b (Reg.portMac + 0x40 * h) 8 ++ regBytes s b (Reg.portVlan + 0x40 * h) 4 ++ regBytes s b (Reg.portIp + 0x40 * h) 8 ++
    regBytes s b (Reg.portIpLo + 0x40 * h) 8 ++ regBytes s b (Reg.portGw + 0x40 * h) 8 ++ regBytes s b (Reg.portGwLo + 0x40 * h) 8 ++
    regBytes s b (Reg.portPrefix + 0x40 * h) 4
  regBytes s b Reg.portCfg 4 ++ regBytes s b Reg.portMaxFrame 4 ++ regBytes s b Reg.portPtp 4 ++ half 0 ++ half 1

/-- The bytes CONFIG_HASH covers, in page order (R413). -/
def configBytes (s : State) : List Byte :=
  let m := mgmtPage
  let r := ramblerPage 0
  (List.range 10).flatMap (portConfigBytes s) ++ regBytes s m Reg.vyvSelf 4 ++ regBytes s m Reg.vyvUdpPort 4 ++
  (List.range 256).flatMap (fun k => regBytes s (peerBank k) Reg.vyvPeerAddr 8 ++ regBytes s (peerBank k) (Reg.vyvPeerAddr + 8) 8 ++
    regBytes s (peerBank k) Reg.vyvPeerPorts 4) ++
  (List.range 8).flatMap (fun k => regBytes s m (Reg.vyvHostAllow + 16 * k) 8 ++ regBytes s m (Reg.vyvHostAllowLo + 16 * k) 8 ++
    regBytes s m (Reg.vyvHostAllowCfg + 4 * k) 4) ++
  regBytes s r Reg.rmbCfg 4 ++ regBytes s r Reg.rmbH 4 ++ (List.range 16).flatMap (fun k => regBytes s r (Reg.rmbMember + 4 * k) 4) ++
  (List.range 64).flatMap (fun k => regBytes s (routeBank 0 (k / 4) (k % 4)) Reg.rmbRouteAddr 8 ++
    regBytes s (routeBank 0 (k / 4) (k % 4)) (Reg.rmbRouteAddr + 8) 8 ++ regBytes s (routeBank 0 (k / 4) (k % 4)) Reg.rmbRouteCfg 4) ++
  (if s.sec.chain.isEmpty then List.replicate 32 0 else sha256 s.sec.chain) ++ (List.range 4).flatMap (anchorHash s)

/-- The entry of a context in a report (R415). -/
def contextEntry (s : State) (c : Nat) : List Byte :=
  let x := getCtx s c
  match x.image with
  | none => List.replicate 0x48 0
  | some im =>
    padTo 0x48 (bytesLE 2 im.handle ++ [if ctxRuns x then 2 else 1] ++ List.replicate 5 0 ++ padTo 32 im.hash ++ padTo 32 im.patchHash)

/-- IDENT of a report (R415). -/
def identWord (s : State) : Nat :=
  bit s.part.gradeB40 + 2 * bit s.part.steppingB0 + 256 * s.sec.svnFuses + 65536 * s.sec.running.svn + 2 ^ 24 * s.sec.boot

/-- The bytes of a report its signature covers (R415). -/
def reportHead (s : State) : List Byte :=
  let sec := s.sec
  let nonce := (List.range 4).flatMap (fun i => regBytes s securePage (Reg.secNonce + 8 * i) 8)
  let flags := bit s.flt.replace + 2 * bit (getFlags s mgmtPage).debug + 4 * bit (s.pages.any (fun p => p.2.unlocked)) +
    8 * bit ((getReg s (ramblerPage 0) Reg.rmbCfg).testBit 5) + 16 * bit (!sec.chain.isEmpty)
  padTo 0x100 (bytesLE 4 0xA77E0716 ++ bytesLE 4 1 ++ bytesLE 8 (deviceId s) ++
    bytesLE 4 (identWord s) ++
    bytesLE 4 flags ++ bytesLE 8 s.sc.count ++ nonce ++ padTo 32 sec.running.hash ++ sha256 (configBytes s) ++
    bytesLE 8 ((s.part.hampersOn.map (fun h => 2 ^ h)).sum)) ++
  (List.range 16).flatMap (contextEntry s)

/-- Number of the device key among the signing keys of Config. -/
def deviceKey (s : State) : Nat := s.part.serial

/-- The bytes a report request writes (R414, R415). -/
def reportBytes (s : State) (cert : Bool) : List Byte :=
  let h := reportHead s
  h ++ padTo 384 (Config.sign (deviceKey s) h) ++ (if cert then Config.deviceCert s.part.serial ++ s.sec.chain else [])

/-- REPORT (R414): a report begins, or is refused with BUSY. -/
def execReport (cert : Bool) (s : State) : Host.Outcome State Fault Refusal := .next (secBegin s (.report cert))

/-- The end of a report (R414): written at SEC_REPORT_ADDR. -/
def reportDone (s : State) (cert : Bool) : State :=
  let a := getReg s securePage Reg.secReportAddr
  let bs := reportBytes s cert
  if a % 4096 ≠ 0 ∨ lpRangeOk a bs.length = false then secCode s 9
  else secCode (modSec (storeBytes s a bs) (fun x => { x with outLen := bs.length })) 0

/-- SECURE_COMMAND_DONE (R411, R414): the operation in progress ends; a report waits while the entropy source is down (R406). -/
def execSecureCommandDone (flashOk : Bool) (s : State) : Host.Outcome State Fault Refusal :=
  let t := modSec s (fun x => { x with op := none })
  .next (match s.sec.op with
    | some (.report cert) => if s.sec.entropyOk then reportDone t cert else s
    | some .fwStage => fwStageDone t flashOk
    | none => s)

/-- A write of SEC_CTRL (R421). -/
def secCtrl (s : State) (v : Nat) : State :=
  let s := if v.testBit 0 then secBegin s (.report (v.testBit 1)) else s
  if v.testBit 2 then secBegin s .fwStage else s

/-! ## Views (R421) -/

/-- SEC_STATE. -/
def secStateWord (s : State) : Nat :=
  s.sec.boot + 2 * bit s.sec.entropyOk + 4 * bit (match s.sec.op with
    | some (.report _) => true
    | _ => false) + 8 * bit (s.sec.op == some .fwStage) + 16 * bit (!s.sec.chain.isEmpty)

/-- SEC_SVN. -/
def secSvnWord (s : State) : Nat :=
  s.sec.svnFuses + 256 * s.sec.running.svn + 65536 * ((validSlot s.sec (1 - s.sec.boot)).map (·.svn)).getD 0xFF

/-- SEC_KEYSLOTS. -/
def secKeyslots (s : State) : Nat :=
  (s.sec.programmed.map (fun k => 2 ^ k)).sum + 16 * (s.sec.revoked.map (fun k => 2 ^ k)).sum + 256 * s.sec.running.keySlot

/-- SEC_STATUS. -/
def secStatusWord (s : State) : Nat := s.sec.state + 16 * s.sec.code

end Sys2Proof.Machine
end

