-- ==== Sys2Proof/Machine/FarLink.lean ====
section
/-!
DEFINITION. Machine/FarLink.lean: the far sessions of an exchange group: members and routes, handshakes, keys and epochs, encrypted messages,
the recovery of lost shards (15_far_exchange.md, R366–R367, R379–R388, R396; 16_security.md, R418–R420).
-/
namespace Sys2Proof.Machine

/-! ## Members and routes (R366, R367) -/

/-- The page of the rambler of I0, which leads (R368). -/
def leadPage : Nat := ramblerPage 0

/-- Apply a function to the exchange state. -/
def modRmb (s : State) (f : Rmb → Rmb) : State := { s with rmb := f s.rmb }

/-- A peer. -/
def getPeer (s : State) (j : Nat) : FarPeer := s.rmb.peers[j]?.getD .none_

/-- Apply a function to a peer. -/
def modPeer (s : State) (j : Nat) (f : FarPeer → FarPeer) : State :=
  modRmb s (fun r => { r with peers := r.peers.setIfInBounds j (f (getPeer s j)) })

/-- RMB_MEMBERj. -/
def memberReg (s : State) (j : Nat) : Nat := getReg s leadPage (Reg.rmbMember + 4 * j)

/-- Whether site j belongs to the group. -/
def memberValid (s : State) (j : Nat) : Bool := (memberReg s j).testBit 31

/-- The first round of site j. -/
def firstRound (s : State) (j : Nat) : Nat := memberReg s j % 2 ^ 31

/-- The contributors of a round, in ascending order (R366). -/
def contributors (s : State) (r : Nat) : List Nat := (List.range 16).filter (fun j => memberValid s j && decide (firstRound s j ≤ r))

/-- The other members of the group. -/
def farPeers (s : State) : List Nat := (List.range 16).filter (fun j => memberValid s j && j != selfSite s)

/-- CRC-32C of the member table (R366). -/
def tableCrc (s : State) : Nat := crc32c ((List.range 16).flatMap (fun j => bytesLE 4 (memberReg s j)))

/-- RMB_ROUTE_CFG of a route. -/
def routeCfg (s : State) (j r : Nat) : Nat := getReg s (routeBank 0 j r) Reg.rmbRouteCfg

/-- The routes of a peer that are configured. -/
def validRoutes (s : State) (j : Nat) : List Nat := (List.range 4).filter (fun r => (routeCfg s j r).testBit 2)

/-- The routes of a peer that are up, in route order (R367, R381). -/
def upRoutes (s : State) (j : Nat) : List Nat := (validRoutes s j).filter (fun r => (getPeer s j).routes.any (fun x => x.1 == r))

/-- Whether a peer is reachable: a route is up, and its member table is this one's (R366, R367). -/
def reachable (s : State) (j : Nat) : Bool := (getPeer s j).tableOk && !(upRoutes s j).isEmpty

/-- The wide port of a route, which names the I/O die whose rambler encrypts on it (R367, R368). -/
def routePort (s : State) (j r : Nat) : Nat := bits (routeCfg s j r) 1 1

/-- The half of a route's port. -/
def routeHalf (s : State) (j r : Nat) : Nat := bits (routeCfg s j r) 0 0

/-! ## Sending (R385) -/

/-- Big-endian bytes of a number. -/
def bytesBE (n v : Nat) : List Byte := (bytesLE n v).reverse

/-- Put a far-mode frame on a route: session and SEQ, then the bytes after the header. -/
def farFrame (s : State) (j r kind session seq : Nat) (body : List Byte) : State :=
  let m : OutMsg := { kind := kind, fields := [session, selfSite s, j], data := body }
  countReg { s with outbox := s.outbox ++ [(.far j r, seq, m)] } (portPage (routePort s j r)) Reg.portTxFrames 1

/-- The header of an encrypted message with PCHK taken as zero, then its clear prefix: the associated data (R342, R385). -/
def farAad (s : State) (j kind session seq epoch n : Nat) : List Byte :=
  padTo 40 ([0x18, BitVec.ofNat 8 kind, 0, 0] ++ bytesBE 2 (n + 32) ++ [0, 0] ++ bytesBE 4 session ++ bytesBE 4 seq) ++
  bytesBE 4 epoch ++ [BitVec.ofNat 8 (selfSite s), BitVec.ofNat 8 j] ++ List.replicate 10 0

/-- The nonce of an encrypted message (R385). -/
def farNonce (s : State) (seq epoch : Nat) : List Byte :=
  [BitVec.ofNat 8 (selfSite s), 0] ++ bytesBE 4 epoch ++ bytesBE 6 seq

/-- Encrypt and send under a key: the counter is taken at the moment of encryption and never used again (R385, R387). -/
def farSendUnder (s : State) (j r kind epoch : Nat) (key inner : List Byte) : State :=
  match (getPeer s j).session with
  | none => s
  | some session =>
    let c := s.rmb.count
    let aad := farAad s j kind session c epoch inner.length
    let ct := Config.gcmSeal key (farNonce s c epoch) aad inner
    let s := modRmb s (fun x => { x with count := c + 1, epochNs := x.epochNs.orElse (fun _ => some s.clockNs) })
    let s := countReg s (ramblerPage (routePort s j r)) Reg.rmbShardsTx 1
    farFrame s j r kind session c (aad.drop 40 ++ ct)

/-- Encrypt and send under the transmit epoch, while it has a key and counter values left (R387, R406). -/
def farSend (s : State) (j r kind : Nat) (inner : List Byte) : State :=
  match s.rmb.key with
  | some key => if s.rmb.count < 2 ^ 28 then farSendUnder s j r kind s.rmb.epoch key inner else s
  | none => s

/-- Send on the first route of a peer that is up. -/
def farSendAny (s : State) (j kind : Nat) (inner : List Byte) : State :=
  match upRoutes s j with
  | r :: _ => farSend s j r kind inner
  | [] => s

/-! ## Messages and shards (R379–R382, R386) -/

/-- RMB_SHARD_LEN. -/
def shardLen (s : State) : Nat := Nat.max 64 (getReg s leadPage Reg.rmbShardLen)

/-- The parity shards of an initial send (R379). -/
def parity0 (s : State) : Nat := Nat.min 16 (bits (getReg s leadPage Reg.rmbCfg) 10 6)

/-- The data shards of a message. -/
def dataShards (m : FarMsg) : List (List Byte) := (List.range m.k).map (fun i => padTo m.l ((m.data.drop (i * m.l)).take m.l))

/-- The inner bytes of a shard (R386). -/
def shardInner (m : FarMsg) (index : Nat) (bs : List Byte) : List Byte :=
  [BitVec.ofNat 8 m.stream, BitVec.ofNat 8 index, BitVec.ofNat 8 m.k, BitVec.ofNat 8 m.origin] ++ bytesBE 4 m.round ++ bytesBE 4 m.msg ++
  List.replicate 4 0 ++ bytesBE 8 m.off ++ bytesBE 8 m.total ++ bs

/-- Send a shard of a message on the route its number gives (R381). -/
def sendShard (m : FarMsg) (s : State) (index : Nat) : State :=
  let us := upRoutes s m.site
  let t := if index < 32 then index else m.k + (index - 32)
  let bs := if index < 32 then (dataShards m).getD index [] else parityShard m.l (dataShards m) (index - 32)
  farSend s m.site (us.getD (t % Nat.max 1 us.length) 0) 0x54 (shardInner m index bs)

/-- Whether anything may be sent to a peer: it is reachable over a session (R396). -/
def canSend (s : State) (j : Nat) : Bool := reachable s j && (getPeer s j).session.isSome

/-- The initial send of a message: its data shards and p0 parity shards (R379). -/
def issueMsg (s : State) (m : FarMsg) : State :=
  if canSend s m.site then
    ((List.range m.k) ++ (List.range (parity0 s)).map (· + 32)).foldl (sendShard m) s
  else s

/-- Replace an outgoing message. -/
def setOut (s : State) (m : FarMsg) : State :=
  modRmb s (fun x => { x with out := x.out.map (fun o => if o.site = m.site ∧ o.msg = m.msg then m else o) })

/-- Cut a body into messages of at most 32 shards and send them to a peer; n bounds the messages (R379). -/
def sendBody (s : State) (j stream origin round : Nat) (body : List Byte) : Nat → Nat → State
  | 0, _ => s
  | n + 1, off =>
    let l := shardLen s
    let d := (body.drop off).take (32 * l)
    let m : FarMsg :=
      { site := j, msg := s.rmb.nextMsg, stream := stream, origin := origin, round := round, off := off, total := body.length, l := l
        k := Nat.max 1 (ceilDiv d.length l), data := d, parity := parity0 s }
    let s := modRmb s (fun x => { x with nextMsg := (x.nextMsg + 1) % 2 ^ 32, out := x.out ++ [m] })
    let s := issueMsg s m
    if body.length ≤ off + 32 * l then s else sendBody s j stream origin round body n (off + 32 * l)

/-- Send a body to a peer. -/
def sendBodyTo (s : State) (j stream origin round : Nat) (body : List Byte) : State :=
  sendBody s j stream origin round body (body.length / 2048 + 1) 0

/-- Re-issue a message under a new number (R382). -/
def reissue (s : State) (m : FarMsg) : State :=
  let n := { m with msg := s.rmb.nextMsg, parity := parity0 s }
  let s := modRmb s (fun x => { x with nextMsg := (x.nextMsg + 1) % 2 ^ 32
                                       out := x.out.map (fun o => if o.site = m.site ∧ o.msg = m.msg then n else o) })
  issueMsg (countReg s leadPage Reg.rmbReissues 1) n

/-- Re-issue every unacknowledged message of a peer (R382, R420). -/
def reissueAll (s : State) (j : Nat) : State := (s.rmb.out.filter (fun m => m.site == j)).foldl reissue s

/-- Send up to n unsent parity shards of a message; one that has none left is re-issued (R382). -/
def moreParity (s : State) (m : FarMsg) (n : Nat) : State :=
  if !canSend s m.site then s
  else if 16 ≤ m.parity then reissue s m
  else
    let k := Nat.min n (16 - m.parity)
    let s := ((List.range k).map (fun i => 32 + m.parity + i)).foldl (sendShard m) s
    countReg (setOut s { m with parity := m.parity + k }) leadPage Reg.rmbParitySent k

/-- An outgoing message. -/
def outMsg (s : State) (j msg : Nat) : Option FarMsg := s.rmb.out.find? (fun m => m.site == j && m.msg == msg)

/-- RESEND_TIMER (R382): two unsent parity shards. -/
def execResendTimer (site : Fin 16) (msg : Word) (s : State) : Host.Outcome State Fault Refusal :=
  .next (match outMsg s site msg.toNat with
    | some m => moreParity s m 2
    | none => s)

/-! ## Accepting (R388) -/

/-- An authentic message came over a route: the route is up, and a peer that becomes reachable is sent its unacknowledged messages again
(R367, R382). -/
def routeSeen (s : State) (j r : Nat) : State :=
  let was := reachable s j
  let s := modPeer s j (fun p => { p with routes := (r, s.clockNs) :: p.routes.filter (fun x => x.1 != r) })
  if !was && reachable s j then reissueAll s j else s

/-- Check an encrypted message: none where it is rejected, with the state that counts the cause (R388). -/
def accept (s : State) (m : FarHead) : State × Bool :=
  let j := m.site.val
  let p := getPeer s j
  let page := ramblerPage (routePort s j m.route)
  let e := m.epoch.toNat
  let c := m.counter.toNat
  if p.session ≠ some m.session.toNat then (countReg s page Reg.rmbKeyUnknown 1, false)
  else match p.keys.find? (fun k => k.epoch == e) with
    | none =>
      if p.keys.any (fun k => decide (e < k.epoch)) then (countReg s page Reg.rmbStaleEpoch 1, false)
      else (countReg s page Reg.rmbKeyUnknown 1, false)
    | some k =>
      if !m.good then (setErr (countReg s page Reg.rmbAuthFails 1) page 3, false)
      else if k.seen.contains c || decide (c + 4096 < k.high) then (countReg s page Reg.rmbReplayed 1, false)
      else
        let high := Nat.max k.high c
        let k' := { k with high := high, seen := c :: k.seen.filter (fun x => decide (high ≤ x + 4096)) }
        let newer := p.keys.any (fun x => decide (x.epoch < e))
        let s := modPeer s j (fun p => { p with keys := p.keys.map (fun x => if x.epoch = e then k' else x)
                                                newer := if newer then p.newer.orElse (fun _ => some s.clockNs) else p.newer })
        (routeSeen (countReg s page Reg.rmbShardsRx 1) j m.route, true)

/-- Apply the effect of an encrypted message that is accepted. -/
def onAccept (s : State) (m : FarHead) (f : State → State) : State :=
  let r := accept s m
  if r.2 then f r.1 else r.1

/-- KEY_ERASE (R388): 120 s after a newer epoch was first accepted, the older keys are erased. -/
def execKeyErase (site : Fin 16) (s : State) : Host.Outcome State Fault Refusal :=
  .next (match (getPeer s site).newer with
    | some t =>
      if t + 120000000000 ≤ s.clockNs then
        let top := ((getPeer s site).keys.map (·.epoch)).foldl Nat.max 0
        modPeer s site (fun p => { p with keys := p.keys.filter (fun k => k.epoch == top), newer := none })
      else s
    | none => s)

/-- ROUTE_TIMEOUT (R367): a route over which nothing authentic came for three heartbeat intervals goes down. -/
def execRouteTimeout (site : Fin 16) (route : Fin 4) (s : State) : Host.Outcome State Fault Refusal :=
  let hb := Nat.max 1 (getReg s leadPage Reg.rmbTimers % 256)
  .next (match (getPeer s site).routes.find? (fun x => x.1 == route.val) with
    | some (_, t) =>
      if t + 3 * hb * 1000000 ≤ s.clockNs then modPeer s site (fun p => { p with routes := p.routes.filter (fun x => x.1 != route.val) }) else s
    | none => s)

/-! ## Recovery (R382, R384) -/

/-- RECEIPT (R384): the message is decoded at the peer. -/
def execReceipt (m : FarHead) (msg : Word) (s : State) : Host.Outcome State Fault Refusal :=
  .next (onAccept s m (fun s => modRmb s (fun x => { x with out := x.out.filter (fun o => !(o.site == m.site.val && o.msg == msg.toNat)) })))

/-- NEED (R382): k − h + 1 unsent parity shards; one that names no outgoing message is ignored. -/
def execNeed (m : FarHead) (msg : Word) (held : Nat) (s : State) : Host.Outcome State Fault Refusal :=
  .next (onAccept s m (fun s => match outMsg s m.site msg.toNat with
    | some o => moreParity s o (o.k - held + 1)
    | none => s))

/-- Send RECEIPT for a message. -/
def sendReceipt (s : State) (j r stream origin msg : Nat) : State :=
  farSend s j r 0x55 ([BitVec.ofNat 8 stream, BitVec.ofNat 8 origin] ++ bytesBE 4 msg)

/-- Send NEED for a message of which h shards are held. -/
def sendNeed (s : State) (j msg h : Nat) : State := farSendAny s j 0x56 (bytesBE 4 msg ++ [BitVec.ofNat 8 h])

/-- NEED_TIMER (R382): for a message of which some shards but fewer than k are held. -/
def execNeedTimer (site : Fin 16) (msg : Word) (s : State) : Host.Outcome State Fault Refusal :=
  .next (match s.rmb.ins.find? (fun m => m.site == site.val && m.msg == msg.toNat) with
    | some m => if !m.decoded && !m.shards.isEmpty then sendNeed s site m.msg m.shards.length else s
    | none => s)

/-! ## Handshakes (R416, R418, R419) -/

/-- A handshake message that fails its checks is dropped and counted (R419). -/
def handshakeFail (s : State) : State := setErr (countReg s securePage Reg.secHandshakeFails 1) securePage 2

/-- The group and public key of the own site chain. -/
def ownGroup (s : State) : Option Nat := (Config.chainSays s.sec.chain).map (fun x => x.2.1)

/-- Check a peer's chain: its path, its period, and that its URI names the group and the site; its public key (R416, R417, R419). -/
def peerChain (s : State) (j group : Nat) (chain : List Byte) : State × Option (List Byte) :=
  match Config.chainSays chain with
  | none => (s, none)
  | some (key, g, site, nb, na) =>
    let (s, ok) := timeCheck s nb na
    (s, if ok && pathOk s chain && g == group && site == j && ownGroup s == some group then some key else none)

/-- The transcript hash (R419). -/
def transcript (session initiator responder group : Nat) (na nb chainI chainR : List Byte) : List Byte :=
  sha256 (bytesBE 4 session ++ [BitVec.ofNat 8 initiator, BitVec.ofNat 8 responder] ++ bytesBE 8 group ++ na ++ nb ++ sha256 chainI ++
    sha256 chainR)

/-- The fields of a FAR_HELLO or FAR_HELLO_ACK (R418). -/
def helloBody (self j group : Nat) (random echo sig chain : List Byte) : List Byte :=
  [BitVec.ofNat 8 self, BitVec.ofNat 8 j] ++ bytesBE 2 chain.length ++ List.replicate 4 0 ++ bytesBE 8 group ++ padTo 32 random ++
  padTo 32 echo ++ padTo 384 sig ++ chain

/-- FAR_HELLO to one peer, on its routes in turn (R418); the session number is open (log entry 3). -/
def sendHello (s : State) (j : Nat) : State :=
  let us := upRoutes s j
  let rs := if us.isEmpty then validRoutes s j else us
  match rs, ownGroup s with
  | [], _ => s
  | _, none => s
  | _, some g =>
    let (n, s) := draw s
    let (na, s) := entropy 32 s
    let k := (getPeer s j).turn
    let s := modPeer s j (fun p => { p with hello := some (n % 2 ^ 32, na), turn := k + 1 })
    farFrame s j (rs.getD (k % rs.length) 0) 0x50 (n % 2 ^ 32) 0 (helloBody (selfSite s) j g na [] [] s.sec.chain)

/-- FAR_HELLO_TIMER (R418): to every VALID peer of a higher index without a session, while the entropy source delivers (R406). -/
def execFarHelloTimer (s : State) : Host.Outcome State Fault Refusal :=
  .next (if s.sec.entropyOk then
      ((farPeers s).filter (fun j => decide (selfSite s < j) && (getPeer s j).session.isNone)).foldl sendHello s
    else s)

/-- FAR_HELLO (R418, R419): checked, and answered at most four times per peer and second. -/
def farHello (s : State) (m : FarHead) (b : List Byte) : State :=
  let j := m.site.val
  let f := fun (off n : Nat) => natOfBE ((b.drop off).take n)
  let group := f 8 8
  let chain := b.drop 0x1D0
  let now := clockSec s
  let seen := (getPeer s j).hellos
  if seen.1 = now ∧ 4 ≤ seen.2 then s
  else
    let (s, key) := peerChain s j group chain
    match key with
    | none => handshakeFail s
    | some key =>
      if f 0 1 ≠ j ∨ f 1 1 ≠ selfSite s ∨ memberValid s j = false ∨ f 2 2 ≠ chain.length then handshakeFail s
      else
        let (nb, s) := entropy 32 s
        let na := (b.drop 0x10).take 32
        let t := transcript m.session.toNat j (selfSite s) group na nb chain s.sec.chain
        let s := modPeer s j (fun p => { p with pending := some { session := m.session.toNat, hash := t, peerKey := key, initiator := false }
                                                hellos := (now, if seen.1 = now then seen.2 + 1 else 1) })
        farFrame s j m.route 0x51 m.session.toNat 0 (helloBody (selfSite s) j group nb na (Config.sign (deviceKey s) t) s.sec.chain)

/-- FAR_HELLO (R419); while the entropy source is down no handshake is answered (R406). -/
def execFarHello (m : FarHead) (body : List Byte) (s : State) : Host.Outcome State Fault Refusal :=
  .next (if s.sec.entropyOk then farHello s m body else s)

/-! ## Keys (R384, R387, R419, R420) -/

/-- A far session ends and its keys are erased (R420). -/
def endFar (s : State) (j : Nat) : State := modPeer s j (fun p => { p with session := none, trans := none, keys := [], newer := none, acked := [], ackSeen := [] })

/-- Draw the key of the transmit epoch if there is none and the source delivers (R387, R406). -/
def ensureKey (s : State) : State :=
  if s.rmb.key.isSome || !s.sec.entropyOk then s
  else
    let (k, s) := entropy 32 s
    modRmb s (fun x => { x with key := some k })

/-- Send KEY for an epoch to a peer (R384, R419). -/
def sendKey (s : State) (j epoch : Nat) (key : List Byte) : State :=
  match (getPeer s j).trans with
  | none => s
  | some t =>
    let w := padTo 384 (Config.wrap t.peerKey key)
    let sig := padTo 384 (Config.sign (deviceKey s) (sha256 (t.hash ++ bytesBE 4 epoch ++ w)))
    let us := upRoutes s j
    let rs := if us.isEmpty then validRoutes s j else us
    match rs with
    | r :: _ => farFrame s j r 0x52 t.session 0 (bytesBE 4 epoch ++ w ++ sig)
    | [] => s

/-- Send KEY for the transmit epoch to a peer. -/
def sendOwnKey (s : State) (j : Nat) : State :=
  let s := ensureKey s
  match s.rmb.key with
  | some k => sendKey s j s.rmb.epoch k
  | none => s

/-- A session is established from a handshake: an earlier one ends, and unacknowledged messages are issued again under the new one (R420). -/
def establish (s : State) (j : Nat) (t : FarTrans) : State :=
  let s := modPeer (endFar s j) j (fun p => { p with session := some t.session, trans := some t, pending := none, hello := none })
  reissueAll s j

/-- FAR_HELLO_ACK (R419): checked with its signature over the transcript, and answered with KEY. -/
def farHelloAck (s : State) (m : FarHead) (b : List Byte) : State :=
  let j := m.site.val
  let f := fun (off n : Nat) => natOfBE ((b.drop off).take n)
  let group := f 8 8
  let chain := b.drop 0x1D0
  match (getPeer s j).hello with
  | none => handshakeFail s
  | some (session, na) =>
    let (s, key) := peerChain s j group chain
    match key with
    | none => handshakeFail s
    | some key =>
      let nb := (b.drop 0x10).take 32
      let t := transcript session (selfSite s) j group na nb s.sec.chain chain
      if session ≠ m.session.toNat ∨ f 0 1 ≠ j ∨ f 1 1 ≠ selfSite s ∨ memberValid s j = false ∨ f 2 2 ≠ chain.length ∨
          (b.drop 0x30).take 32 ≠ na ∨ Config.verify key t ((b.drop 0x50).take 384) = false then handshakeFail s
      else sendOwnKey (establish s j { session := session, hash := t, peerKey := key, initiator := true }) j

/-- FAR_HELLO_ACK (R419). -/
def execFarHelloAck (m : FarHead) (body : List Byte) (s : State) : Host.Outcome State Fault Refusal := .next (farHelloAck s m body)

/-- A KEY is discarded with KEY_TRANSPORT (R403, R420). -/
def keyTransport (s : State) : State := setErr s leadPage 9

/-- Acknowledge a KEY, under the epoch acknowledged (R384). -/
def sendKeyAck (s : State) (j r epoch : Nat) (key : List Byte) : State := farSendUnder s j r 0x53 epoch key (bytesBE 4 epoch)

/-- The key a KEY message carries under a handshake, if its signature verifies and it unwraps (R419). -/
def openKey (s : State) (t : FarTrans) (b : List Byte) : Option (List Byte) :=
  let w := (b.drop 4).take 384
  if Config.verify t.peerKey (sha256 (t.hash ++ b.take 4 ++ w)) ((b.drop 388).take 384) then Config.unwrap (deviceKey s) w else none

/-- Hold a new key of a peer. -/
def holdKey (s : State) (j epoch : Nat) (key b : List Byte) : State :=
  modPeer s j (fun p => { p with keys := { epoch := epoch, key := key, wrapped := b, high := 0, seen := [] } :: p.keys })

/-- KEY (R419, R420). -/
def keyMsg (s : State) (m : FarHead) (b : List Byte) : State :=
  let j := m.site.val
  let p := getPeer s j
  let e := natOfBE (b.take 4)
  let n := m.session.toNat
  let top := (p.keys.map (·.epoch)).foldl Nat.max 0
  if p.pending.any (fun t => t.session == n) && e == 0 then
    match p.pending with
    | some t => match openKey s t b with
      | some k =>
        let s := holdKey (establish s j t) j 0 k b
        sendOwnKey (sendKeyAck s j m.route 0 k) j
      | none => keyTransport s
    | none => s
  else if p.session ≠ some n then s
  else match p.keys.find? (fun k => k.epoch == e), p.trans with
    | some k, _ => if k.wrapped = b then sendKeyAck s j m.route e k.key else keyTransport s
    | none, some t =>
      if e = (if p.keys.isEmpty then 0 else top + 1) then
        match openKey s t b with
        | some k => sendKeyAck (holdKey s j e k b) j m.route e k
        | none => keyTransport s
      else s
    | none, none => s

/-- KEY (R420). -/
def execKey (m : FarHead) (body : List Byte) (s : State) : Host.Outcome State Fault Refusal := .next (keyMsg s m body)

/-- KEY_ACK (R384, R387): encrypted under the epoch it acknowledges, the module's own; its counter is held against the window of R388. -/
def execKeyAck (m : FarHead) (epoch : W32) (s : State) : Host.Outcome State Fault Refusal :=
  let j := m.site.val
  let p := getPeer s j
  let e := epoch.toNat
  let c := m.counter.toNat
  let high := ((p.ackSeen.filter (fun x => x.1 == e)).map (·.2)).foldl Nat.max 0
  let page := ramblerPage (routePort s j m.route)
  let own := (s.rmb.key.isSome && e == s.rmb.epoch) || (s.rmb.nextKey.isSome && e == s.rmb.epoch + 1)
  .next (if p.session ≠ some m.session.toNat ∨ own = false then countReg s page Reg.rmbKeyUnknown 1
    else if !m.good then setErr (countReg s page Reg.rmbAuthFails 1) page 3
    else if p.ackSeen.contains (e, c) || decide (c + 4096 < high) then countReg s page Reg.rmbReplayed 1
    else
      let s := modPeer (countReg s page Reg.rmbShardsRx 1) j (fun p =>
        { p with acked := if p.acked.contains e then p.acked else e :: p.acked
                 ackSeen := (e, c) :: p.ackSeen.filter (fun x => x.1 != e || decide (Nat.max high c ≤ x.2 + 4096)) })
      routeSeen s j m.route)

/-- FAR_CLOSE (R420): the session ends. -/
def execFarClose (m : FarHead) (s : State) : Host.Outcome State Fault Refusal := .next (onAccept s m (fun s => endFar s m.site))

/-! ## Epochs (R387) -/

/-- The peers with which a session exists. -/
def sessionPeers (s : State) : List Nat := (farPeers s).filter (fun j => (getPeer s j).session.isSome)

/-- Whether the transmit epoch has reached a number of counter values or of seconds. -/
def epochReached (s : State) (values secs : Nat) : Bool :=
  s.rmb.key.isSome && (decide (values ≤ s.rmb.count) || s.rmb.epochNs.any (fun t => decide (t + secs * 1000000000 ≤ s.clockNs)))

/-- REKEY_THRESHOLD (R387): the next epoch's key is drawn and sent to every peer; with no entropy it waits (R406). -/
def execRekeyThreshold (s : State) : Host.Outcome State Fault Refusal :=
  .next (if epochReached s (2 ^ 28 - 2 ^ 24) 3540 && s.rmb.nextKey.isNone && s.sec.entropyOk then
      let (k, s) := entropy 32 s
      let s := modRmb s (fun x => { x with nextKey := some k })
      (sessionPeers s).foldl (fun s j => sendKey s j (s.rmb.epoch + 1) k) s
    else s)

/-- The sender switches to the next epoch. -/
def nextEpoch (s : State) : State :=
  modRmb s (fun x => { x with epoch := (x.epoch + 1) % 2 ^ 32, count := 0, key := x.nextKey, nextKey := none, epochNs := none })

/-- EPOCH_END (R387). -/
def execEpochEnd (s : State) : Host.Outcome State Fault Refusal := .next (if epochReached s (2 ^ 28) 3600 then nextEpoch s else s)

/-- KEY_REPEAT (R387): to every peer that has not acknowledged; an epoch that waits for entropy takes its key when there is some (R406). -/
def execKeyRepeat (s : State) : Host.Outcome State Fault Refusal :=
  let s := if (sessionPeers s).isEmpty then s else ensureKey s
  .next ((sessionPeers s).foldl (fun s j =>
    let acked := (getPeer s j).acked
    let s := match s.rmb.key with
      | some k => if acked.contains s.rmb.epoch then s else sendKey s j s.rmb.epoch k
      | none => s
    match s.rmb.nextKey with
    | some k => if acked.contains (s.rmb.epoch + 1) then s else sendKey s j (s.rmb.epoch + 1) k
    | none => s) s)

/-- A write of RMB_REKEY (R387). -/
def rmbRekey (s : State) (v : Nat) : State :=
  if !v.testBit 0 then s
  else
    let s := ensureKey (nextEpoch s)
    (sessionPeers s).foldl sendOwnKey s

/-- RMB_REKEY (R387); the rambler of I0 keeps the keys (R368). -/
def execRmbRekey (die : Fin 2) (value : W32) (s : State) : Host.Outcome State Fault Refusal :=
  .next (expertOnly s (ramblerPage die) (fun s => if die = 0 then rmbRekey s value.toNat else s))

/-! ## Heartbeats (R396) -/

/-- HEARTBEAT_TIMER (R396): a heartbeat on every route of every peer with a session, with the latest rounds and the member table. A
heartbeat goes to an unreachable peer too, since its return is what makes the peer reachable (log entry 45). -/
def heartbeatTimer (s : State) (composed complete applied : Nat) : State :=
  let body := bytesBE 4 composed ++ bytesBE 4 complete ++ bytesBE 4 applied ++ bytesBE 4 (tableCrc s)
  (sessionPeers s).foldl (fun s j => (validRoutes s j).foldl (fun s r => farSend s j r 0x57 body) s) s

/-- HEARTBEAT (R366, R396): the peer's rounds; a table that differs makes it unreachable and sets GROUP_CONFLICT. -/
def heartbeat (s : State) (j : Nat) (hb : HeartbeatMsg) : State :=
  let ok := hb.table.toNat == tableCrc s
  let was := reachable s j
  let s := modPeer s j (fun p => { p with tableOk := ok, composed := hb.composed, complete := hb.complete, applied := hb.applied })
  let s := setErrIf (!ok) s leadPage 6
  if !was && reachable s j then reissueAll s j else s

/-- HEARTBEAT (R396). -/
def execHeartbeat (m : FarHead) (hb : HeartbeatMsg) (s : State) : Host.Outcome State Fault Refusal :=
  .next (onAccept s m (fun s => heartbeat s m.site hb))

end Sys2Proof.Machine
end

