-- ==== Sys2Proof/Machine/Rambler.lean ====
section
/-!
DEFINITION. Machine/Rambler.lean: the commands of the rambler, bodies received, the archive, manifests and the step limit
(15_far_exchange.md, R368, R370–R373, R383, R389–R403).
-/
namespace Sys2Proof.Machine

/-! ## Configuration -/

/-- The owning context (R370, R402). -/
def rmbCtx (s : State) : Nat := bits (getReg s leadPage Reg.rmbCfg) 19 16

/-- RMB_CFG.DETACH (R395). -/
def rmbDetach (s : State) : Bool := (getReg s leadPage Reg.rmbCfg).testBit 4

/-- RMB_CFG.REPLAY (R399). -/
def rmbReplay (s : State) : Bool := (getReg s leadPage Reg.rmbCfg).testBit 5

/-- H (R394). -/
def rmbH (s : State) : Nat := Nat.max 1 (getReg s leadPage Reg.rmbH % 65536)

/-- RMB_DESC. -/
def rmbDesc (s : State) : Nat := getReg s leadPage Reg.rmbDesc

/-- RMB_CMD_CFG.SLOTS. -/
def rmbSlots (s : State) : Nat := bits (getReg s leadPage Reg.rmbCmdCfg) 28 16

/-- Source number of the rambler's signals. -/
def agentRambler : Nat := agentOf 3 2

/-- The STALE VID is signalled by n, while STALE_CFG.ENABLE is 1 (R394). -/
def signalStale (s : State) (n : Nat) : State :=
  let v := getReg s leadPage Reg.rmbStaleCfg
  if v.testBit 15 && n != 0 then sendSignal s none agentRambler (rmbCtx s) (v % 4096) n 0 else s

/-- A write of the rambler; one outside device memory is dropped (R12). -/
def rmbStore (s : State) (a : Nat) (bs : List Byte) : State :=
  if deviceRangeOk a bs.length then storeBytes s a bs else setErr s leadPage errOutOfMap

/-! ## The step limit (R394, R395) -/

/-- Whether a round is applied. -/
def roundApplied (s : State) (r : Nat) : Bool := s.rmb.applied.any (fun a => decide (r ≤ a))

/-- The compose step the limit counts from: of the oldest composed round not yet applied, or of the latest round (R394). -/
def limitBase (s : State) : Option Nat :=
  match s.rmb.composed.find? (fun c => !roundApplied s c.round) with
  | some c => some c.step
  | none => s.rmb.latest.bind (·.2)

/-- Raise RMB_LIMIT to n; it only rises, and the first rise is H (R394). -/
def raiseLimit (s : State) (n : Nat) : State :=
  match s.rmb.limit with
  | none => signalStale (modRmb s (fun x => { x with limit := some (n % 2 ^ 48) })) (rmbH s)
  | some l => if l < n then signalStale (modRmb s (fun x => { x with limit := some (n % 2 ^ 48) })) (n - l) else s

/-- Bring RMB_LIMIT up to date (R394). -/
def updateLimit (s : State) : State :=
  match limitBase s with
  | some c => raiseLimit s (c + rmbH s)
  | none => s

/-! ## The archive (R398) -/

/-- The sites of the member table. -/
def memberSites (s : State) : List Nat := (List.range 16).filter (memberValid s)

/-- RMB_ARCHIVE_SLOT: room for the largest body of every member, computed when the configuration is written. -/
def setArchiveSlot (s : State) : State :=
  setReg s leadPage Reg.rmbArchiveSlot ((memberSites s).length * largestBody (xSegs s (rmbDesc s)))

/-- RMB_ARCHIVE_ROUNDS. -/
def archiveRounds (s : State) : Nat := getReg s leadPage Reg.rmbArchiveRounds % 65536

/-- The place of a site's body of a round, and its room; the bodies of a slot lie in site order. -/
def archivePlace (s : State) (r j : Nat) : Nat × Nat :=
  let slot := getReg s leadPage Reg.rmbArchiveSlot
  let room := slot / Nat.max 1 (memberSites s).length
  (getReg s leadPage Reg.rmbArchive + (r % Nat.max 1 (archiveRounds s)) * slot + ((memberSites s).filter (fun i => decide (i < j))).length * room,
   room)

/-- The oldest round not yet applied. -/
def oldestRound (s : State) : Nat :=
  match s.rmb.applied with
  | some a => a + 1
  | none => firstRound s (selfSite s)

/-- Whether the archive may take a body of a round: within RMB_ARCHIVE_ROUNDS of the oldest round not applied, and its slot not held by a
newer round (R383, R398). -/
def archiveTakes (s : State) (r : Nat) : Bool :=
  decide (r < oldestRound s + archiveRounds s) &&
  s.rmb.archive.all (fun x => x.1 != r % Nat.max 1 (archiveRounds s) || decide (x.2 ≤ r))

/-- Give the slot of a round to it: an older round in it is overwritten (R398). -/
def claimSlot (s : State) (r : Nat) : State :=
  let k := r % Nat.max 1 (archiveRounds s)
  match s.rmb.archive.find? (fun x => x.1 == k) with
  | some (_, q) =>
    if q = r then s
    else countReg (modRmb s (fun x => { x with archive := (k, r) :: x.archive.filter (fun y => y.1 != k)
                                               arrived := x.arrived.filter (fun b => b.round != q) })) leadPage Reg.rmbArchiveOverwritten 1
  | none => modRmb s (fun x => { x with archive := (k, r) :: x.archive })

/-- A body held in the archive. -/
def findArrived (s : State) (r j : Nat) : Option Arrived := s.rmb.arrived.find? (fun b => b.round == r && b.site == j)

/-- Write a verified body into the archive: a second, different one of its site and round is a conflict, and the first stays (R389, R398). -/
def archiveBody (s : State) (r j : Nat) (body hash : List Byte) : State :=
  match findArrived s r j with
  | some b =>
    if b.hash = hash then s
    else setErr (modRmb s (fun x => { x with conflicts := if x.conflicts.contains r then x.conflicts else r :: x.conflicts })) leadPage 6
  | none =>
    let p := archivePlace s r j
    if archiveTakes s r && decide (body.length ≤ p.2) then
      let s := rmbStore (claimSlot s r) p.1 body
      modRmb s (fun x => { x with arrived := { round := r, site := j, addr := p.1, len := body.length, hash := hash } :: x.arrived })
    else s

/-- Write the own bodies that the archive can take into it (R398); with REPLAY they go to the outbox only (R399). -/
def archiveOwn (s : State) : State :=
  if rmbReplay s then s
  else (s.rmb.composed.filter (fun c => archiveTakes s c.round)).foldl
    (fun s c => archiveBody s c.round (selfSite s) (memRead s.mem c.off c.len) c.hash) s

/-! ## The outbox (R378) -/

/-- Bodies leave the outbox once applied and acknowledged by every other contributor (R378). -/
def pruneOutbox (s : State) : State :=
  modRmb s (fun x => { x with composed := x.composed.filter (fun c =>
    !roundApplied s c.round || x.out.any (fun m => m.stream == 0 && m.round == c.round)) })

/-- The lowest place of the outbox with room for n bytes: its start, or the end of a body (log entry 46). -/
def outboxPlace (s : State) (n : Nat) : Option Nat :=
  let base := getReg s leadPage Reg.rmbOutbox
  let size := getReg s leadPage Reg.rmbOutboxSize
  let free := fun (a : Nat) => decide (a + n ≤ base + size) && s.rmb.composed.all (fun c => !rangesMeet (a, n) (c.off, c.len))
  let cands := (base :: s.rmb.composed.map (fun c => c.off + c.len)).filter free
  match cands with
  | [] => none
  | a :: as => some (as.foldl Nat.min a)

/-! ## Chunks of a command (R400) -/

/-- The chunks of a descriptor in the order of the model: segment, number, chunk. -/
def workItems (gs : List XSeg) : List (XSeg × Nat × Nat) :=
  gs.zipIdx.flatMap (fun x => (List.range (xChunks x.1)).map (fun k => (x.1, x.2, k)))

/-- What the chunks of a command give: the state, the counts of the two ramblers, and the segment and chunk that failed twice. -/
structure XRun where
  s : State
  counts : Counts × Counts
  stop : Option (Nat × Nat)

/-- Add the counts of a segment to those of the rambler that works on it, I(j mod 2) (R40, R368). -/
def dieCounts (n : Counts × Counts) (j : Nat) (c : Counts) : Counts × Counts :=
  if j % 2 = 0 then (addCounts n.1 c, n.2) else (n.1, addCounts n.2 c)

/-- Add counts to RMB_NONFIN and RMB_SAT of the ramblers' own pages (R393, R402). -/
def countRmb (s : State) (n : Counts × Counts) : State :=
  let s := countReg (countReg s (ramblerPage 0) Reg.rmbNonfin n.1.nonfin) (ramblerPage 0) Reg.rmbSat n.1.sat
  countReg (countReg s (ramblerPage 1) Reg.rmbNonfin n.2.nonfin) (ramblerPage 1) Reg.rmbSat n.2.sat

/-- Apply a function to the ramblers' part of the record of a step (R392, R393). -/
def modExch (s : State) (step : Nat) (f : ExchRec → ExchRec) : State :=
  let x := (s.uc.exch.find? (fun y => y.step == step)).getD ⟨step, [], [], 0, 0⟩
  { s with uc := { s.uc with exch := f x :: s.uc.exch.filter (fun y => y.step != step) } }

/-- Commit a chunk: its planes are written, and its terms enter the record of the step (R393). -/
def xCommit (s : State) (step : Nat) (o : ChunkOut) : State :=
  let s := o.writes.foldl (fun s w => storeBytes s w.1 w.2) s
  if o.digests.isEmpty then s
  else modExch s step (fun x => { x with digests := o.digests.foldl (fun l d => digestAdd l d.1 d.2) x.digests })

/-- Whether an input of chunk k of a segment is poisoned (R260). -/
def xPoisoned (s : State) (g : XSeg) (k : Nat) : Bool :=
  let i := 128 * k
  let n := Nat.min 128 (g.count - i)
  (xRanges { g with count := n, pHi := g.pHi + (if g.pfmt = 3 then 4 else 2) * i, pLo := g.pLo + 2 * i, sAddr := g.sAddr + 4 * i
                    rMant := g.rMant + 2 * i, rExp := g.rExp + 4 * k }).any (fun r => poisoned s r.1 r.2)

/-- Run the chunks of a command in order, up to one that fails twice. -/
def runWork (s : State) (step : Nat) (gs : List XSeg) (stop : Option (Nat × Nat)) (bad : Bool) (f : State → XSeg → Nat → Nat → ChunkOut) : XRun :=
  (workItems gs).foldl (fun r x =>
    if r.stop.isSome then r
    else if bad || stop == some (x.2.1, x.2.2) || xPoisoned r.s x.1 x.2.2 then { r with stop := some (x.2.1, x.2.2) }
    else
      let o := f r.s x.1 x.2.1 x.2.2
      { r with s := xCommit r.s step o, counts := dieCounts r.counts x.2.1 o.counts }) ⟨s, (noCounts, noCounts), none⟩

/-- A residue or body-hash failure of the rambler of a die (R300, R383, R400). -/
def rmbFail (s : State) (d : Nat) : State :=
  residueFailure (setErr (countReg s (ramblerPage d) Reg.rmbResidueFails 1) (ramblerPage d) 1) (unitRambler d) (some (rmbCtx s))

/-- The chunks that failed once and passed when recomputed, with an armed injection taken in (R400, R402). -/
def rmbRetries (s : State) (checks : RmbChecks) (gs : List XSeg) : State :=
  ([0, 1] : List Nat).foldl (fun s d =>
    if gs.length ≤ d then s
    else
      let armed := (getReg s (ramblerPage d) Reg.rmbInject).testBit 0
      let s := setReg s (ramblerPage d) Reg.rmbInject 0
      if armed || checks.retried.any (fun x => x.val == d) then rmbFail s d else s) s

/-- A chunk that failed twice: counted, and FAULT_STOP (R400). -/
def rmbFaultStop (s : State) (seg : Nat) : State :=
  let d := seg % 2
  setErr (rmbFail (rmbFail s d) d) (ramblerPage d) 2

/-! ## Commands (R370, R371) -/

/-- The page error of a REASON (R403). -/
def reasonBit (r : Nat) : Option Nat :=
  match r with
  | 1 => some 0
  | 2 => some 5
  | 3 => some 4
  | 5 => some 7
  | 8 => some 6
  | _ => none

/-- The command in progress ends with a STATUS and a REASON, to be reported by RAMBLER_COMMAND_DONE. -/
def endCmd (s : State) (c : RmbCmd) (status reason : Nat) : State :=
  let s := match reasonBit reason with
    | some b => setErr s leadPage b
    | none => s
  modRmb s (fun x => { x with cmd := some { c with status := status, reason := reason } })

/-- CURSOR of a command whose chunks are all committed. -/
def endCursor (gs : List XSeg) : Nat :=
  match gs.getLast? with
  | some g => (gs.length - 1) % 256 + 256 * xChunks g
  | none => 0

/-- CURSOR at a failed chunk. -/
def cursorAt (x : Nat × Nat) : Nat := x.1 % 256 + 256 * x.2

/-- The tally of the command VID, when a unit may be consumed from it (R370). -/
def commandTally (s : State) : Option Nat :=
  let e := getEntry s (rmbCtx s) (getReg s leadPage Reg.rmbCmdCfg % 4096)
  if e.kind = .local_ then
    let t := getTally s e.target
    if 1 ≤ t.count ∧ t.consume = [] then some e.target else none
  else none

/-- The address of the next record. -/
def cmdAddr (s : State) : Nat := getReg s leadPage Reg.rmbCmdBase + 64 * (s.rmb.slot % Nat.max 1 (rmbSlots s))

/-- A record's 64 bytes; zeros outside device memory. -/
def cmdBytes (s : State) (a : Nat) : List Byte := if deviceRangeOk a 64 then memRead s.mem a 64 else List.replicate 64 0

/-- The command of a record. -/
def cmdOf (a ctx : Nat) (b : List Byte) : RmbCmd :=
  let t := fieldN b 0x10 4
  { op := fieldN b 0 1, step := fieldN b 8 8, addr := a, ctx := ctx, tally := if t.testBit 15 then some (t % 4096) else none, status := 0, reason := 0
    rounds := 0, cursor := 0, round := none, done := none, phase := 0, peer := fieldN b 0x24 1, from_ := 0 }

/-- Whether the reserved fields of a record are zero (R370). -/
def cmdOk (b : List Byte) : Bool :=
  let t := fieldN b 0x10 4
  decide (fieldN b 1 1 < 2) && fieldN b 2 6 == 0 && bits t 14 12 == 0 && bits t 31 16 == 0 && fieldN b 0x25 0x1B == 0

/-- Consume a unit of the command tally and take the next record in ring order; STALE is signalled to a context that was reset (R370, R401). -/
def takeCmd (s : State) (t : Nat) : State :=
  let x := getTally s t
  let s := countReg (setTally s t { x with count := x.count - 1 }) tallyPage Reg.tlyReleases 1
  let s := if s.rmb.resetDue then signalStale s (s.rmb.limit.getD 0 - s.uc.step.toNat) else s
  let s := if deviceRangeOk (cmdAddr s) 64 then s else setErr s leadPage errOutOfMap
  modRmb s (fun x => { x with slot := (x.slot + 1) % Nat.max 1 (rmbSlots s), resetDue := false })

/-- Begin the record that waits in the ring, if its operation is one of f, no command runs and no rambler is drained (R436): RESUME continues a stopped command, a
malformed record ends at once, and any other is run. -/
def beginCmd (s : State) (f : Nat → Bool) (run : State → RmbCmd → Nat → State) : State :=
  if s.rmb.cmd.isSome || rmbSlots s == 0 || pageOff s (ramblerPage 0) || pageOff s (ramblerPage 1) then s
  else match commandTally s with
    | none => s
    | some t =>
      let a := cmdAddr s
      let b := cmdBytes s a
      let c := cmdOf a (rmbCtx s) b
      if !f c.op then s
      else
        let s := takeCmd s t
        let resume := fieldN b 1 1 % 2 == 1
        let p := s.rmb.paused
        let s := modRmb s (fun x => { x with paused := none })
        if !cmdOk b || c.step != s.uc.step.toNat then endCmd s c 3 1
        else if resume then
          match p with
          | some q => if q.op = c.op ∧ q.step = c.step then modRmb s (fun x => { x with cmd := some { q with addr := a, tally := c.tally } })
                      else endCmd s c 3 1
          | none => endCmd s c 3 1
        else run s c (fieldN b 0x20 4)

/-! ## COMPOSE (R372–R378) -/

/-- The round a COMPOSE forms: the one after the latest, or the member's first (R366, R397). -/
def nextRound (s : State) : Nat :=
  match s.rmb.latest with
  | some (r, _) => r + 1
  | none => firstRound s (selfSite s)

/-- Whether a compose step is later than that of the previous compose, and than the JOIN (R372). -/
def composeLater (s : State) (step : Nat) : Bool := s.rmb.base.all (fun b => decide (b < step))

/-- Run a COMPOSE (R374–R378): the body goes to its place in the outbox, then the residual and the parameters are written. -/
def composeWork (s : State) (c : RmbCmd) (checks : RmbChecks) : State :=
  let gs := xSegs s (rmbDesc s)
  let r := nextRound s
  let self := selfSite s
  let steps := Nat.max 1 ((s.rmb.base.map (fun b => c.step - b)).getD 1)
  let xs := gs.map (composeSeg s)
  let body := (gs.zip xs).zipIdx.flatMap (fun x => segBody x.1.1 x.2 (r % 2 ^ 32) self c.step steps x.1.2.sent)
  let s := pruneOutbox s
  match outboxPlace s body.length with
  | none => endCmd s c 3 2
  | some off =>
    let s := rmbRetries s checks gs
    let w := runWork s c.step gs (checks.stop.map (·.2)) false (fun _ g j k => match xs[j]? with
      | some x => composeChunk g x k
      | none => ⟨[], [], noCounts⟩)
    match w.stop with
    | some x => endCmd (rmbFaultStop w.s x.1) { c with cursor := cursorAt x } 3 6
    | none =>
      let ns := xs.zipIdx.foldl (fun a x => dieCounts a x.2 x.1.counts) (noCounts, noCounts)
      let n := addCounts ns.1 ns.2
      let s := countRmb (rmbStore w.s off body) ns
      let d : Composed := { round := r, step := c.step, steps := steps, off := off, len := body.length, hash := sha256 body, nonfin := n.nonfin, sat := n.sat }
      endCmd s { c with cursor := endCursor gs, round := some r, done := some d } 1 0

/-- The round of the latest compose, when it was composed at a step (R372). -/
def composedAt (s : State) (step : Nat) : Option Nat :=
  match s.rmb.latest with
  | some (r, t) => if t = some step then some r else none
  | none => none

/-- Start a COMPOSE: one at the step of the latest composed round is done at once (R372). -/
def composeCmd (checks : RmbChecks) (s : State) (c : RmbCmd) (_ : Nat) : State :=
  match if c.op = 1 then composedAt s c.step else none with
  | some r => endCmd s { c with round := some r } 1 0
  | none =>
    if c.op ≠ 1 ∨ composeLater s c.step = false ∨ xDescOk s (rmbDesc s) = false ∨ memberValid s (selfSite s) = false then endCmd s c 3 1
    else composeWork s c checks

/-- COMPOSE (R374): takes a record of operation COMPOSE, or of no operation, which is malformed (R370). -/
def execCompose (checks : RmbChecks) (s : State) : Host.Outcome State Fault Refusal :=
  .next (beginCmd s (fun op => op != 2 && op != 3) (composeCmd checks))

/-- A composed round enters the books: the archive, the other contributors, the limit (R378, R379, R394, R395, R398). -/
def commitCompose (s : State) (d : Composed) : State :=
  let s := modRmb s (fun x => { x with composed := x.composed ++ [d], latest := some (d.round, some d.step), base := some d.step })
  let s := archiveOwn s
  let s := if rmbReplay s then s
    else ((contributors s d.round).filter (fun j => j != selfSite s)).foldl
      (fun s j => sendBodyTo s j 0 (selfSite s) d.round (memRead s.mem d.off d.len)) s
  let s := updateLimit s
  if rmbDetach s then raiseLimit s (d.step + rmbH s) else s

/-! ## APPLY (R389–R393, R399) -/

/-- The own contribution to a round, in the outbox. -/
def ownBody (s : State) (r : Nat) : Option Arrived :=
  (s.rmb.composed.find? (fun c => c.round == r)).map (fun c => { round := r, site := selfSite s, addr := c.off, len := c.len, hash := c.hash })

/-- The bodies of a round in ascending site order, once it is complete (R389). -/
def roundBodies (s : State) (r : Nat) : Option (List Arrived) :=
  (contributors s r).mapM (fun j => if j = selfSite s then ownBody s r else findArrived s r j)

/-- The manifest of a round (R392). -/
def manifestBytes (self r step : Nat) (nseg : Nat) (bs : List (Arrived × SegRead)) : List Byte :=
  padTo 1024 (bytesLE 4 0x4D4E0716 ++ bytesLE 4 r ++ bytesLE 8 step ++ bytesLE 1 self ++ bytesLE 1 bs.length ++ bytesLE 2 nseg ++ bytesLE 4 0 ++
    bytesLE 8 ((bs.map (fun x => x.2.steps)).sum) ++
    bs.flatMap (fun x => bytesLE 4 x.1.site ++ bytesLE 4 x.2.steps ++ bytesLE 8 x.2.step ++ padTo 32 x.1.hash))

/-- Write a manifest into its ring slot, and add it to the record of the step (R392). -/
def writeManifest (s : State) (r step : Nat) (m : List Byte) : State :=
  let n := getReg s leadPage Reg.rmbManifestSlots % 65536
  let s := if n = 0 then s else rmbStore s (getReg s leadPage Reg.rmbManifest + 1024 * (r % n)) m
  modExch s step (fun x => { x with manifests := x.manifests ++ m })

/-- A round is applied: its manifest, its counts, the limit, the outbox and the archive (R378, R392–R394, R398). -/
def roundDone (s : State) (r step : Nat) (gs : List XSeg) (bs : List (Arrived × SegRead)) (n : Counts × Counts) : State :=
  let s := writeManifest s r step (manifestBytes (selfSite s) (r % 2 ^ 32) step gs.length bs)
  let own := s.rmb.composed.find? (fun c => c.round == r)
  let all := addCounts (addCounts n.1 n.2) ((own.map (fun c => (⟨c.sat, c.nonfin⟩ : Counts))).getD noCounts)
  let s := modExch s step (fun x => { x with nonfin := x.nonfin + all.nonfin, sat := x.sat + all.sat })
  let s := modRmb (countRmb s n) (fun x => { x with applied := some r })
  archiveOwn (pruneOutbox (updateLimit s))

/-- Apply one round from its bodies (R390, R391). -/
def applyRound (s : State) (step : Nat) (gs : List XSeg) (r : Nat) (bodies : List Arrived) (stop : Option (Nat × Nat)) : XRun :=
  let reads := bodies.map (fun b => readBody s gs.length b.addr)
  let heads := (bodies.zip reads).flatMap (fun x => (x.2.head?.map (fun h => (x.1, h))).toList)
  let ws := weights (heads.map (fun x => x.2.steps))
  let seg := fun (l : List SegRead) (j : Nat) => (l[j]?.map (·.elems)).getD []
  let own := (((bodies.zip reads).find? (fun x => x.1.site == selfSite s)).map (·.2)).getD []
  let w := runWork s step gs stop (bodies.any (fun b => poisoned s b.addr b.len))
    (fun t g j k => applyChunk t g ws (reads.map (fun l => seg l j)) (seg own j) k)
  if w.stop.isSome then w else { w with s := roundDone w.s r step gs heads w.counts }

/-- Apply rounds in order until one stops (R389, R400); i is the number of the next round within the command. -/
def applyRounds (s : State) (c : RmbCmd) (gs : List XSeg) (checks : RmbChecks) : Nat → List (Nat × List Arrived) → State × RmbCmd × Option (Nat × Nat)
  | _, [] => (s, c, none)
  | i, (r, bs) :: rs =>
    let stop := checks.stop.bind (fun x => if x.1 = i then some x.2 else none)
    let w := applyRound s c.step gs r bs stop
    match w.stop with
    | some x => (w.s, { c with cursor := cursorAt x }, some x)
    | none => applyRounds w.s { c with rounds := c.rounds + 1, cursor := endCursor gs } gs checks (i + 1) rs

/-- Apply a list of rounds as the work of a command; its failure ends the command (R400). -/
def applyList (s : State) (c : RmbCmd) (gs : List XSeg) (checks : RmbChecks) (rs : List (Nat × List Arrived)) : State × RmbCmd × Bool :=
  let s := if rs.isEmpty then s else rmbRetries s checks gs
  let x := applyRounds s c gs checks 0 rs
  match x.2.2 with
  | some p => (endCmd (rmbFaultStop x.1 p.1) x.2.1 3 6, x.2.1, false)
  | none => (x.1, x.2.1, true)

/-- The complete rounds from r on, in order, up to n (R389); a conflict ends them. -/
def completeFrom (s : State) : Nat → Nat → List (Nat × List Arrived)
  | 0, _ => []
  | n + 1, r =>
    if s.rmb.conflicts.contains r || (contributors s r).isEmpty then []
    else match roundBodies s r with
      | some bs => (r, bs) :: completeFrom s n (r + 1)
      | none => []

/-- More rounds than can be complete: one for every body. -/
def roundBound (s : State) : Nat := s.rmb.arrived.length + s.rmb.composed.length

/-- The recorded rounds whose manifest names a step, in round order, with the manifest (R399). -/
def recordedRounds (s : State) (step : Nat) : List (Nat × List Byte) :=
  let n := getReg s leadPage Reg.rmbManifestSlots % 65536
  let ms := (List.range n).map (fun k => memRead s.mem (getReg s leadPage Reg.rmbManifest + 1024 * k) 1024)
  let ms := (ms.filter (fun m => fieldN m 0 4 == 0x4D4E0716 && fieldN m 8 8 == step)).map (fun m => (fieldN m 4 4, m))
  ms.mergeSort (fun a b => decide (a.1 ≤ b.1))

/-- The bodies a manifest names, each checked against its entry; none where one differs or is absent (R399). -/
def recordedBodies (s : State) (nseg r : Nat) (m : List Byte) : Option (List Arrived) :=
  (List.range (fieldN m 0x11 1)).mapM (fun i =>
    let j := fieldN m (0x20 + 0x30 * i) 1
    let hash := (m.drop (0x30 + 0x30 * i)).take 32
    let b := if j = selfSite s then ownBody s r
      else
        let a := (archivePlace s r j).1
        let len := bodyLenAt s nseg a
        some { round := r, site := j, addr := a, len := len, hash := sha256 (memRead s.mem a len) }
    match b with
    | some b => if sha256 (memRead s.mem b.addr b.len) = hash then some b else none
    | none => none)

/-- The rounds an APPLY applies, or the REASON it fails with (R389, R399). -/
def applyPlan (s : State) (step nseg : Nat) : Except Nat (List (Nat × List Arrived)) :=
  if rmbReplay s then
    match (recordedRounds s step).mapM (fun x => (recordedBodies s nseg x.1 x.2).map (fun bs => (x.1, bs))) with
    | some rs => .ok rs
    | none => .error 3
  else if s.rmb.conflicts.any (fun r => decide (r ≤ oldestRound s)) then .error 8
  else .ok (completeFrom s (roundBound s) (oldestRound s))

/-- Start an APPLY: one at the step of the latest that completed is done at once (R372). -/
def applyCmd (checks : RmbChecks) (s : State) (c : RmbCmd) (_ : Nat) : State :=
  match s.rmb.lastApply with
  | some (t, n) => if t = c.step then endCmd s { c with rounds := n } 1 0 else applyNow checks s c
  | none => applyNow checks s c
where
  applyNow (checks : RmbChecks) (s : State) (c : RmbCmd) : State :=
    if !xDescOk s (rmbDesc s) then endCmd s c 3 1
    else
      let gs := xSegs s (rmbDesc s)
      match applyPlan s c.step gs.length with
      | .error e => endCmd s c 3 e
      | .ok rs =>
        let x := applyList s c gs checks rs
        if x.2.2 then endCmd x.1 x.2.1 1 0 else x.1

/-- APPLY (R389). -/
def execApply (checks : RmbChecks) (s : State) : Host.Outcome State Fault Refusal := .next (beginCmd s (fun op => op == 2) (applyCmd checks))

/-! ## JOIN (R397) -/

/-- REQUEST of TYPE 0: the snapshot. -/
def requestSnapshot (s : State) (peer : Nat) : State := farSendAny s peer 0x58 (0 :: List.replicate 8 0)

/-- The rounds a JOIN still needs. -/
def joinRounds (s : State) : List Nat :=
  let a := oldestRound s
  (List.range (firstRound s (selfSite s) - a)).map (· + a)

/-- REQUEST of TYPE 1 to every contributor of the rounds a JOIN needs. -/
def requestRounds (s : State) : State :=
  let rs := joinRounds s
  (farPeers s).foldl (fun s j =>
    match rs.filter (fun r => (contributors s r).contains j) with
    | [] => s
    | r :: more => farSendAny s j 0x58 (1 :: (bytesBE 4 r ++ bytesBE 4 (more.getLast?.getD r)))) s

/-- Start a JOIN: PEER is another member, and ROUND the own FIRST_ROUND. -/
def joinCmd (s : State) (c : RmbCmd) (round : Nat) : State :=
  let self := selfSite s
  if !xDescOk s (rmbDesc s) || decide (16 ≤ c.peer) || !memberValid s c.peer || c.peer == self || !memberValid s self || round != firstRound s self then
    endCmd s c 3 1
  else
    let s := modRmb s (fun x => { x with snap := none, empties := [], cmd := some { c with phase := 1, round := some round } })
    requestSnapshot s c.peer

/-- The ranges of a snapshot (R294): address, length, hash, and the offset of its bytes after the entries. -/
def snapRanges (b : List Byte) : List (Nat × Nat × List Byte × Nat) :=
  let n := Nat.min 4096 (fieldN b 0x60 4)
  ((List.range n).foldl (fun (acc : List (Nat × Nat × List Byte × Nat) × Nat) i =>
    let e := b.drop (0x80 + 0x30 * i)
    let len := fieldN e 8 8
    (acc.1 ++ [(fieldN e 0 8, len, (e.drop 0x10).take 32, acc.2)], acc.2 + len)) ([], 0x80 + 0x30 * n)).1

/-- Whether a fetched snapshot passes its checks (R397). -/
def snapOk (s : State) (b : List Byte) (a f : Nat) : Bool :=
  let rs := snapRanges b
  decide (a < f) && fieldN b 0 4 == 0x5A9A0716 && (getCtx s (rmbCtx s)).image.any (fun im => padTo 32 im.hash == (b.drop 0x20).take 32) &&
  decide (1 ≤ fieldN b 0x60 4) && decide (fieldN b 0x60 4 ≤ 4096) &&
  rs.all (fun r => r.1 % 64 == 0 && r.2.1 % 64 == 0 && decide (r.2.2.2 + r.2.1 ≤ b.length) && sha256 ((b.drop r.2.2.2).take r.2.1) == r.2.2.1)

/-- P := S, and the residual is cleared, in every segment (R397). -/
def joinClear (s : State) (gs : List XSeg) : State :=
  (workItems gs).foldl (fun s x =>
    let g := x.1
    let i0 := 128 * x.2.2
    let n := Nat.min 128 (g.count - i0)
    let o := paramOut g i0 ((List.range n).map (fun i => xSync s g (i0 + i)))
    let s := o.writes.foldl (fun s w => storeBytes s w.1 w.2) s
    let s := storeBytes s (g.rMant + 2 * i0) (List.replicate (2 * padded n) 0)
    storeBytes s (g.rExp + 4 * x.2.2) (List.replicate (ceilDiv n 32) 0)) s

/-- Install a snapshot that passes its checks, and ask for the archived rounds (R397). -/
def joinInstall (s : State) (c : RmbCmd) (body : List Byte) : State :=
  let a := fieldN body 0 8
  let b := body.drop 8
  let f := firstRound s (selfSite s)
  if !snapOk s b a f then endCmd (modRmb s (fun x => { x with snap := none })) c 3 5
  else
    let s := (snapRanges b).foldl (fun s r => rmbStore s r.1 ((b.drop r.2.2.2).take r.2.1)) s
    let s := joinClear s (xSegs s (rmbDesc s))
    let s := modRmb s (fun x => { x with snap := none, applied := some a, cmd := some { c with phase := 2, from_ := a } })
    requestRounds s

/-- The last step of a JOIN: the rounds before the member's first are composed and applied (R397). -/
def joinEnd (s : State) (c : RmbCmd) : State :=
  let f := firstRound s (selfSite s)
  let s := modRmb s (fun x => { x with latest := some (f - 1, none), applied := some (f - 1), base := some c.step, empties := [] })
  endCmd s c 1 0

/-- Whether a round a JOIN needs is gone from every contributor's archive (R398). -/
def joinGone (s : State) : Bool :=
  (joinRounds s).any (fun r => (contributors s r).all (fun j => s.rmb.empties.contains (r, j)))

/-- Go on with a JOIN (R397): what has not come yet is requested again. -/
def joinStep (checks : RmbChecks) (s : State) (c : RmbCmd) : State :=
  let gs := xSegs s (rmbDesc s)
  if c.phase = 1 then
    match s.rmb.snap with
    | some b => joinInstall s c b
    | none => requestSnapshot s c.peer
  else if joinGone s then endCmd s c 3 4
  else
    let rs := completeFrom s (firstRound s (selfSite s) - oldestRound s) (oldestRound s)
    let x := applyList s c gs checks rs
    if !x.2.2 then x.1
    else
      let s := modRmb x.1 (fun y => { y with cmd := some x.2.1 })
      if (joinRounds s).isEmpty then joinEnd s x.2.1 else requestRounds s

/-- JOIN (R397): takes a record of operation JOIN, or goes on with the JOIN in progress. -/
def execJoin (checks : RmbChecks) (s : State) : Host.Outcome State Fault Refusal :=
  .next (match s.rmb.cmd with
    | some c => if c.op = 3 ∧ c.status = 0 then joinStep checks s c else s
    | none => beginCmd s (fun op => op == 3) joinCmd)

/-! ## The end of a command (R370, R401) -/

/-- Write STATUS and CURSOR, and the round a COMPOSE composed, into the record (R370). -/
def writeStatus (s : State) (c : RmbCmd) : State :=
  let s := rmbStore s (c.addr + 0x14) (bytesLE 4 (c.status + 256 * (c.rounds % 256) + 65536 * c.reason) ++ bytesLE 8 c.cursor)
  match c.op, c.status, c.round with
  | 1, 1, some r => rmbStore s (c.addr + 0x20) (bytesLE 4 r)
  | _, _, _ => s

/-- RAMBLER_COMMAND_DONE (R370): STATUS and CURSOR are written, and the tally is signalled by one. -/
def execRamblerCommandDone (s : State) : Host.Outcome State Fault Refusal :=
  .next (match s.rmb.cmd with
    | none => s
    | some c =>
      if c.status = 0 then s
      else
        let s := modRmb s (fun x => { x with cmd := none
                                             lastApply := if c.op = 2 ∧ c.status = 1 then some (c.step, c.rounds) else x.lastApply })
        let s := match c.done with
          | some d => if c.status = 1 then commitCompose s d else s
          | none => s
        let s := writeStatus s c
        match c.tally with
        | some v => sendSignal s none agentRambler c.ctx v 1 0
        | none => s)

/-- Warm reset, or a drain of the rambler: the command in progress stops PARTIAL and may be resumed; no tally is signalled (R401). -/
def rmbPause (s : State) : State :=
  match s.rmb.cmd with
  | none => s
  | some c => writeStatus (modRmb s (fun x => { x with cmd := none, paused := some c })) { c with status := 2, reason := 0 }

/-- Reset of a context (R401): as the owner, its command stops FAILED with CONTEXT_RESET, the commands it signalled are discarded, and
STALE is signalled when its next command is taken. -/
def rmbContextReset (s : State) (c : Nat) : State :=
  if c ≠ rmbCtx s then s
  else
    let s := match s.rmb.cmd with
      | some k => writeStatus (modRmb s (fun x => { x with cmd := none })) { k with status := 3, reason := 7 }
      | none => s
    let unread := if rmbSlots s = 0 then 0 else
      match commandTally s with
      | some t => (getTally s t).count
      | none => 0
    modRmb s (fun x => { x with paused := none, resetDue := x.limit.isSome, slot := (x.slot + unread) % Nat.max 1 (rmbSlots s) })

/-! ## Bodies received (R379, R383, R386) -/

/-- Whether a shard belongs to a round that may be decoded (R383). -/
def shardInWindow (s : State) (sh : ShardMsg) : Bool := sh.stream.val == 1 || decide (sh.round < oldestRound s + archiveRounds s)

/-- A message with a shard more: decoded once it holds k (R380, R383). -/
def addShard (x : InMsg) (index : Nat) (data : List Byte) : InMsg :=
  if x.decoded || x.shards.any (fun y => y.1 == index || y.2.length != data.length) then x
  else { x with shards := x.shards ++ [(index, data)] }

/-- A verified body (R383, R397, R398). -/
def bodyDone (s : State) (b : InBody) (bytes : List Byte) : State :=
  if b.stream = 1 then
    match s.rmb.cmd with
    | some c => if c.op = 3 ∧ c.phase = 1 ∧ c.peer = b.site then modRmb s (fun x => { x with snap := some bytes }) else s
    | none => s
  else if b.stream = 2 ∧ b.total = 0 then
    modRmb s (fun x => { x with empties := if x.empties.contains (b.round, b.site) then x.empties else (b.round, b.site) :: x.empties })
  else archiveBody s b.round b.origin bytes (sha256 bytes)

/-- A body that fails its hash is discarded, counted, and requested again by NEED with h = 0 (R383). -/
def bodyBad (s : State) (b : InBody) : State :=
  let s := rmbFail s 0
  let s := modRmb s (fun x => { x with ins := x.ins.map (fun m => if m.site = b.site ∧ b.msgs.contains m.msg = true
                                                              then { m with shards := [], decoded := false } else m) })
  b.msgs.foldl (fun s k => sendNeed s b.site k 0) s

/-- A decoded message joins its body; a body that is covered is checked (R383). -/
def bodyPart (s : State) (m : InMsg) (data : List Byte) (good : Bool) : State :=
  let mine := fun (b : InBody) => b.site == m.site && b.stream == m.stream && b.origin == m.origin && b.round == m.round && b.total == m.total
  let b : InBody := (s.rmb.bodies.find? mine).getD
    { site := m.site, stream := m.stream, origin := m.origin, round := m.round, total := m.total, parts := [], msgs := [] }
  let part := data.take (m.total - m.off)
  let b : InBody := { b with parts := if b.parts.any (fun p => p.1 == m.off) then b.parts else b.parts ++ [(m.off, part)], msgs := b.msgs ++ [m.msg] }
  let rest := s.rmb.bodies.filter (fun b => !mine b)
  let bytes := (b.parts.mergeSort (fun a c => decide (a.1 ≤ c.1))).flatMap (·.2)
  if bytes.length = b.total then
    let s := modRmb s (fun x => { x with bodies := rest })
    if good then bodyDone s b bytes else bodyBad s b
  else modRmb s (fun x => { x with bodies := rest ++ [b] })

/-- A shard that passed its tag (R383): a shard of a decoded message is answered with RECEIPT; one outside the window is dropped. -/
def shardIn (s : State) (m : FarHead) (sh : ShardMsg) : State :=
  let j := m.site.val
  let x := (s.rmb.ins.find? (fun y => y.site == j && y.msg == sh.msg)).getD
    { site := j, msg := sh.msg, stream := sh.stream, origin := sh.origin, round := sh.round, off := sh.off, total := sh.total, k := sh.k
      shards := [], decoded := false }
  if sh.k = 0 ∨ (sh.index.val < 32 ∧ sh.k.val ≤ sh.index.val) ∨ x.k ≠ sh.k.val then s
  else if x.decoded then sendReceipt s j m.route x.stream x.origin x.msg
  else if !shardInWindow s sh then s
  else
    let x := addShard x sh.index sh.data
    let put := fun (s : State) (y : InMsg) =>
      modRmb s (fun r => { r with ins := r.ins.filter (fun z => !(z.site == j && z.msg == y.msg)) ++ [y] })
    if x.shards.length < x.k then put s x
    else
      let s := put s { x with shards := [], decoded := true }
      bodyPart (sendReceipt s j m.route x.stream x.origin x.msg) x (rsDecode x.k x.shards) sh.bodyGood

/-- SHARD (R383, R386). -/
def execShard (m : FarHead) (sh : ShardMsg) (s : State) : Host.Outcome State Fault Refusal := .next (onAccept s m (fun s => shardIn s m sh))

/-! ## Requests (R397, R398) -/

/-- The served snapshot: SNAP_ROUND, then the header, the entries and the bytes of the ranges (log entry 47). -/
def servedSnapshot (s : State) : List Byte :=
  let a := getReg s leadPage Reg.rmbSnapAddr
  let n := Nat.min 4096 (memNat s.mem (a + 0x60) 4)
  let len := 0x80 + 0x30 * n + ((List.range n).map (fun i => memNat s.mem (a + 0x88 + 0x30 * i) 8)).sum
  bytesLE 8 (getReg s leadPage Reg.rmbSnapRound) ++ (if deviceRangeOk a len then memRead s.mem a len else [])

/-- REQUEST_SNAPSHOT (R397): answered with the snapshot while RMB_SNAP_ADDR is nonzero. -/
def execRequestSnapshot (m : FarHead) (s : State) : Host.Outcome State Fault Refusal :=
  .next (onAccept s m (fun s =>
    if getReg s leadPage Reg.rmbSnapAddr = 0 then s else sendBodyTo s m.site 1 (selfSite s) 0 (servedSnapshot s)))

/-- Answer a REQUEST for a round: its archived bodies, or an empty body once it has left the archive (R398). -/
def answerRound (j : Nat) (s : State) (r : Nat) : State :=
  let bs := s.rmb.arrived.filter (fun b => b.round == r)
  if bs.isEmpty then (if r < oldestRound s then sendBodyTo s j 2 (selfSite s) r [] else s)
  else bs.foldl (fun s b => sendBodyTo s j 2 b.site r (memRead s.mem b.addr b.len)) s

/-- REQUEST_ARCHIVE (R398). -/
def execRequestArchive (m : FarHead) (first last : Nat) (s : State) : Host.Outcome State Fault Refusal :=
  .next (onAccept s m (fun s => ((List.range (last + 1 - first)).map (· + first)).foldl (answerRound m.site) s))

/-! ## Heartbeats and registers (R396, R402, R403) -/

/-- A round as a register shows it. -/
def roundWord (r : Option Nat) : Nat := r.getD 0 % 2 ^ 32

/-- The latest round up to which all are complete. -/
def latestComplete (s : State) : Option Nat :=
  match (completeFrom s (roundBound s) (oldestRound s)).getLast? with
  | some (r, _) => some r
  | none => s.rmb.applied

/-- HEARTBEAT_TIMER (R396). -/
def execHeartbeatTimer (s : State) : Host.Outcome State Fault Refusal :=
  .next (heartbeatTimer s (roundWord (s.rmb.latest.map (·.1))) (roundWord (latestComplete s)) (roundWord s.rmb.applied))

/-- RMB_STATE (R402). -/
def rmbStateWord (s : State) : Nat :=
  bit (rmbSlots s != 0) + 2 * bit s.rmb.cmd.isSome + 4 * bit (rmbReplay s) + 8 * bit (rmbDetach s) +
  16 * bit (s.rmb.cmd.any (fun c => c.op == 3)) + 32 * bit (getReg s leadPage Reg.rmbSnapAddr != 0) + 64 * rmbCtx s

/-- RMB_ROUNDS (R402). -/
def rmbRoundsWord (s : State) : Nat := roundWord (s.rmb.latest.map (·.1)) + 2 ^ 32 * roundWord s.rmb.applied

/-- The site and route that RMB_ROUTE_SEL selects. -/
def rmbSel (s : State) (die : Nat) : Nat × Nat :=
  let v := getReg s (ramblerPage die) Reg.rmbRouteSel
  (v % 16, bits v 5 4)

/-- RMB_PEER_INFO (R402). -/
def rmbPeerInfo (s : State) : Nat :=
  let j := (rmbSel s 0).1
  bit (reachable s j) + ((upRoutes s j).map (fun r => 2 ^ (1 + r))).sum + 32 * bit (!(getPeer s j).keys.isEmpty)

/-- RMB_ROUTE_CFG with UP (R402). -/
def rmbRouteCfgWord (s : State) (die : Nat) : Nat :=
  let (j, r) := rmbSel s die
  getReg s (routeBank die j r) Reg.rmbRouteCfg + 8 * bit (die == 0 && (upRoutes s j).contains r)

/-- Whether a value may be written to a RAMBLER register (R402). -/
def rmbValueOk (off v : Nat) : Bool :=
  if off = Reg.rmbShardLen then (v % 2 ^ 14) % 64 == 0 && decide (64 ≤ v % 2 ^ 14) && decide (v % 2 ^ 14 ≤ 8192)
  else if off = Reg.rmbCfg then decide (bits v 10 6 ≤ 16)
  else if off = Reg.rmbCmdCfg then decide (bits v 28 16 ≤ 4096)
  else if off = Reg.rmbTimers then v % 256 != 0 && bits v 31 16 != 0
  else if off = Reg.rmbDesc then v % 64 == 0
  else if off = Reg.rmbCmdBase ∨ off = Reg.rmbOutbox ∨ off = Reg.rmbOutboxSize ∨ off = Reg.rmbArchive ∨ off = Reg.rmbManifest then v % 4096 == 0
  else true

/-- A register of the RAMBLER page that is kept in the flash (R402, R462). -/
def rmbFlash (off : Nat) : Bool := decide (Reg.rmbMember ≤ off) && decide (off < Reg.rmbMember + 64)

/-- The registers that may not be written while a command or a launch of the owning context runs (15_far_exchange.md, RAMBLER register page). -/
def rmbHeld (off : Nat) : Bool :=
  rmbFlash off || [Reg.rmbCfg, Reg.rmbH, Reg.rmbShardLen, Reg.rmbDesc, Reg.rmbCmdBase, Reg.rmbCmdCfg, Reg.rmbOutbox, Reg.rmbOutboxSize,
    Reg.rmbArchive, Reg.rmbArchiveRounds, Reg.rmbManifest, Reg.rmbManifestSlots].contains off

/-- A write of a RAMBLER register (R402): one that is not allowed is ignored and sets CONFIG_REFUSED; instance 1 ignores it. v is already
masked. -/
def rmbConfig (s : State) (die off v : Nat) : State :=
  let page := ramblerPage 0
  if die ≠ 0 then s
  else if !rmbValueOk off v || (rmbHeld off && (s.rmb.cmd.isSome || ctxRuns (getCtx s (rmbCtx s)))) then setErr s page 8
  else if off = Reg.rmbRouteCfg then let (j, r) := rmbSel s 0; flashReg s (routeBank 0 j r) off (v - v % 16 + v % 8)
  else if off = Reg.rmbRouteAddr ∨ off = Reg.rmbRouteAddr + 8 then let (j, r) := rmbSel s 0; flashReg s (routeBank 0 j r) off v
  else
    let s := if rmbFlash off then flashReg s page off v else setReg s page off v
    if rmbFlash off ∨ off = Reg.rmbDesc ∨ off = Reg.rmbArchive ∨ off = Reg.rmbArchiveRounds then setArchiveSlot s else s

/-- A write of 1 to GROUP_CONFLICT: software has resolved the conflicts (R389, log entry 48). -/
def rmbResolve (s : State) : State := modRmb s (fun x => { x with conflicts := [] })

/-- A write of RMB_INJECT (R402). -/
def rmbInject (s : State) (die v : Nat) : State := setReg s (ramblerPage die) Reg.rmbInject (v % 2)

/-- RMB_INJECT (R402). -/
def execRmbInject (die : Fin 2) (value : W32) (s : State) : Host.Outcome State Fault Refusal :=
  .next (expertOnly s (ramblerPage die) (fun s => rmbInject s die value.toNat))

end Sys2Proof.Machine
end

