-- ==== Sys2Proof/Machine/Contexts.lean ====
section
/-!
DEFINITION. Machine/Contexts.lean: launches and their ends, pre-emption, context images, restore and context reset
(17_contexts_and_preemption.md, R424–R438; R178–R179, R245, R292, R353, R354).
-/
namespace Sys2Proof.Machine

/-! ## Which hampers are free (R424, R436) -/

/-- The physical hampers of a mask of logical ones. -/
def physMask (s : State) (mask : Nat) : List Nat := dedup ((maskList mask).map (physOf s))

/-- Whether a context uses hampers now: it runs, stops, restores or resets. -/
def ctxUses (x : Context) : Bool := ctxRuns x || x.state == .restoring || x.state == .resetting

/-- Whether a context other than c uses a physical hamper (R424). -/
def physBusy (s : State) (c h : Nat) : Bool :=
  (List.range 16).any (fun k => k != c && ctxUses (getCtx s k) &&
    ((maskList (ctxMask s k)).any (fun l => physOf s l == h)))

/-- The nine pages of a physical hamper. -/
def hamperPages (h : Nat) : List Nat := (List.range 9).map (fun b => 0x100 + 0x10 * h + b)

/-- Whether a physical hamper may take work: none of its blocks is drained (R436). -/
def hamperOn (s : State) (h : Nat) : Bool := (hamperPages h).all (fun p => !pageOff s p)

/-- Whether every hamper of a context is free for it and in service. -/
def hampersFree (s : State) (c : Nat) : Bool := (physMask s (ctxMask s c)).all (fun h => !physBusy s c h && hamperOn s h)

/-! ## Launch (R292, R353, R354) -/

/-- Write the PANTRY_INIT values of an image (R197, R354; log entry 37). -/
def pantryInit (s : State) (im : Image) : State :=
  let s := im.pinit.foldl (fun (s : State) x => { s with mem := memWrite s.mem x.1 x.2 }) s
  (im.placed.filter (fun p => p.kind == 4)).foldl (fun (s : State) p =>
    let bs := memRead s.mem p.addr p.size
    let goal := if p.lh = 0x3F then maskList im.mask else [p.lh]
    goal.foldl (fun (s : State) l => { s with mem := memWrite s.mem (pantryAddr l 0) (bs.take (pantrySize s l)) }) s) s

/-- Zero the tops and depths of every stack a context owns (R89, R354). -/
def zeroStacks (s : State) (c : Nat) : State :=
  { s with hampers := s.hampers.map (fun (h : Hamper) => { h with stackRegs := h.stackRegs.map (fun (k : Stack) =>
      if k.ctx = c then { k with topH := 0, topE := 0, depth := 0 } else k) }) }

/-- A core at the first beat b of a launch (R150, R281, R354), with the launch's replay point (R304). -/
def launchCore (s : State) (c b : Nat) (pc : Addr) : Core :=
  let k : Core := { Core.idle with pc := pc, run := .issuing, launched := true, ctx := c, start := b, next := b, last := b, gstep := s.uc.step }
  { k with points := [{ step := none, pc := pc, sregs := k.sregs, drains := k.drains, vsum := k.vsum, beat := 0, gstep := k.gstep
                        ns := s.clockNs }] }

/-- The clean boundary of a logical hamper of a launch (R354). -/
def launchHamper (s : State) (c b : Nat) (im : Image) (l : Nat) : State :=
  let s := emptyList s l
  modH s l (fun h =>
    let h := endHamper h
    { h with core := launchCore s c b (BitVec.ofNat 52 (im.entries.getD l 0)), list := { h.list with cursor := 0, merges := [] } })

/-- Clear the baskets of every logical hamper of a physical one (R354). -/
def clearBaskets (s : State) (h : Nat) : State :=
  (logicalsOf s h).foldl (fun s l => modH s l (fun h => { h with frames := h.frames.map (fun (f : Frame) => { f with basket := [] }) })) s

/-- A launch starts its context from a clean boundary; forced voltages end (R292, R354, R456). -/
def startLaunch (s : State) (c : Nat) (im : Image) (l : Launch) : State :=
  let s := (talliesOf s c).foldl resetTally s
  let s := (slotsOf s c).foldl resetSlot s
  let s := zeroStacks s c
  let s := (physMask s im.mask).foldl clearBaskets s
  let b := commonBeat s
  let s := (maskList im.mask).foldl (fun s k => launchHamper s c b im k) s
  let s := pantryInit s im
  let s := { s with power := { s.power with forced := Vector.replicate 8 none } }
  let s := setReg s powerPage Reg.pwrVoltForce 0
  let late := l.late
  let ns := if late then s.sc.count - l.at_ else 0
  let s := modCtx s c (fun x => { x with state := .running, launch := some { l with startBeat := b, startNs := s.clockNs }, lastStart := s.sc.count
                                         lateNs := ns, stopAt := none, restartDue := false })
  if late then emit (setErr s scPage 2) evLaunchLate scPage (bytesLE 8 l.count.toNat ++ bytesLE 8 ns) else s

/-- Start a held launch whose count has come and whose hampers are free (R292, R424). No launch starts before READY. -/
def tryStart (s : State) (c : Nat) : State :=
  let x := getCtx s c
  match x.state, x.image, x.launch with
  | .held, some im, some l =>
    if decide (l.at_ ≤ s.sc.count) && hampersFree s c && s.power.phase == .running && !s.flt.replace then startLaunch s c im l else s
  | _, _, _ => s

/-- STATUS of a LAUNCH (R353). -/
def launchStatus (s : State) (c handle at_ : Nat) : Nat :=
  let x := getCtx s c
  let holder := (List.range 16).find? (fun k => (getCtx s k).image.any (fun im => im.handle == handle))
  match holder, x.image with
  | none, _ => 1
  | some k, im =>
    if k ≠ c then 2
    else if im.any (fun im => im.symbols != 0 && !im.patched) then 3
    else if x.state ≠ .loaded then 4
    else if at_ ≠ 0 ∧ s.sc.src ≠ 0 ∧ (s.sc.sync = .acquiring ∨ s.sc.sync = .unlocked) then 5
    else if s.flt.replace then 6
    else 0

/-- LAUNCH_REPLY (R353). -/
def launchReply (count : Word) (status ctx : Nat) : OutMsg := { kind := 0x21, fields := [status, count.toNat, ctx], data := [] }

/-- LAUNCH (R292, R353): accepted and held or started, or refused; answered by LAUNCH_REPLY. -/
def execLaunch (ctx : Fin 16) (handle : BitVec 16) (count at_ : Word) (s : State) : Host.Outcome State Fault Refusal :=
  let st := launchStatus s ctx handle.toNat at_.toNat
  let s := toHost { s with answer := bytesLE 4 st ++ bytesLE 8 count.toNat } (launchReply count st ctx)
  let s := setErrIf (st == 5) s scPage 3
  let s := setErrIf (st == 6) s faultPage 3
  let late := at_ != 0 && decide (at_.toNat ≤ s.sc.count)
  let l : Launch := { handle := handle.toNat, count := count, at_ := at_.toNat, late := late, startBeat := 0, startNs := 0
                      illegal := false, forced := false }
  .next (if st = 0 then tryStart (modCtx s ctx (fun x => { x with state := .held, launch := some l })) ctx else s)

/-- LAUNCH_START (R292, R424). -/
def execLaunchStart (ctx : Fin 16) (s : State) : Host.Outcome State Fault Refusal := .next (tryStart s ctx)

/-- The site count advances: a launch held by its hampers when its count passes is late (R292, R424). -/
def countPassed (s : State) (old : Nat) : State :=
  (List.range 16).foldl (fun s c =>
    let x := getCtx s c
    match x.launch with
    | some l =>
      if x.state = .held ∧ l.at_ ≠ 0 ∧ old < l.at_ ∧ l.at_ ≤ s.sc.count ∧ hampersFree s c = false then
        setCtx s c { x with launch := some { l with late := true } }
      else s
    | none => s) s

/-- End code of a launch (R353). -/
def endCode (l : Launch) : Nat := if l.forced then 2 else if l.illegal then 1 else 0

/-- LAUNCH_DONE (R353): every hamper has ended and everything it issued has completed. -/
def execLaunchDone (ctx : Fin 16) (s : State) : Host.Outcome State Fault Refusal :=
  let x := getCtx s ctx
  .next (match x.launch with
    | some l =>
      if ctxRuns x && (hampersOf s ctx).all (fun k => (getH s k).core.ended) && contextQuiet s ctx && !s.flt.draining then
        endLaunch s ctx (endCode l)
      else s
    | none => s)

/-! ## Pre-emption (R425–R430) -/

/-- Record the result of a context command (R437, R438, R475). -/
def ctxCode (s : State) (c code : Nat) : State :=
  setErrIf (code != 0) (modCtx s c (fun x => { x with code := code })) mgmtPage 2

/-- A section of a context image: KIND, LHAMPER, and the bytes it holds (R429, R430). -/
structure CtxSection where
  kind : Nat
  lh : Nat
  len : Nat
deriving DecidableEq, Repr

/-- Bytes of the FRAME section of a hamper: two tiles per frame and its turning buffers (log entry 36). -/
def frameSection : Nat := 3 * 2 * 33280 + 3 * 2 * 33280

/-- Bytes of a basket row in an image: its frame and row, and 128 slots. -/
def rowSection : Nat := 64 + 2048

/-- Occupied basket rows of a hamper. -/
def basketRows (h : Hamper) : Nat := (h.frames.toList.map (fun f => (dedup (f.basket.map (fun x => x.1 / 128))).length)).sum

/-- Whether a frame has work, or holds a tile or a turned buffer (R430). -/
def frameHolds (f : Frame) : Bool :=
  !f.tiles.isEmpty || f.shadowValid || !f.passes.isEmpty || !f.loads.isEmpty || !f.turns.isEmpty || f.t0.turned.isSome || f.t1.turned.isSome

/-- The sections of a logical hamper (R430): its FRAME section where its frames hold something, its VECTOR section where a call is in
progress, both in mode ANY only. The lengths but that of PANTRY are the model's (log entry 36). -/
def hamperSections (use l rows : Nat) (frames vec : Bool) : List CtxSection :=
  [⟨1, l, 4096⟩, ⟨2, l, use⟩, ⟨3, l, 512⟩, ⟨4, l, 33024⟩, ⟨5, l, rows * rowSection⟩] ++
  (if frames then [⟨6, l, frameSection⟩] else []) ++ (if vec then [⟨7, l, 8192⟩] else [])

/-- The sections of a context: those of its hampers, TALLY and SEAL (R430). -/
def ctxSections (use : Nat) (hs : List (Nat × Nat × Bool × Bool)) : List CtxSection :=
  hs.flatMap (fun x => hamperSections use x.1 x.2.1 x.2.2.1 x.2.2.2) ++ [⟨8, 0x3F, 65536⟩, ⟨9, 0x3F, 4096⟩]

/-- The offset at which sections begin after a header and n section entries (R429). -/
def sectionStart (n : Nat) : Nat := ceilDiv (0x100 + 32 * n) 64 * 64

/-- Bytes of a section with those up to the next multiple of 64 (R429). -/
def sectionRoom (x : CtxSection) : Nat := ceilDiv x.len 64 * 64

/-- Bytes of an image. -/
def imageBytes (xs : List CtxSection) : Nat := sectionStart xs.length + (xs.map sectionRoom).sum

/-- The largest image a context can produce (R429). -/
def largestImage (im : Image) : Nat := imageBytes (ctxSections im.pantryUse ((maskList im.mask).map (fun l => (l, 384, true, true))))

/-- The section entry of 32 bytes of a section at an offset (R429). -/
def sectionEntry (x : CtxSection) (off : Nat) : List Byte :=
  [BitVec.ofNat 8 x.kind, BitVec.ofNat 8 x.lh] ++ List.replicate 6 0 ++ bytesLE 8 off ++ bytesLE 8 x.len ++ List.replicate 8 0

/-- The section table of sections placed one after another from an offset. -/
def sectionTable : Nat → List CtxSection → List Byte
  | _, [] => []
  | off, x :: xs => sectionEntry x off ++ sectionTable (off + sectionRoom x) xs

/-- The sections of a context at its stop (R430). -/
def sectionsOf (s : State) (im : Image) (any : Bool) (hs : List Nat) : List CtxSection :=
  ctxSections im.pantryUse (hs.map (fun l =>
    let h := getH s l
    (l, basketRows h, any && h.frames.toList.any frameHolds, any && !h.vec.isEmpty)))

/-- The bytes of the sections: those of PANTRY are the pantry's, the layout of the others is open, and free bytes stand for it
(R430, log entry 36). -/
def sectionData (s : State) : List CtxSection → List Byte → List Byte
  | [], _ => []
  | x :: xs, r =>
    padTo (sectionRoom x) (if x.kind = 2 then memRead s.mem (pantryAddr x.lh 0) x.len else r.take x.len) ++
      sectionData s xs (r.drop (sectionRoom x))

/-- Whether the image area of a context can take an image of n bytes (R429). -/
def imageAreaOk (x : Context) (n : Nat) : Bool :=
  decide (n ≤ x.imageSize) && x.imageAddr % 4096 == 0 && deviceRangeOk x.imageAddr n

/-- PREEMPT of a context in a mode (R425, R426, R429). -/
def preemptCtx (s : State) (c mode : Nat) : State :=
  let x := getCtx s c
  if mode = 3 then ctxCode s c 1
  else match x.state with
    | .held => ctxCode (setCtx s c { x with state := restState x, launch := none }) c 0
    | .running =>
      if x.image.all (fun im => imageAreaOk x (largestImage im)) then
        ctxCode (setCtx s c { x with state := .stopping, mode := mode, acceptedNs := s.clockNs, stopAt := none }) c 0
      else ctxCode s c 2
    | _ => ctxCode s c 1

/-- PREEMPT written to MG_CTX_CTRL (R426). -/
def execPreempt (ctx : Fin 16) (mode : BitVec 2) (s : State) : Host.Outcome State Fault Refusal :=
  .next (preemptCtx s ctx mode.toNat)

/-- Whether a hamper is at an instruction boundary of beat t (R179, R426): it has not issued in the beat, or waits in it. -/
def atBoundary (h : Hamper) (t : Nat) : Bool :=
  let c := h.core
  c.window.isNone && !c.interlocked && c.stalled.isEmpty &&
  (match c.run with
   | .sealing _ _ => false
   | .waiting _ _ => true
   | _ => decide (c.last ≤ t))

/-- Whether no engine operation of a hamper is in flight (R426). -/
def enginesIdle (h : Hamper) : Bool :=
  h.core.starts.isEmpty && h.frames.all (fun f => f.passes.isEmpty && f.loads.isEmpty && f.turns.isEmpty) && h.vec.isEmpty &&
  h.rloads.isEmpty && h.stash.isEmpty && h.dma.isEmpty

/-- Whether the condition of a mode holds for a context in beat t (R426). -/
def modeHolds (s : State) (c t mode : Nat) : Bool :=
  (hampersOf s c).all (fun l => atBoundary (getH s l) t && (mode == 0 || enginesIdle (getH s l))) &&
  (mode != 2 || (s.uc.sealSt == .open_ && s.uc.reqs.isEmpty && s.uc.heldSweep.isNone &&
    s.uc.sweepState != .running && s.uc.sweepState != .partial_))

/-- The beat of the dies of a context, where they stand in one beat. -/
def contextBeat (s : State) (c : Nat) : Option Nat :=
  match hampersOf s c with
  | [] => some (commonBeat s - 1)
  | l :: ls => if ls.all (fun k => beatOf s k == beatOf s l) then some (beatOf s l) else none

/-- A wait in progress is abandoned: its instruction is issued again on resume (R179). -/
def unwait (t : Nat) (c : Core) : Core :=
  match c.run with
  | .waiting _ _ => { c with run := .issuing, pc := c.pc - 8, next := t }
  | _ => c

/-- Release the remote and host waiters of a context's tallies and slots (R245). -/
def releaseRemote (s : State) (c : Nat) : State :=
  (talliesOf s c).foldl (fun s p =>
    let t := getTally s p
    let ws := (t.observe ++ t.consume).filter isRemote
    releaseAll (setTally s p { t with observe := t.observe.filter (fun w => !isRemote w), consume := t.consume.filter (fun w => !isRemote w) })
      ws true t.count) s

/-- A hamper stops issue at P: its engines go on to their break points (R426, R427). -/
def stopHamper (t : Nat) (s : State) (l : Nat) : State :=
  let s := withdrawWaits s l
  modH s l (fun h =>
    let h := stopEngines h
    { h with core := { unwait t h.core with stopped := true } })

/-- STOP_POINT (R426, R245): the context stops in beat P. -/
def execStopPoint (ctx : Fin 16) (s : State) : Host.Outcome State Fault Refusal :=
  let x := getCtx s ctx
  let c := ctx.val
  .next (match contextBeat s c with
    | none => s
    | some t =>
      if x.state = .stopping ∧ x.stopAt = none ∧ s.flt.restart.all (fun r => r.ctx != c) ∧ modeHolds s c t x.mode = true then
        let beat := ((hampersOf s c).map (beatValue s)).foldl Nat.max 0
        let s := (hampersOf s c).foldl (stopHamper t) s
        let s := releaseRemote s c
        modCtx s c (fun x => { x with stopAt := some t, stopBeat := beat })
      else s)

/-- The header of a context image but its CHECK (R429). -/
def imageHeader (s : State) (c : Nat) (x : Context) (im : Image) (len sections : Nat) : List Byte :=
  padTo 0xE0 (bytesLE 4 0xC7E00716 ++ bytesLE 4 1 ++
    bytesLE 4 (x.mode + 4 * bit x.restartDue + 16 * c + 256 * bit s.part.gradeB40 + 512 * bit s.part.steppingB0) ++ bytesLE 4 sections ++
    bytesLE 8 len ++ bytesLE 8 x.stopBeat ++ padTo 32 im.hash ++ padTo 32 im.patchHash ++ bytesLE 16 x.seed.toNat ++
    bytesLE 8 s.uc.step.toNat ++ bytesLE 8 im.mask ++ bytesLE 4 (0x0716 + 65536) ++ bytesLE 4 256)

/-- The CHECK of an image in memory: SHA-256 over all of it but its own field (R429). -/
def imageCheck (s : State) (a len : Nat) : List Byte := sha256 (memRead s.mem a 0xE0 ++ memRead s.mem (a + 0x100) (len - 0x100))

/-- Write a context image (R429, R430): the header, the section table, the sections, and the CHECK; the contents are kept beside it
(log entry 36). -/
def writeImage (s : State) (c : Nat) (x : Context) (im : Image) (p : Nat) : State :=
  let hs := hampersOf s c
  let xs := sectionsOf s im (x.mode == 0) hs
  let (r, s) := drawBytes (imageBytes xs) s
  let body := padTo (sectionStart xs.length - 0x100) (sectionTable (sectionStart xs.length) xs) ++ sectionData s xs r
  let len := 0x100 + body.length
  let saved : SavedImage :=
    { addr := x.imageAddr, mode := x.mode, restartDue := x.restartDue, stopBeat := x.stopBeat, p := p, launch := x.launch
      hash := im.hash, patchHash := im.patchHash, seed := x.seed, ucStep := s.uc.step.toNat, mask := im.mask
      hampers := hs.map (fun l => { lh := Fin.ofNat 48 l, h := getH s l, pantry := memSlice s.mem (pantryAddr l 0) im.pantryUse })
      tallies := s.tly.tallies.filter (fun t => t.2.owner == some c)
      slots := (slotsOf s c).map (fun i => (i, getSlot s i)), reqs := s.uc.reqs.filter (fun r => r.ctx == c), len := len, check := [] }
  let a := x.imageAddr
  let s := storeBytes s a (imageHeader s c x im len xs.length)
  let s := storeBytes s (a + 0x100) body
  let check := imageCheck s a len
  let s := storeBytes s (a + 0xE0) check
  { s with images := s.images ++ [{ saved with check := check }]
           ctxs := s.ctxs.setIfInBounds c { x with imageLen := len } }

/-- The hampers of a pre-empted context are free; UC keeps no request that the image holds (R424, R430). -/
def freeHampers (s : State) (c : Nat) : State :=
  let s := (hampersOf s c).foldl (fun s l => modH s l (fun h =>
    let h := endHamper h
    { h with core := { h.core with launched := false } })) s
  let reqs := s.uc.reqs.filter (fun r => r.ctx != c)
  { s with uc := { s.uc with reqs := reqs, owner := if reqs.isEmpty ∧ s.uc.owner = some c ∧ s.uc.sealSt = .open_ then none else s.uc.owner } }

/-- PREEMPT_COMPLETE (R427, R429): the tail is over, the image is written and the context is PREEMPTED. -/
def execPreemptComplete (ctx : Fin 16) (s : State) : Host.Outcome State Fault Refusal :=
  let c := ctx.val
  let x := getCtx s c
  .next (match x.stopAt, x.image with
    | some p, some im =>
      if x.state = .stopping ∧ contextQuiet s c = true then
        let s := freeHampers (writeImage s c x im p) c
        let s := countReg s mgmtPage Reg.mgCtxPreempts 1
        ctxCode (modCtx s c (fun x => { x with state := .preempted, stopAt := none, stopNs := s.clockNs - x.acceptedNs })) c 0
      else s
    | _, _ => s)

/-! ## Restore (R431–R434) -/

/-- The header field of an image in memory. -/
def headerField (s : State) (a off n : Nat) : Nat := memNat s.mem (a + off) n

/-- Whether section entry i of an image is well formed (R429, R430). -/
def sectionOk (s : State) (a i : Nat) : Bool :=
  let o := 0x100 + 32 * i
  let kind := headerField s a o 1
  let off := headerField s a (o + 8) 8
  decide (1 ≤ kind) && decide (kind ≤ 9) && headerField s a (o + 2) 6 == 0 && headerField s a (o + 0x18) 8 == 0 && off % 64 == 0 &&
  decide (off + headerField s a (o + 0x10) 8 ≤ headerField s a 0x10 8)

/-- Whether the header and the section table of an image are well formed (R429, R431). -/
def headerOk (s : State) (a : Nat) : Bool :=
  a % 4096 == 0 && deviceRangeOk a 0x100 && headerField s a 0 4 == 0xC7E00716 && headerField s a 4 4 == 1 &&
  decide (headerField s a 8 4 < 2 ^ 10) && !(headerField s a 8 4).testBit 3 && (memRead s.mem (a + 0x88) 0x58).all (· == 0) &&
  decide (0x100 + 32 * headerField s a 0xC 4 ≤ headerField s a 0x10 8) && deviceRangeOk a (headerField s a 0x10 8) &&
  (List.range (headerField s a 0xC 4)).all (sectionOk s a)

/-- Whether an image has a section of a KIND (R430). -/
def hasSection (s : State) (a kind : Nat) : Bool :=
  (List.range (headerField s a 0xC 4)).any (fun i => headerField s a (0x100 + 32 * i) 1 == kind)

/-- The image at an address, found by its CHECK (log entry 36). -/
def findImage (s : State) (a : Nat) : Option SavedImage := s.images.find? (fun i => i.check == memRead s.mem (a + 0xE0) 32)

/-- The result of a RESTORE of the image at a context's address, in the order of the table of R431: a code, or the image. -/
def restoreCheck (s : State) (c : Nat) : Except Nat SavedImage :=
  let x := getCtx s c
  let a := x.imageAddr
  if x.state ≠ .preempted ∧ x.state ≠ .loaded then .error 1
  else if !headerOk s a then .error 3
  else if imageCheck s a (headerField s a 0x10 8) ≠ memRead s.mem (a + 0xE0) 32 then .error 4
  else match findImage s a with
    | none => .error 3
    | some i =>
      let im := x.image
      if im.all (fun m => m.hash != i.hash || m.patchHash != i.patchHash) then .error 5
      else if (hasSection s a 6 || hasSection s a 7) && (headerField s a 0x80 4 != 0x0716 + 65536 || headerField s a 0x84 4 != 256) then .error 6
      else if im.any (fun m => (maskList m.mask).any (fun l => decide (pantrySize s l < m.pantryUse))) then .error 7
      else if (!i.reqs.isEmpty || i.ucStep != s.uc.step.toNat) && (!s.uc.reqs.isEmpty || s.uc.sweepState == .running ||
          s.uc.sweepState == .partial_ || s.uc.heldSweep.isSome) then .error 8
      else if (physMask s i.mask).any (physBusy s c) then .error 10
      else if (physMask s i.mask).any (fun h => !hamperOn s h) then .error 11
      else .ok i

/-- RESTORE of a context (R431): refused with nothing written, or the context becomes RESTORING. -/
def restoreCtx (s : State) (c : Nat) : State :=
  match restoreCheck s c with
  | .error code => ctxCode s c code
  | .ok i => ctxCode (modCtx s c (fun x => { x with state := .restoring, saved := some i })) c 0

/-- RESTORE written to MG_CTX_CTRL (R431). -/
def execRestore (ctx : Fin 16) (s : State) : Host.Outcome State Fault Refusal := .next (restoreCtx s ctx)

/-- A beat moved by d. -/
def shiftN (d : Int) (n : Nat) : Nat := ((n : Int) + d).toNat

/-- A tag moved by d beats. -/
def shiftTag (d : Int) (g : OpTag) : OpTag := { g with winEnd := shiftN d g.winEnd }

/-- A frame as it resumes: its operations on their original beats, moved by d; rows done are not repeated (R433). -/
def shiftFrame (d : Int) (f : Frame) : Frame :=
  let o := Option.map (shiftN d)
  { f with lastLoad := o f.lastLoad, lastSwap := o f.lastSwap, lastPass := f.lastPass.map (fun x => (shiftN d x.1, x.2))
           waves := f.waves.map (fun w => (w.1, shiftN d w.2))
           passes := f.passes.map (fun (p : PassRun) =>
             { p with b0 := shiftN d p.b0, first := p.limit, limit := p.d.rows, tag := shiftTag d p.tag })
           loads := f.loads.map (fun (l : LoadRun) => { l with b0 := shiftN d l.b0, ran := true, tag := shiftTag d l.tag })
           turns := f.turns.map (fun (u : TurnRun) => { u with b0 := shiftN d u.b0, ran := true, tag := shiftTag d u.tag })
           t0 := { f.t0 with turned := o f.t0.turned, loaded := o f.t0.loaded }
           t1 := { f.t1 with turned := o f.t1.turned, loaded := o f.t1.loaded } }

/-- A control core as it resumes in beat q, moved by d (R433). -/
def shiftCore (d : Int) (q : Nat) (c : Core) : Core :=
  { c with run := if c.ended then .idle else .issuing, stopped := false, launched := true, start := c.start + d
           next := Nat.max q (shiftN d c.next), last := shiftN d c.last, pend := c.pend.map (fun p => { p with due := shiftN d p.due })
           sealBeat := none }

/-- A hamper as it resumes in beat q (R433). -/
def shiftHamper (d : Int) (q : Nat) (h : Hamper) : Hamper :=
  { h with core := shiftCore d q h.core, frames := h.frames.map (shiftFrame d)
           vec := h.vec.map (fun (v : VecRun) => { v with b0 := shiftN d v.b0, stop := false, tag := shiftTag d v.tag
                                                          cut := if v.cut.isSome then v.cut else some v.len })
           rloads := h.rloads.map (fun (r : RloadRun) => { r with b0 := shiftN d r.b0, ran := true, tag := shiftTag d r.tag })
           stash := h.stash.map (fun (r : StashRun) => { r with b0 := shiftN d r.b0, ran := true, tag := shiftTag d r.tag })
           dma := h.dma.map (fun (r : DmaRun) => { r with b0 := shiftN d r.b0, ran := true, tag := shiftTag d r.tag })
           list := { h.list with items := h.list.items.map (fun (i : ListItem) => { i with due := shiftN d i.due }) } }

/-- The stacks of a restored hamper: those the context owns take the saved tops, depth and peak (R430, R432). -/
def restoreStacks (c : Nat) (now saved : Vector Stack 8) : Vector Stack 8 :=
  now.zipWith (fun k s => if k.ctx = c ∧ s.ctx = c then { k with topH := s.topH, topE := s.topE, depth := s.depth, peak := s.peak } else k) saved

/-- Install a saved hamper (R432). -/
def installHamper (c : Nat) (d : Int) (q : Nat) (s : State) (x : SavedHamper) : State :=
  let now := getH s x.lh
  let h := shiftHamper d q x.h
  let n := (ctxMask s c |> fun _ => ((getCtx s c).image.map (·.pantryUse)).getD 0)
  let s := setH s x.lh { h with core := { h.core with ctx := c }, stackRegs := restoreStacks c now.stackRegs x.h.stackRegs
                                vecInject := now.vecInject, feedInject := now.feedInject }
  { s with mem := memUnslice s.mem (pantryAddr x.lh 0) n x.pantry }

/-- Install the SEAL section: UC_STEP and the requests collected (R432). -/
def installSeal (s : State) (i : SavedImage) : State :=
  let s := if i.ucStep = s.uc.step.toNat then s else ucStepWrite s i.ucStep
  if i.reqs.isEmpty then s
  else { s with uc := { s.uc with reqs := s.uc.reqs ++ i.reqs, owner := (i.reqs.head?.map (·.ctx)) } }

/-- RESTORE_COMPLETE (R432–R434): the state is installed and the context goes on at P, or its step restarts. -/
def execRestoreComplete (ctx : Fin 16) (s : State) : Host.Outcome State Fault Refusal :=
  let c := ctx.val
  let x := getCtx s c
  .next (match x.saved with
    | none => s
    | some i =>
      if x.state ≠ .restoring ∨ (i.restartDue = true ∧ s.flt.restart.isSome = true) then s
      else
        let q := commonBeat s
        let d : Int := (q : Int) - i.p
        let s := i.hampers.foldl (installHamper c d q) s
        let s := installSeal s { i with reqs := i.reqs.map (fun (r : SealReq) => { r with ctx := c }) }
        let s := modCtx s c (fun x => { x with state := .running, saved := none, seed := i.seed, launch := x.launch.orElse (fun _ => i.launch) })
        let s := countReg s mgmtPage Reg.mgCtxRestores 1
        if i.restartDue then
          let s := stopContext s c
          { s with flt := { s.flt with restart := some { ctx := c, goal := s.flt.attempt + 1, fromNs := attemptNs s c } } }
        else s)

/-! ## Context reset (R142, R143, R227, R245, R435) -/

/-- What a context reset does at UC: its sweep stops PARTIAL, its held sweep and its requests are discarded, and a seal it holds
WITHHELD or REFUSED opens (R121, R142, R321). -/
def resetAtUc (s : State) (c : Nat) : State :=
  let s := if s.uc.sweep.any (fun w => w.ctx == c) then stopSweep s else s
  let mine := s.uc.owner = some c
  let u := s.uc
  let lost := mine ∧ (u.sealSt = .withheld ∨ u.sealSt = .refused)
  let refused := mine ∧ u.sealSt = .refused
  let reqs := u.reqs.filter (fun r => r.ctx != c)
  { s with uc := { u with heldSweep := if u.heldSweep.any (fun w => w.ctx == c) then none else u.heldSweep
                          reqs := reqs, held := u.held.filter (fun r => r.ctx != c), leaving := u.leaving.filter (fun r => r.ctx != c)
                          sealSt := if lost then .open_ else u.sealSt
                          owner := if lost ∨ (mine ∧ u.sealSt = .open_ ∧ reqs.isEmpty = true) then none else u.owner }
           flt := { s.flt with attempt := if refused then 1 else s.flt.attempt, refusals := if refused then 0 else s.flt.refusals
                               restart := if s.flt.restart.any (fun r => r.ctx == c) then none else s.flt.restart } }

/-- What a context reset does to the tallies and barriers of the context (R245): completions of its open DMAs that are still to come
signal nothing and count as lost. -/
def resetTallies (s : State) (c : Nat) : State :=
  let s := (talliesOf s c).foldl resetTally s
  let s := (slotsOf s c).foldl (fun s i => resetSlot (tellAbandon s i) i) s
  let s := dropSignals s c
  let n := s.dmas.countP (fun d => d.ctx == c && d.tally.isSome)
  countReg { s with dmas := s.dmas.map (fun (d : OpenDma) => if d.ctx = c then { d with tally := none } else d) } tallyPage Reg.tlyRemoteLost n

/-- Context reset (R245, R425, R435): it ends the context's programs; its launch ends with code 2 once the tail is over. -/
def resetContext (s : State) (c : Nat) : State :=
  let x := getCtx s c
  if x.state = .empty then ctxCode s c 1
  else if x.state = .resetting then s
  else
    let aborted := x.state = .stopping ∨ x.state = .restoring
    let s := rmbContextReset s c
    let hs := hampersOf s c
    let s := hs.foldl stopIssue s
    let s := hs.foldl emptyList s
    let s := resetAtUc (resetTallies (zeroStacks s c) c) c
    let s := ctxCode s c (if aborted then 12 else 0)
    let s := modCtx s c (fun x => { x with state := .resetting, stopAt := none, saved := none, restartDue := false
                                           launch := if x.state = .held ∨ x.state = .preempted then none else x.launch })
    finishResets s

/-- CONTEXT_RESET: RESET written to MG_CTX_CTRL (R245). -/
def execContextReset (ctx : Fin 16) (s : State) : Host.Outcome State Fault Refusal := .next (resetContext s ctx)

/-- A write of MG_CTX_CTRL (R437): one of PREEMPT, RESTORE and RESET acts on the selected context; more than one is refused with STATE
(log entry 38). -/
def ctxCtrl (s : State) (v : Nat) : State :=
  let c := getReg s mgmtPage Reg.mgCtxSel % 16
  let n := bit (v.testBit 0) + bit (v.testBit 1) + bit (v.testBit 2)
  if n = 0 then s
  else if 1 < n then ctxCode s c 1
  else if v.testBit 0 then preemptCtx s c (bits v 5 4)
  else if v.testBit 1 then restoreCtx s c
  else resetContext s c

/-- STATE of a context as MG_CTX_STATUS shows it (R425). -/
def ctxStateCode : CtxState → Nat
  | .empty => 0
  | .loaded => 1
  | .held => 2
  | .running => 3
  | .stopping => 4
  | .preempted => 5
  | .restoring => 6
  | .resetting => 7

/-- MG_CTX_STATUS (R437). -/
def ctxStatusWord (s : State) (c : Nat) : Nat :=
  let x := getCtx s c
  let last := s.images.reverse.find? (fun i => i.addr == x.imageAddr)
  ctxStateCode x.state + 8 * bit ((last.map (·.restartDue)).getD false) + 16 * x.code + 2 ^ 12 * ((last.map (·.mode)).getD 0)

/-- MG_CTX_MAP (R437). -/
def ctxMapWord (s : State) : Nat :=
  ((List.range 16).map (fun c => 2 ^ c * bit ((getCtx s c).state != .empty) + 2 ^ (16 + c) * bit (ctxRuns (getCtx s c)))).sum

/-! ## The watchdog (R187) -/

/-- BEAT_WATCHDOG (R187): the first unacknowledged unit is recorded, and every context that owns one is reset; one that belongs to no
context is a failed unit. -/
def execBeatWatchdog (die : Fin 4) (s : State) : Host.Outcome State Fault Refusal :=
  let t := s.dies[die]
  let late := ((dieHampers die).map (·.val)).filter (fun l => !hamperAcked (getH s l) t)
  let first := late.foldl (fun m l => Nat.min m (physOf s l)) 63
  let owners := dedup ((late.filter (fun l => (getH s l).core.launched)).map (fun l => (getH s l).core.ctx))
  let alone := late.filter (fun l => !(getH s l).core.launched)
  .next (if dieReady s die then s
    else
      let info := die.val + 4 * first + 256 * (owners.headD 0) + 4096 * late.length
      let s := setReg (setReg s mgmtPage Reg.mgWdInfo info) mgmtPage Reg.mgWdBeat (packageBeats s)
      let s := emit (setErr s mgmtPage 1) evBeatWatchdog mgmtPage (bytesLE 4 info ++ bytesLE 8 (packageBeats s))
      let s := owners.foldl resetContext s
      alone.foldl (fun s l => countPermanent s (unitHamper (physOf s l)) 3) s)

end Sys2Proof.Machine
end

