-- ==== Sys2Proof/Machine/Loader.lean ====
section
/-!
DEFINITION. Machine/Loader.lean: program images: load, unload, relocation and patching, timetables and tally maps
(07_beat_schedule_contract.md, R192, R195–R198, R211, R212; 09_tallies.md, R247; 16_security.md, R413).
-/
namespace Sys2Proof.Machine

/-- A refusal: its code (R212), and the section and record at which it arose (R211). -/
abbrev Refused := Nat × Nat × Nat

/-- Go on while a condition holds. -/
def demand (c : Bool) (code : Nat) (sec : Nat := 0) (rec_ : Nat := 0) : Except Refused Unit := if c then .ok () else .error (code, sec, rec_)

/-! ## Header and section table (R195, R196) -/

/-- A section entry (R196) with its bytes in the file. -/
structure ImgSec where
  index : Nat
  kind : Nat
  place : Nat
  lh : Nat
  align : Nat
  off : Nat
  size : Nat
  addr : Nat
  data : List Byte

/-- Section entry i of an image. -/
def parseSec (img : List Byte) (i : Nat) : ImgSec :=
  let b := (img.drop (0x40 + 0x20 * i)).take 32
  let off := fieldN b 8 8
  let size := fieldN b 0x10 8
  let kind := fieldN b 0 1
  { index := i, kind := kind, place := fieldN b 1 1, lh := fieldN b 2 1, align := fieldN b 3 1, off := off, size := size, addr := fieldN b 0x18 8
    data := if kind = 3 then [] else (img.drop off).take size }

/-- Whether a section is placed in memory, not consumed by the loader (R196). -/
def secPlaced (x : ImgSec) : Bool := decide (1 ≤ x.kind) && decide (x.kind ≤ 4)

/-- Whether a section entry is well formed (R196). -/
def secOk (img : List Byte) (mask : Nat) (x : ImgSec) : Bool :=
  decide (1 ≤ x.kind) && decide (x.kind ≤ 9) && fieldN ((img.drop (0x44 + 0x20 * x.index)).take 4) 0 4 == 0 &&
  (x.lh == 0x3F || (decide (x.lh < 48) && mask.testBit x.lh)) && (x.kind == 3 || decide (x.off + x.size ≤ img.length)) &&
  (if secPlaced x then
    decide (x.place ≤ 3) && decide (6 ≤ x.align) && decide (x.align ≤ 30) && (x.place == 2 || x.addr == 0) && (x.place != 3 || x.lh != 0x3F) &&
    (x.place != 2 || x.addr % 2 ^ x.align == 0)
  else x.addr == 0)

/-- The header of an image (R195). -/
structure ImgHead where
  len : Nat
  secs : Nat
  mask : Nat
  symbols : Nat
  pantryUse : Nat
  entrySec : Nat

/-- The images that are loaded. -/
def residentImages (s : State) : List Image := s.ctxs.toList.filterMap (·.image)

/-- Check the header of a staged image of n bytes (R195, R197). -/
def parseHead (b : List Byte) (n : Nat) : Except Refused ImgHead := do
  demand (decide (64 ≤ n) && fieldN b 0 4 == 0x4F560716 && fieldN b 4 4 == 1) 1
  demand (fieldN b 8 4 == 0x0716 + 65536) 2
  let h : ImgHead := { len := fieldN b 0x10 8, secs := fieldN b 0x0C 4, mask := fieldN b 0x18 8, symbols := fieldN b 0x20 4
                       pantryUse := fieldN b 0x24 4, entrySec := fieldN b 0x28 4 }
  demand (decide (1 ≤ h.secs) && decide (h.secs ≤ 64) && decide (h.mask < 2 ^ 48) && decide (h.symbols ≤ 65536) && decide (h.entrySec < h.secs) &&
    fieldN b 0x2C 20 == 0 && decide (0x40 + 0x20 * h.secs ≤ h.len) && decide (h.len ≤ n)) 1
  return h

/-- Check the sections of an image (R195, R196, R247, R256). -/
def parseSecs (s : State) (h : ImgHead) (img : List Byte) : Except Refused (List ImgSec) := do
  let xs := (List.range h.secs).map (parseSec img)
  match xs.find? (fun x => !secOk img h.mask x) with
  | some x => .error (1, x.index, 0)
  | none =>
    demand (xs.any (fun x => x.index == h.entrySec && (x.kind == 1 || x.kind == 2) && decide (384 ≤ x.size))) 1 h.entrySec
    match (xs.filter (fun x => x.kind == 9)).drop 1 with
    | x :: _ => .error (13, x.index, 0)
    | [] =>
      demand ((maskList h.mask).all (fun l => decide (h.pantryUse ≤ pantrySize s l))) 4
      return xs

/-! ## Placement (R196, R197) -/

/-- Whether a range lies where PLACE says: in the tier, and in HBM3E of one die (R196, R251). -/
def placeOk (x : ImgSec) (a : Nat) : Bool :=
  match x.place with
  | 0 => hbmRangeOk a x.size
  | 1 => lpRangeOk a x.size
  | 2 => deviceRangeOk a x.size
  | _ => hbmRangeOk a x.size && dieOfHbm a == x.lh / 12 && a / 2 ^ 34 == (a + x.size - 1) / 2 ^ 34

/-- Whether an address may hold a section: where PLACE says, aligned, and over no occupied range. -/
def addrFree (x : ImgSec) (used : List (Nat × Nat)) (a : Nat) : Bool :=
  placeOk x a && a % 2 ^ x.align == 0 && !used.any (rangesMeet (a, x.size))

/-- The ends below which a section could lie highest: those of the tier or of a die's pieces of it, and the starts of occupied ranges. -/
def placeEnds (x : ImgSec) (used : List (Nat × Nat)) : List Nat :=
  (match x.place with
   | 1 => [larderBase]
   | 3 => (List.range 9).map (fun n => n * 2 ^ 36 + (x.lh / 12 + 1) * 2 ^ 34)
   | _ => [hbmEnd]) ++ used.map (·.1)

/-- The address of a section, none where it does not fit. Where PLACE leaves the address open, a free number n names it; one that is not
possible gives way to the highest that is (log entry 49). -/
def placeSec (x : ImgSec) (used : List (Nat × Nat)) (n : Nat) : Option Nat :=
  if x.place = 2 then (if addrFree x used x.addr then some x.addr else none)
  else
    let step := 2 ^ x.align
    let a := if x.place = 1 then lpBase + n % ((larderBase - lpBase) / step) * step else n % (hbmEnd / step) * step
    if addrFree x used a then some a
    else
      let cs := ((placeEnds x used).filterMap (fun e => if x.size ≤ e then some ((e - x.size) / step * step) else none)).filter (addrFree x used)
      match cs with
      | [] => none
      | c :: cs => some (cs.foldl Nat.max c)

/-- Whether a PANTRY_INIT section is fixed in the pantry window (log entry 37). -/
def inWindowSec (x : ImgSec) : Bool := x.kind == 4 && x.place == 2 && regionOf x.addr == .pantry

/-- Place the sections of an image in table order (R197). -/
def placeAll (s : State) (used : List (Nat × Nat)) : List ImgSec → Except Refused (List Placed)
  | [] => .ok []
  | x :: xs => do
    if !secPlaced x || x.size == 0 then placeAll s used xs
    else if inWindowSec x then
      demand (pantryRangeOk s x.addr x.size) 4 x.index
      placeAll s used xs
    else
      match placeSec x used (Config.freeNat (s.free + x.index)) with
      | none => .error (3, x.index, 0)
      | some a =>
        let ps ← placeAll s ((a, x.size) :: used) xs
        return { kind := x.kind, lh := x.lh, addr := a, size := x.size, index := x.index } :: ps

/-! ## Relocation (R198) -/

/-- Bytes of the word that holds a field of a record's KIND. -/
def relocBytes (kind : Nat) : Nat := if kind = 2 then 4 else 8

/-- A field with its image value plus a base or symbol value; none where the result does not fit (R155, R198). -/
def relocField (kind orig add : Nat) : Option Nat :=
  match kind with
  | 1 => if orig + add < 2 ^ 64 then some (orig + add) else none
  | 2 => if orig + add < 2 ^ 32 then some (orig + add) else none
  | 3 =>
    let r := toSigned 46 (orig % 2 ^ 46) + (add : Int)
    if decide (-(2 ^ 45 : Int) ≤ r) && decide (r < 2 ^ 45) then some (orig / 2 ^ 46 * 2 ^ 46 + ofSigned 46 r) else none
  | _ =>
    let r := orig % 2 ^ 24 + add
    if r < 2 ^ 24 then some (orig / 2 ^ 24 * 2 ^ 24 + r) else none

/-- Check a relocation record of an image: the field lies in a placed section with bytes, and it names a placed section or a symbol. -/
def parseReloc (xs : List ImgSec) (ps : List Placed) (symbols : Nat) (b : List Byte) : Option RelocRec :=
  let kind := fieldN b 2 1
  let v := fieldN b 4 4
  let off := fieldN b 8 8
  let n := relocBytes kind
  match xs.find? (fun x => x.index == fieldN b 0 2 && x.kind != 3), ps.find? (fun p => p.index == fieldN b 0 2) with
  | some x, some p =>
    let sym := v.testBit 31
    let v := v % 2 ^ 31
    if decide (1 ≤ kind) && decide (kind ≤ 4) && fieldN b 3 1 == 0 && decide (off + n ≤ x.size) &&
        (if sym then decide (v < symbols) else ps.any (fun q => q.index == v)) then
      some { target := x.index, kind := kind, symbol := if sym then some v else none, section_ := v, off := off, orig := fieldN x.data off n
             addr := p.addr + off }
    else none
  | _, _ => none

/-- Read the records of a RELOC section from record i on. -/
def parseRelocs (xs : List ImgSec) (ps : List Placed) (symbols sec : Nat) : Nat → List (List Byte) → Except Refused (List RelocRec)
  | _, [] => .ok []
  | i, b :: bs => do
    match if b.length = 16 then parseReloc xs ps symbols b else none with
    | none => .error (9, sec, i)
    | some r =>
      match r.symbol, ps.find? (fun q => q.index == r.section_) with
      | none, some q => demand (relocField r.kind r.orig q.addr).isSome 9 sec i
      | _, _ => .ok ()
      let rs ← parseRelocs xs ps symbols sec (i + 1) bs
      return r :: rs

/-- The bytes a section-base record writes, with their address. -/
def relocBase (ps : List Placed) (r : RelocRec) : Option (Nat × List Byte) :=
  match r.symbol, ps.find? (fun q => q.index == r.section_) with
  | none, some q => (relocField r.kind r.orig q.addr).map (fun v => (r.addr, bytesLE (relocBytes r.kind) v))
  | _, _ => none

/-! ## Recipes (R105, R131, R197) -/

/-- The recipes of a section: SLOT, LENGTH and the words, each 32 bits, back to back (log entry 50). n bounds them. -/
def parseRecipes (sec slots : Nat) : Nat → Nat → List Byte → Except Refused (List (Nat × List W32))
  | _, _, [] => .ok []
  | 0, i, _ => .error (1, sec, i)
  | n + 1, i, b => do
    let slot := fieldN b 0 4
    let len := fieldN b 4 4
    demand (decide (8 + 4 * len ≤ b.length) && decide (slot < slots)) 1 sec i
    let ws := (List.range len).map (fun k => BitVec.ofNat 32 (fieldN b (8 + 4 * k) 4))
    demand (checkRecipe (slots == 16) ws len).isNone 7 sec i
    let rs ← parseRecipes sec slots n (i + 1) (b.drop (8 + 4 * len))
    return (slot, ws) :: rs

/-- Whether a slot holds a different valid recipe, or may not be written now, and is claimed by another image (R106, R132, R197). -/
def recipeClash (r : RecipeStore) (slot : Nat) (ws : List W32) (claimed held : Bool) : Bool :=
  if slotLen r slot == ws.length && slotWords r slot ws.length == ws then false else held || (slotLen r slot != 0 && claimed)

/-- The recipe slots a VRECIPES section writes: those of its hamper, or of every hamper of the mask (R106). -/
def vTargets (s : State) (mask : Nat) (x : ImgSec) : List Nat := if x.lh = 0x3F then physMask s mask else [physOf s x.lh]

/-- The recipes of a section, checked against the slots they would write. -/
def planRecipes (s : State) (mask : Nat) (x : ImgSec) : Except Refused (List (Option Nat × Nat × List W32)) := do
  let upd := x.kind == 6
  let rs ← parseRecipes x.index (if upd then 16 else 64) x.data.length 0 x.data
  let ts : List (Option Nat) := if upd then [none] else (vTargets s mask x).map some
  let bad := rs.zipIdx.find? (fun r => ts.any (fun t => match t with
    | none => recipeClash s.ustore r.1.1 r.1.2 ((residentImages s).any (fun i => i.uslots.contains r.1.1)) (s.uc.sweepState == .running)
    | some p => recipeClash (s.stores[p]?.getD .empty) r.1.1 r.1.2 ((residentImages s).any (fun i => i.vslots.contains (p, r.1.1))) (slotHeld s p r.1.1)))
  match bad with
  | some r => .error (8, x.index, r.2)
  | none => return ts.flatMap (fun t => rs.map (fun r => (t, r.1, r.2)))

/-- Write and commit a recipe. -/
def loadRecipe (s : State) (x : Option Nat × Nat × List W32) : State :=
  let put := fun (r : RecipeStore) => (commitSlot x.1.isNone (x.2.2.zipIdx.foldl (fun r w => storeWord r x.2.1 w.2 w.1) r) x.2.1 x.2.2.length).1
  match x.1 with
  | none => { s with ustore := put s.ustore }
  | some p => { s with stores := s.stores.setIfInBounds p (put (s.stores[p]?.getD .empty)) }

/-! ## Timetables (R192) -/

/-- The wheel entries a grant record sets, with their owner; none where it breaks a port or owner rule. -/
def parseGrant (s : State) (b : List Byte) : Option (List Nat × Nat) :=
  let port := fieldN b 0 2
  let lane := fieldN b 2 1
  let own := fieldN b 4 2
  let lh := own % 64
  let stack := port.testBit 15
  let p := port % 64
  if b.length == 16 && bits port 14 6 == 0 && fieldN b 3 1 == 0 && decide (own < 256) && fieldN b 6 2 == 0 && decide (lh < 48) &&
      bits own 7 6 != 0 && decide (lane < (if stack then 3 else 2)) && decide (p < (if stack then 16 else 48)) &&
      (if stack then p / 4 == lh / 12 else p == lh) then
    some (((List.range 64).filter (fun i => (fieldN b 8 8).testBit i)).map (fun i => wheelKey stack p (phaseOf s lh) lane i), own)
  else none

/-- Read the grants of a TIMETABLE section; used are the entries granted so far. -/
def planGrants (s : State) (sec : Nat) (used : List Nat) : Nat → List (List Byte) → Except Refused (List (Nat × Nat))
  | _, [] => .ok []
  | i, b :: bs => do
    match parseGrant s b with
    | none => .error (6, sec, i)
    | some (ks, own) =>
      demand (!ks.any (fun k => used.contains k || sparseGet 0 s.wheels k != 0)) 5 sec i
      let rest ← planGrants s sec (ks ++ used) (i + 1) bs
      return ks.map (fun k => (k, own)) ++ rest

/-! ## Tally maps (R247) -/

/-- A record of a TALLYMAP section (R247). -/
structure MapRec where
  vid : Nat
  kind : Nat
  home : Nat
  init : Nat
  target : Nat
  hampers : Nat
  modules : Nat
  reserved : Bool

/-- A record from its 64 bytes. -/
def parseMapRec (b : List Byte) : MapRec :=
  { vid := fieldN b 0 2, kind := fieldN b 2 1, home := fieldN b 3 1, init := fieldN b 4 4, target := fieldN b 8 8, hampers := fieldN b 0x10 8
    modules := fieldN b 0x20 32, reserved := fieldN b 0x18 8 != 0 }

/-- Whether a record is well formed (R247). -/
def mapRecOk (s : State) (mask : Nat) (r : MapRec) : Bool :=
  decide (r.vid < 4096) && !r.reserved && decide (1 ≤ r.kind) && decide (r.kind ≤ 4) &&
  (match r.kind with
   | 1 => (decide (r.home < 4) || r.home == 0xFF) && r.target == 0
   | 2 => r.target == 0 && bits r.hampers 63 49 == 0 && covers mask (r.hampers % 2 ^ 48) && (r.modules == 0 || r.modules.testBit (selfModule s))
   | 3 => r.target == r.target % 256 + bits r.target 27 16 * 65536 && inSite s
   | _ => decide (r.target < 2 ^ 14))

/-- Take an entry of a list of free numbers, named by a free number (log entry 49). -/
def takeFree (n : Nat) (l : List Nat) : Option (Nat × List Nat) :=
  (l[n % Nat.max 1 l.length]?).map (fun x => (x, l.filter (· != x)))

/-- Tallies and slots still free while a map is read, and the translations given. -/
structure MapPlan where
  tallies : List Nat
  slots : List Nat
  table : List (MapRec × Nat)

/-- Give a record its physical tally or slot; none where they run short. -/
def mapRecord (s : State) (i : Nat) (m : MapPlan) (r : MapRec) : Option MapPlan :=
  let n := Config.freeNat (s.free + 64 + i)
  match r.kind with
  | 1 => (takeFree n (m.tallies.filter (fun p => r.home == 0xFF || p / 4096 == r.home))).map (fun x =>
      { m with tallies := m.tallies.filter (· != x.1), table := (r, x.1) :: m.table })
  | 2 => (takeFree n m.slots).map (fun x => { m with slots := x.2, table := (r, x.1) :: m.table })
  | _ => some { m with table := (r, 0) :: m.table }

/-- Give every record its place: those with a HOME bank first. -/
def mapRecords (s : State) : Nat → MapPlan → List MapRec → Option MapPlan
  | _, m, [] => some m
  | i, m, r :: rs => (mapRecord s i m r).bind (fun m => mapRecords s (i + 1) m rs)

/-- Read a TALLYMAP section (R247). -/
def planMap (s : State) (mask sec : Nat) (b : List Byte) : Except Refused (List (MapRec × Nat)) := do
  let n := fieldN b 0 4
  demand (decide (16 ≤ b.length) && decide (n ≤ 4096) && fieldN b 4 12 == 0 && decide (16 + 64 * n ≤ b.length)) 13 sec
  let rs := (List.range n).map (fun i => parseMapRec ((b.drop (16 + 64 * i)).take 64))
  match rs.zipIdx.find? (fun r => !mapRecOk s mask r.1 || (rs.take r.2).any (fun q => q.vid == r.1.vid)) with
  | some r => .error (13, sec, r.2)
  | none =>
    let homed := fun (r : MapRec) => r.kind == 1 && r.home != 0xFF
    let free : MapPlan := { tallies := (List.range 16384).filter (fun p => (getTally s p).owner.isNone)
                            slots := (List.range 64).filter (fun i => (getSlot s i).owner.isNone), table := [] }
    match mapRecords s 0 free (rs.filter homed ++ rs.filter (fun r => !homed r)) with
    | some m => return m.table
    | none => .error (13, sec, 0)

/-- Write one translation with its tally or slot (R231, R247). -/
def installMap (c : Nat) (s : State) (x : MapRec × Nat) : State :=
  let r := x.1
  let e : Entry := match r.kind with
    | 1 => ⟨.local_, 0, x.2⟩
    | 2 => ⟨.barrier, 0, x.2⟩
    | 3 => ⟨.remote, r.target % 256, bits r.target 27 16⟩
    | _ => ⟨.host, 0, r.target % 2 ^ 14⟩
  let s := { s with tly := { s.tly with table := sparseSet .unmapped s.tly.table (c * 4096 + r.vid) e } }
  match r.kind with
  | 1 => setTally s x.2 { count := r.init, init := r.init, observe := [], consume := [], owner := some c }
  | 2 => setSlot s x.2 { BarSlot.free with hampers := r.hampers, modules := r.modules, owner := some c, vid := r.vid }
  | _ => s

/-! ## Load (R197) -/

/-- What a load will do, once every check has passed. -/
structure LoadPlan where
  head : ImgHead
  secs : List ImgSec
  placed : List Placed
  relocs : List RelocRec
  recipes : List (Option Nat × Nat × List W32)
  grants : List (Nat × Nat)
  map : List (MapRec × Nat)
  entries : List Nat
  hash : List Byte

/-- The bytes of a placed section after relocation. -/
def relocated (p : LoadPlan) (x : ImgSec) : List Byte :=
  (p.relocs.filter (fun r => r.target == x.index)).foldl (fun bs r => match relocBase p.placed r with
    | some (_, v) => bs.take r.off ++ v ++ bs.drop (r.off + v.length)
    | none => bs) x.data

/-- The entry addresses of a table of 48 eight-byte words. -/
def entryTable (b : List Byte) : List Nat := (List.range 48).map (fun l => fieldN b (8 * l) 8)

/-- The ranges that resident images occupy. -/
def usedRanges (s : State) : List (Nat × Nat) := (residentImages s).flatMap (fun i => i.placed.map (fun p => (p.addr, p.size)))

/-- Check a staged image and plan its load, in the order of R197. -/
def planLoad (s : State) (ctx addr n : Nat) : Except Refused LoadPlan := do
  demand (getCtx s ctx).image.isNone 10
  demand (addr % 64 == 0 && deviceRangeOk addr n) 15
  let staged := memRead s.mem addr n
  let h ← parseHead staged n
  let img := staged.take h.len
  let xs ← parseSecs s h img
  let ps ← placeAll s (usedRanges s) xs
  let rs ← ((xs.filter (fun x => x.kind == 8)).mapM (fun x => parseRelocs xs ps h.symbols x.index 0 (groupsOf 16 x.data.length x.data)))
  let p : LoadPlan := { head := h, secs := xs, placed := ps, relocs := rs.flatten, recipes := [], grants := [], map := [], entries := []
                        hash := sha256 img }
  let entries := entryTable (((xs.find? (fun x => x.index == h.entrySec)).map (relocated p)).getD [])
  match (maskList h.mask).find? (fun l => entries.getD l 0 % 8 != 0) with
  | some l => .error (1, h.entrySec, l)
  | none =>
    let recipes ← (xs.filter (fun x => x.kind == 5 || x.kind == 6)).mapM (planRecipes s h.mask)
    let grants ← (xs.filter (fun x => x.kind == 7)).foldlM (fun (g : List (Nat × Nat)) x => do
      let more ← planGrants s x.index (g.map (·.1)) 0 (groupsOf 16 x.data.length x.data)
      return g ++ more) []
    let map ← (xs.filter (fun x => x.kind == 9)).mapM (fun x => planMap s h.mask x.index x.data)
    return { p with recipes := recipes.flatten, grants := grants, map := map.flatten, entries := entries }

/-- Write a placed section. -/
def writeSection (p : LoadPlan) (s : State) (q : Placed) : State :=
  if q.kind = 3 then clearPoison { s with mem := memClear s.mem q.addr q.size } q.addr q.size
  else match p.secs.find? (fun x => x.index == q.index) with
    | some x => storeBytes s q.addr (relocated p x)
    | none => s

/-- A program handle that no image has; the spec leaves its value open (log entry 49). Zero names no image. -/
def newHandle (s : State) : Nat :=
  let k := Config.freeNat (s.free + 8192)
  (((List.range 65535).map (fun i => (k + i) % 65535 + 1)).find? (fun h => !(residentImages s).any (fun i => i.handle == h))).getD 0

/-- A load that passed its checks takes effect (R197, R413). -/
def commitLoad (s : State) (c : Nat) (p : LoadPlan) : State × Nat :=
  let handle := newHandle s
  let s := { s with free := s.free + 8193 }
  let s := p.placed.foldl (writeSection p) s
  let s := p.recipes.foldl loadRecipe s
  let s := { s with wheels := p.grants.foldl (fun w g => sparseSet 0 w g.1 g.2) s.wheels }
  let s := p.map.foldl (installMap c) s
  let im : Image :=
    { handle := handle, mask := p.head.mask, pantryUse := p.head.pantryUse, entrySec := p.head.entrySec, entries := p.entries, placed := p.placed
      symbols := p.head.symbols, patched := false, hash := p.hash, patchHash := List.replicate 32 0
      vslots := p.recipes.filterMap (fun r => r.1.map (fun h => (h, r.2.1)))
      uslots := p.recipes.filterMap (fun r => if r.1.isNone then some r.2.1 else none), grants := p.grants.map (·.1)
      pinit := (p.secs.filter inWindowSec).map (fun x => (x.addr, x.data)), relocs := p.relocs.filter (fun r => r.symbol.isSome) }
  let s := modCtx s c (fun x => { x with state := .loaded, image := some im, launch := none })
  (emit s evLoaded mgmtPage (bytesLE 2 handle ++ [BitVec.ofNat 8 c]), handle)

/-! ## Unload and patch (R197, R198) -/

/-- The context that holds an image. -/
def holderOf (s : State) (handle : Nat) : Option (Nat × Image) :=
  (List.range 16).findSome? (fun c => ((getCtx s c).image.filter (fun i => i.handle == handle)).map (fun i => (c, i)))

/-- Whether a launch of a context runs or is held (R197, R198). -/
def launchRuns (x : Context) : Bool := !(x.state == .loaded || x.state == .preempted || x.state == .empty)

/-- Free what the load of an image placed (R197, R247): its recipe slots keep their words. -/
def freeImage (s : State) (c : Nat) (im : Image) : State :=
  let s := (talliesOf s c).foldl (fun s p => setTally s p .free) s
  let s := (slotsOf s c).foldl (fun s i => setSlot s i .free) s
  let s := { s with tly := { s.tly with table := s.tly.table.filter (fun x => x.1 / 4096 != c) }
                    wheels := im.grants.foldl (fun w k => sparseSet 0 w k 0) s.wheels }
  modCtx s c (fun x => { x with state := .empty, image := none, launch := none, saved := none })

/-- The symbol value a record takes from the patch vector (R198). -/
def symbolValue (s : State) (addr : Nat) (r : RelocRec) : Nat := memNat s.mem (addr + 8 * r.symbol.getD 0) 8

/-- PATCH of an image from the vector at an address (R198): every field is computed before any is written. -/
def patchImage (s : State) (c addr : Nat) (im : Image) : Except Refused State := do
  let vs := im.relocs.map (fun r => (r, relocField r.kind r.orig (symbolValue s addr r)))
  match vs.zipIdx.find? (fun v => v.1.2.isNone) with
  | some v => .error (9, v.1.1.target, v.2)
  | none =>
    let t := vs.foldl (fun s v => storeBytes s v.1.addr (bytesLE (relocBytes v.1.kind) (v.2.getD 0))) s
    let entries := match im.placed.find? (fun p => p.index == im.entrySec) with
      | some p => if im.relocs.any (fun r => r.target == im.entrySec) then entryTable (memRead t.mem p.addr 384) else im.entries
      | none => im.entries
    demand ((maskList im.mask).all (fun l => entries.getD l 0 % 8 == 0)) 1 im.entrySec
    let hash := sha256 (memRead s.mem addr (8 * im.symbols))
    return modCtx t c (fun x => { x with image := some { im with patched := true, patchHash := hash, entries := entries } })

/-! ## Commands (R197, R211) -/

/-- Report a refusal in MG_LOAD_STATUS and MG_LOAD_INFO. -/
def loadRefused (s : State) (handle : Nat) (r : Refused) : State :=
  let s := { s with loader := { cmd := none, state := 3, code := r.1, handle := handle, info := r.2.1 % 65536 + 65536 * (r.2.2 % 2 ^ 32) } }
  setErr s mgmtPage 0

/-- Report success. -/
def loadDone (s : State) (handle : Nat) : State := { s with loader := { cmd := none, state := 2, code := 0, handle := handle, info := 0 } }

/-- The loader takes a command and shows busy. -/
def loadBusy (s : State) (c : LoadCmd) (handle : Nat) : State := { s with loader := { cmd := some c, state := 1, code := 0, handle := handle, info := 0 } }

/-- A write of MG_LOAD_CTRL (R197, R211). -/
def loadCtrl (s : State) (v : Nat) : State :=
  let go := v.testBit 0
  let un := v.testBit 1
  let pa := v.testBit 2
  let handle := bits v 31 16
  if s.loader.cmd.isSome then setErr s mgmtPage 0
  else if 1 < bit go + bit un + bit pa then loadRefused s handle (14, 0, 0)
  else if go then loadBusy s (.load (bits v 7 4) (getReg s mgmtPage Reg.mgLoadAddr) (getReg s mgmtPage Reg.mgLoadLen)) 0
  else if un then loadBusy s (.unload handle) handle
  else if pa then loadBusy s (.patch handle (getReg s mgmtPage Reg.mgPatchAddr)) handle
  else s

/-- IMAGE_LOAD (R197): GO. -/
def execImageLoad (value : W32) (s : State) : Host.Outcome State Fault Refusal := .next (if value.getLsbD 0 then loadCtrl s value.toNat else s)

/-- UNLOAD (R197). -/
def execUnload (value : W32) (s : State) : Host.Outcome State Fault Refusal := .next (if value.getLsbD 1 then loadCtrl s value.toNat else s)

/-- PATCH (R198). -/
def execPatch (value : W32) (s : State) : Host.Outcome State Fault Refusal := .next (if value.getLsbD 2 then loadCtrl s value.toNat else s)

/-- The end of a loader command (R197). -/
def loaderEnd (s : State) (c : LoadCmd) : State :=
  match c with
  | .load ctx addr n =>
    (match planLoad s ctx addr n with
     | .error r => loadRefused s 0 r
     | .ok p =>
       let x := commitLoad s ctx p
       loadDone x.1 x.2)
  | .unload handle =>
    (match holderOf s handle with
     | none => loadRefused s handle (11, 0, 0)
     | some (k, im) => if launchRuns (getCtx s k) then loadRefused s handle (12, 0, 0) else loadDone (freeImage s k im) handle)
  | .patch handle addr =>
    (match holderOf s handle with
     | none => loadRefused s handle (11, 0, 0)
     | some (k, im) =>
       if launchRuns (getCtx s k) then loadRefused s handle (12, 0, 0)
       else match patchImage s k addr im with
         | .error r => loadRefused s handle r
         | .ok t => loadDone t handle)

/-- LOADER_COMMAND_DONE (R197). -/
def execLoaderCommandDone (s : State) : Host.Outcome State Fault Refusal :=
  .next (match s.loader.cmd with
    | none => s
    | some c => loaderEnd s c)

/-- MG_LOAD_STATUS (R211). -/
def loadStatusWord (s : State) : Nat := s.loader.state + 16 * s.loader.code + 65536 * s.loader.handle

end Sys2Proof.Machine
end

