-- ==== Sys2Proof/Machine/Drain.lean ====
section
/-!
DEFINITION. Machine/Drain.lean: PAGE_CTRL: draining a block, its return to service, and debug mode (17_contexts_and_preemption.md, R436;
19_register_pages.md, R464, R465; 07_beat_schedule_contract.md, R205).
-/
namespace Sys2Proof.Machine

/-! ## What a page controls (R436, R458) -/

/-- The unit a page drains (R436). -/
inductive DrainUnit where
  | hamper (h : Nat)
  | update (u : Nat)
  | uc
  | rambler (die : Nat)
  | port (p : Nat)
  | none_
deriving DecidableEq, Repr

/-- The unit of a page; none where a drain has no effect on the type. -/
def drainUnit (page : Nat) : DrainUnit :=
  match pageType page with
  | some (8, i) => .rambler i
  | some (9, i) => .port i
  | some (12, i) => if page = ucPage then .uc else .update i
  | some (t, _) => if 13 ≤ t then .hamper ((page - 0x100) / 16) else .none_
  | none => .none_

/-- The pages whose flags a drain of a page sets: all of a hamper's (R436). -/
def drainPages (page : Nat) : List Nat :=
  match drainUnit page with
  | .hamper h => hamperPages h
  | .none_ => []
  | _ => [page]

/-- Set the flags of the pages of a drain. -/
def setDrain (s : State) (page : Nat) (draining drained disabled : Bool) : State :=
  (drainPages page).foldl (fun s p =>
    setFlags s p { getFlags s p with draining := draining, drained := drained, disabled := disabled }) s

/-! ## Starting a drain -/

/-- A context on a hamper that drains is pre-empted in mode ANY; one whose image does not fit is reset (R436). -/
def drainCtx (s : State) (c : Nat) : State :=
  let x := getCtx s c
  match x.state with
  | .running =>
    if x.image.all (fun im => imageAreaOk x (largestImage im)) then
      setCtx s c { x with state := .stopping, mode := 0, acceptedNs := s.clockNs, stopAt := none }
    else resetContext s c
  | .stopping => if x.stopAt.isNone then setCtx s c { x with mode := 0 } else s
  | _ => s

/-- The contexts that use a physical hamper now (R424). -/
def usersOf (s : State) (h : Nat) : List Nat :=
  (List.range 16).filter (fun c => ctxUses (getCtx s c) && (physMask s (ctxMask s c)).contains h)

/-- The drain of a hamper works on the contexts that run on it. -/
def drainHamper (s : State) (h : Nat) : State := (usersOf s h).foldl drainCtx s

/-- Start the drain of a page's block: work in flight stops at its break point (R436). -/
def startDrain (s : State) (page : Nat) : State :=
  let f := getFlags s page
  if f.draining || f.drained || f.off || drainUnit page == .none_ || !pagePresent s page then s
  else
    let s := setDrain s page true false false
    match drainUnit page with
    | .hamper h => drainHamper s h
    | .update u => sweepProgress (stopUnit s u)
    | .uc => stopSweep s
    | .rambler _ => rmbPause s
    | .port _ => s
    | .none_ => s

/-- DRAIN (R436). -/
def execDrain (page : Nat) (s : State) : Host.Outcome State Fault Refusal := .next (startDrain s page)

/-! ## The end of a drain -/

/-- Whether every frame sent on the sessions of a port has been acknowledged. -/
def portAcked (s : State) (p : Nat) : Bool :=
  s.hostSessions.all (fun x => x.port != p || (x.unacked.isEmpty && x.waiting.isEmpty)) &&
  s.nearSessions.all (fun x => x.port != p || (x.unacked.isEmpty && x.waiting.isEmpty))

/-- Close a host session (R436); the REASON of CLOSE is open (log entry 3). -/
def closeHost (s : State) (x : HostSession) : State :=
  let (n, s) := draw s
  endHost { s with outbox := s.outbox ++ [(.host x.session, x.txNext, { kind := 3, fields := [n % 2 ^ 32], data := [] })] } x.session

/-- Close a near session (R436, log entry 41). -/
def closeNear (s : State) (x : NearSession) : State :=
  let (n, s) := draw s
  { s with outbox := s.outbox ++ [(.peer x.module, x.txNext, { kind := 3, fields := [n % 2 ^ 32], data := [] })]
           nearSessions := s.nearSessions.filter (fun y => y.module != x.module) }

/-- The far routes on a port are down (R367, R436). -/
def dropRoutes (s : State) (p : Nat) : State :=
  if 2 ≤ p then s
  else (List.range 16).foldl (fun s j => modPeer s j (fun x => { x with routes := x.routes.filter (fun r => routePort s j r.1 != p) })) s

/-- The end of a port's drain: its sessions are closed, its routes and its link go down, and near sessions reopen elsewhere. -/
def closePort (s : State) (p : Nat) : State :=
  let s := (s.hostSessions.filter (fun x => x.port == p)).foldl closeHost s
  let s := (s.nearSessions.filter (fun x => x.port == p)).foldl closeNear s
  setLink (setLink (noteDown (dropRoutes s p) p) p 0 .down) p 1 .down

/-- Whether the work of a block that drains has stopped. -/
def drainOver (s : State) (page : Nat) : Bool :=
  match drainUnit page with
  | .hamper h => (usersOf s h).isEmpty
  | .update u => !(getUnit s u).active || (getUnit s u).stopped || (getUnit s u).done
  | .uc => s.uc.sweepState != .running
  | .rambler _ => s.rmb.cmd.isNone
  | .port p => portAcked s p
  | .none_ => false

/-- DRAIN_COMPLETE (R436): a context that came to run on the hamper since is pre-empted first. -/
def execDrainComplete (page : Nat) (s : State) : Host.Outcome State Fault Refusal :=
  .next (if (getFlags s page).draining then
      let s := match drainUnit page with
        | .hamper h => drainHamper s h
        | _ => s
      if drainOver s page then
        let s := setDrain s page false true true
        match drainUnit page with
        | .port p => openNears (closePort s p)
        | _ => s
      else s
    else s)

/-! ## Return to service, debug mode -/

/-- Whether ENABLE written to a page returns its block: that of a hamper is the HAMPER page (R436). -/
def enablePage (page : Nat) : Bool :=
  match drainUnit page with
  | .hamper h => page == 0x100 + 0x10 * h
  | .none_ => false
  | _ => true

/-- ENABLE = 1 written to a page (R436, R464). -/
def enableBlock (s : State) (page : Nat) : State :=
  let f := getFlags s page
  if !f.drained || f.fault || f.off || !enablePage page then s
  else
    let s := setDrain s page false false false
    match drainUnit page with
    | .port p => formPort s p (getPort s p).split
    | _ => s

/-- ENABLE (R436). -/
def execEnable (page : Nat) (s : State) : Host.Outcome State Fault Refusal := .next (enableBlock s page)

/-- DEBUG of the MGMT page: a write that changes it while a launch runs is ignored (R205). -/
def setDebug (s : State) (on : Bool) : State :=
  if anyLaunch s then s else setFlags s mgmtPage { getFlags s mgmtPage with debug := on }

/-- DEBUG (R205). -/
def execDebug (on : Bool) (s : State) : Host.Outcome State Fault Refusal := .next (setDebug s on)

/-- A write of PAGE_CTRL (R464). -/
def pageCtrl (s : State) (page v : Nat) : State :=
  if page = mgmtPage then setDebug s (v.testBit 2)
  else if v.testBit 1 || !v.testBit 0 then startDrain s page
  else enableBlock s page

end Sys2Proof.Machine
end

