-- ==== Sys2Proof/Machine/SiteCount.lean ====
section
/-!
DEFINITION. Machine/SiteCount.lean: the site count, its sources and its lock state (11_reproducibility.md, R289–R291, R298, R299;
14_ports_and_transport.md, R341).
-/
namespace Sys2Proof.Machine

/-- Apply a function to the site count. -/
def modSc (s : State) (f : SiteCount → SiteCount) : State := { s with sc := f s.sc }

/-- The lock window in ns; 0 is taken as 1 (R298). -/
def scWindow (s : State) : Nat := Nat.max 1 (getReg s scPage Reg.scLockWindow % 65536)

/-- SYNC after a measurement: it starts anew when measurements return, and locks after 16 consecutive offsets within the window
(R290). -/
def nextSync (sy : Sync) (streak : Nat) : Sync :=
  match sy with
  | .holdover => .acquiring
  | .unlocked => .acquiring
  | .acquiring => if 16 ≤ streak then .locked else .acquiring
  | x => x

/-- A step of the count by an offset (R290). -/
def stepCount (s : State) (o : Int) : State :=
  let s := modSc s (fun c => { c with count := ((c.count : Int) + o).toNat % 2 ^ 64 })
  let s := countReg s scPage Reg.scSteps 1
  let s := setErrIf (decide (o < 0)) s scPage 1
  emit s evCountStepped scPage (bytesLE 8 (ofSigned 64 o))

/-- The frequency correction a servo takes for an offset: within ±100 ppm in units of 10⁻¹², otherwise open (R290, log entry 3). -/
def servoFreq (s : State) : State :=
  let (n, s) := draw s
  modSc s (fun c => { c with freq := ((n % 200000001 : Nat) : Int) - 100000000 })

/-- A measurement of the selected source yields an offset (R290). A count waiting for a 1PPS edge is set there instead (R298). -/
def measure (s : State) (o : Int) : State :=
  let edge := decide (s.sc.src = 3)
  let s := if edge then modSc s (fun c => { c with ppsSeen := true, refSeen := true }) else s
  match (if edge then s.sc.pendingSet else none) with
  | some v => modSc s (fun c => { c with count := v, pendingSet := none })
  | none =>
    let ok := decide (o.natAbs ≤ scWindow s)
    let returning := decide (s.sc.sync = .holdover ∨ s.sc.sync = .unlocked)
    let k := if ok then (if returning then 1 else s.sc.streak + 1) else 0
    let s := modSc s (fun c => { c with offset := o, streak := k, sync := nextSync c.sync k })
    if getReg s scPage Reg.scStepLimit < o.natAbs then stepCount s o else servoFreq s

/-- SC_MEASUREMENT (R290). -/
def execScMeasurement (offset : Int) (s : State) : Host.Outcome State Fault Refusal :=
  .next (if s.sc.src = 0 then s else measure s offset)

/-- PTP_MESSAGE (R290, R341): a Sync of the port's domain is a measurement when SC_SOURCE selects the port and PTP is enabled there. -/
def execPtpMessage (port : Fin 10) (kind : PtpKind) (domain : BitVec 8) (offset : Int) (s : State) : Host.Outcome State Fault Refusal :=
  let cfg := getReg s (portPage port) Reg.portPtp
  .next (if port.val < 2 ∧ kind = .sync ∧ s.sc.src = port.val + 1 ∧ cfg.testBit 9 ∧ cfg % 256 = domain.toNat then measure s offset
    else s)

/-- SYNC (R290): the timestamp exchange with the upstream module on the near port SC_SOURCE names. -/
def execSync (module : Fin 256) (offset : Int) (s : State) : Host.Outcome State Fault Refusal :=
  .next (match nearSess s module with
    | some x => if x.up && decide (s.sc.src = 4) && decide (x.port = 2 + s.sc.near) then measure s offset else s
    | none => s)

/-- SOURCE_LOST (R290): the source has been silent for three intervals. -/
def execSourceLost (s : State) : Host.Outcome State Fault Refusal :=
  .next (if s.sc.src ≠ 0 ∧ (s.sc.sync = .acquiring ∨ s.sc.sync = .locked) then
      emit (setErr (modSc s (fun c => { c with sync := .holdover, streak := 0, ppsSeen := false })) scPage 0) evSourceLost scPage []
    else s)

/-- HOLDOVER_LIMIT (R290). -/
def execHoldoverLimit (s : State) : Host.Outcome State Fault Refusal :=
  .next (if s.sc.sync = .holdover then modSc s (fun c => { c with sync := .unlocked }) else s)

/-- A write of SC_SOURCE: the source is selected anew (R298). -/
def scSourceWrite (s : State) (v : Nat) : State :=
  let src := bits v 2 0
  let s := setReg s scPage Reg.scSource (v % 128)
  modSc s (fun c => { c with src := src, near := bits v 6 4, streak := 0, pendingSet := none
                             sync := if src = 0 then .free else .acquiring })

/-- SC_SOURCE_WRITE (R298). -/
def execScSourceWrite (value : W32) (s : State) : Host.Outcome State Fault Refusal := .next (scSourceWrite s value.toNat)

/-- A write of SC_SET (R298). -/
def scSetWrite (s : State) (v : Nat) : State :=
  if s.sc.src = 0 then modSc s (fun c => { c with count := v % 2 ^ 64 })
  else if s.sc.src = 3 then modSc s (fun c => { c with pendingSet := some (v % 2 ^ 64) })
  else setErr s scPage 4

/-- SC_SET (R298). -/
def execScSet (value : Word) (s : State) : Host.Outcome State Fault Refusal :=
  .next (expertOnly s scPage (fun s => scSetWrite s value.toNat))

/-- SYNC as SC_STATE shows it. -/
def syncCode : Sync → Nat
  | .free => 0
  | .acquiring => 1
  | .locked => 2
  | .holdover => 3
  | .unlocked => 4

/-- SC_STATE (R298). -/
def scStateWord (s : State) : Nat := syncCode s.sc.sync + 8 * s.sc.src + 64 * bit s.sc.ppsSeen + 128 * bit s.sc.refSeen

/-- The launch SC_LAUNCH_SEL selects. -/
def scLaunchCtx (s : State) : Context := getCtx s (getReg s scPage Reg.scLaunchSel % 16)

/-- SC_LAUNCH_AT (R298). -/
def scLaunchAtWord (s : State) : Nat :=
  let x := scLaunchCtx s
  if x.state = .held then (x.launch.map (·.at_)).getD 0 else 0

end Sys2Proof.Machine
end

