-- ==== Sys2Proof/Machine/Power.lean ====
section
/-!
DEFINITION. Machine/Power.lean: start-up, resets and the power manager, and the management bus (18_startup_reset_power.md, R439–R457;
20_module_physical.md, R476–R481).
-/
namespace Sys2Proof.Machine

/-- Apply a function to the power manager. -/
def modPower (s : State) (f : Power → Power) : State := { s with power := f s.power }

/-- Whether the rails of R440 are up. -/
def railsUp (s : State) : Bool :=
  match s.power.phase with
  | .starting _ _ => true
  | .bootFail => true
  | .running => true
  | .warm => true
  | _ => false

/-! ## Start-up (R439–R442, R444) -/

/-- What survives a module reset or a power loss: the part, its fuses, its flash and what its packages hold (R267, R444). Memory reads as at
State.reset, since its contents are open (R441, log entry 4). -/
def coldState (s : State) : State :=
  { State.reset with
      pending := s.pending, free := s.free, part := s.part, flash := s.flash, outbox := s.outbox, answer := s.answer
      clockNs := s.clockNs
      lpc := s.lpc.map (fun (m : MemCtl) => { MemCtl.reset with repairsLeft := m.repairsLeft, chansRetired := m.chansRetired })
      sec := { Secure.reset with svnFuses := s.sec.svnFuses, programmed := s.sec.programmed, revoked := s.sec.revoked, slots := s.sec.slots
                                 chain := s.sec.chain, anchors := s.sec.anchors, entropyUsed := s.sec.entropyUsed }
      power := { State.reset.power with inputMv := s.power.inputMv, startNs := s.power.startNs, resetNs := s.clockNs,
                                          elapsedMs := s.power.elapsedMs } }

/-- The ports as the flash leaves them: retired lanes out of use, links training (R338, R339). -/
def loadPort (s : State) (p : Nat) : State :=
  let lanes := (s.flash.lanes.filter (fun x => x.1 == p)).map (·.2)
  formPort (setPort s p { getPort s p with retired := lanes }) p ((getReg s (portPage p) Reg.portCfg).testBit 0)

/-- A package as the flash leaves it: its row-tracking entries (R312). -/
def loadPackage (s : State) (c : Nat) : State := setCtl s (false, c) { getCtl s (false, c) with track := flashTrack s (false, c) }

/-- A stack as the flash leaves it: its retirements are in force before any access, and its row-tracking entries stand (R267, R312). -/
def loadStack (s : State) (c : Nat) : State :=
  setCtl s (true, c) { getCtl s (true, c) with
    track := flashTrack s (true, c)
    spares := (s.flash.rows.filter (fun x => x.1 == c)).map (·.2)
    pcs := (s.flash.pcs.filter (fun x => x.1 == c)).map (·.2) }

/-- The flag of the module as the flash holds it (R315, R321). -/
def loadFlag (s : State) : State :=
  match s.flash.flag with
  | none => s
  | some (u, k) =>
    let s := { s with flt := { s.flt with replace := true, causeUnit := u, causeKind := k, failed := [u] } }
    let s := setReg s faultPage Reg.fltCause (u + 2 ^ 16 * k)
    (unitPages u).foldl (fun s p => setFlags s p { getFlags s p with fault := true }) s

/-- What a start takes from the configuration flash: registers, retirements, fault records, the flag, and FULL_MEMTEST (R267, R312, R441,
R462). -/
def loadFlash (s : State) : State :=
  let s := { s with regs := s.flash.regs, flt := { s.flt with events := s.flash.faults } }
  let s := (List.range 10).foldl loadPort s
  let s := (List.range 16).foldl loadStack s
  let s := (List.range 16).foldl loadPackage s
  let s := loadFlag s
  modPower s (fun p => { p with memtest := (getReg s powerPage Reg.pwrBootCfg).testBit 0 })

/-- The state a start begins with: what survives, with the flash's records in force. -/
def coldStart (s : State) : State := loadFlash (coldState s)

/-- The boot ROM starts the verified image, or halts with BOOT_FAIL in step 4 (R409, R439). -/
def bootRom (s : State) (kind : Nat) (slotOk : Bool) : State :=
  match (if slotOk then bootChoice s.sec else none) with
  | none => modPower s (fun p => { p with phase := .bootFail, bootStep := 4 })
  | some (i, f) => modPower (modSec s (fun x => { x with boot := i, running := f })) (fun p => { p with phase := .starting kind false })

/-- A pseudo-channel fails training: it is retired to the larder, empty (R264, R265, R442). -/
def badPc (s : State) (x : Fin 16 × Fin 32) : State :=
  let (c, p) := (x.1.val, x.2.val)
  let m := getCtl s (true, c)
  if m.pcs.any (fun y => y.1 == p) then s
  else match larderFree s with
    | none => refugeFull s c
    | some k =>
      let s := setCtl s (true, c) { m with pcs := m.pcs ++ [(p, k)] }
      emit { s with flash := { s.flash with pcs := s.flash.pcs ++ [(c, p, k)], writes := s.flash.writes + 1 } }
        evPcRetired (hbmcPage c) [BitVec.ofNat 8 c, BitVec.ofNat 8 p, BitVec.ofNat 8 k]

/-- A unit fails training or self-test: a permanent fault, and a unit that failed self-test stays disabled (R442). -/
def badUnit (s : State) (u : Nat) : State :=
  let mem := decide (u / 4096 = 2) || decide (u / 4096 = 3)
  if unitPages u = [] then s
  else if mem then countPermanent s u 2
  else
    let s := (unitPages u).foldl (fun s p => setFlags s p { getFlags s p with off := true }) s
    countPermanent s u 1

/-- POWER_ON (R439–R442): from power off the rails come up, the boot ROM starts an image, and memory and units are trained and tested; a rail
that misses its power-good stops the start in step 2. -/
def execPowerOn (o : StartOutcome) (s : State) : Host.Outcome State Fault Refusal :=
  .next (if s.power.phase ≠ .off then s
    else
      let s := coldStart { s with flash := { s.flash with writes := 0 } }
      let s := modPower s (fun p => { p with startNs := s.clockNs })
      match o.railFail with
      | some g => modPower s (fun p => { p with phase := .powerFault g.val, faultGroup := g.val + 1, bootStep := 2 })
      | none =>
        let s := bootRom s 0 o.slotOk
        if s.power.phase = .bootFail then s
        else (o.badUnits.map (·.toNat)).foldl badUnit (o.badPcs.foldl badPc s))

/-- The units disabled by self-test, which a module reset finds again (R442, log entry 51). -/
def offPages (s : State) : List (Nat × PageFlags) :=
  (s.pages.filter (fun x => x.2.off)).map (fun x => (x.1, { PageFlags.reset with off := true, fault := true }))

/-- Module reset: all but the rails starts anew, with the boot ROM held (R444, R481). -/
def moduleReset (s : State) : State :=
  let low := s.power.inputLow
  let s := loadFlash { coldState s with pages := offPages s }
  modPower s (fun p => { p with phase := .starting 1 true, inputLow := low })

/-- MODULE_RESET (R444, R481): with the rails up; without them MRST_N does nothing until its release. -/
def execModuleReset (s : State) : Host.Outcome State Fault Refusal := .next (if railsUp s then moduleReset s else s)

/-- MRST_N_RELEASE (R481): the held boot ROM starts; after a power fault or a thermal trip the latches clear and the module starts again at
step 2. -/
def execMrstNRelease (s : State) : Host.Outcome State Fault Refusal :=
  .next (match s.power.phase with
    | .starting k true => bootRom s k true
    | .powerFault _ => bootRom (coldStart s) 0 true
    | .tripped => bootRom (coldStart s) 0 true
    | _ => s)

/-- The state with every rail off (R455, R481). -/
def railsOff (s : State) (ph : Phase) : State := modPower (coldState s) (fun p => { p with phase := ph })

/-- POWER_LOSS (R453, R480, R481): every rail turns off; the latches are lost with the input (log entry 52). -/
def execPowerLoss (s : State) : Host.Outcome State Fault Refusal := .next (modPower (railsOff s .off) (fun p => { p with elapsedMs := 0 }))

/-- THERMAL_TRIP (R455): the trip is recorded in the flash and every rail turns off. -/
def execThermalTrip (s : State) : Host.Outcome State Fault Refusal :=
  .next (if railsUp s then railsOff { s with flash := { s.flash with trip := true, writes := s.flash.writes + 1 } } .tripped else s)

/-! ## Warm reset (R446, R447) -/

/-- Step 1 of a warm reset for a context: it stops issuing; a held launch is cancelled. -/
def warmCtx (s : State) (c : Nat) : State :=
  let x := getCtx s c
  match x.state with
  | .held => setCtx s c { x with state := .loaded, launch := none }
  | .running | .stopping | .restoring =>
    let aborted := x.state == .stopping || x.state == .restoring
    let hs := hampersOf s c
    let s := hs.foldl emptyList (hs.foldl stopIssue s)
    let s := if aborted then ctxCode s c 12 else s
    modCtx s c (fun x => { x with state := .resetting, stopAt := none, saved := none, restartDue := false })
  | _ => s

/-- A warm reset begins, from READY on and while none runs (R445, R446): contexts stop, the sweep drains to PARTIAL, a held sweep is discarded,
the rambler command stops, and a restart in progress ends. -/
def warmReset (s : State) : State :=
  if s.power.phase ≠ .running then s
  else
    let s := (List.range 16).foldl warmCtx s
    let s := stopSweep { s with uc := { s.uc with heldSweep := none }, flt := { s.flt with restart := none } }
    let s := rmbPause s
    finishResets (modPower s (fun p => { p with phase := .warm, readySent := false, bootKind := 2, memtest := false, tripBefore := false
                                                resetNs := s.clockNs }))

/-- WARM_RESET (R446). -/
def execWarmReset (s : State) : Host.Outcome State Fault Refusal := .next (warmReset s)

/-- Whether the work a warm reset lets finish is done (steps 2 and 3 of R446). -/
def warmQuiet (s : State) : Bool :=
  s.ctxs.all (fun x => x.state != .resetting) && s.dmas.isEmpty && s.merges.isEmpty && s.tly.msgs.isEmpty && s.sec.op != some .fwStage

/-- Release every waiter of every tally and slot ABANDONED, keeping counts and barrier state (step 4 of R446, R245). -/
def abandonAll (s : State) : State :=
  let s := (s.tly.tallies.map (·.1)).foldl abandonTally s
  (List.range 64).foldl abandonSlot s

/-- The seal after a warm reset: SEALED is kept, every other state opens empty (step 5 of R446). -/
def warmSeal (s : State) : State :=
  let u := { s.uc with held := [], nextRefused := false, nextWithheld := false, nextCtx := none, leaving := [] }
  { s with uc := if u.sealSt = .sealed then u
      else { u with sealSt := .open_, reqs := [], owner := none, normTotal := 0, normSat := false, normNb := 0, normPending := false
                    normClosed := false } }

/-- The pages with every expert level locked (R469). -/
def lockAll (s : State) : State :=
  { s with pages := (s.pages.map (fun x => (x.1, { x.2 with unlocked := false }))).filter (fun x => x.2 != PageFlags.reset) }

/-- The state registers of cores and engines clear; counters, recipe stores, baskets, stacks and list configuration stay (step 5 of R446, R68,
R89, R115, R180, R228). -/
def warmHamper (h : Hamper) : Hamper := { endHamper h with core := .idle }

/-- Physical hampers enabled and passing self-test (R443). -/
def goodHampers (s : State) : List Nat := s.part.hampersOn.filter (fun h => !(getFlags s (0x100 + 0x10 * h)).off)

/-- Ports with a link that is up (R443). -/
def portsUpMask (s : State) : Nat :=
  ((List.range 10).map (fun p => 2 ^ p * bit (linkOf s p 0 == .up || linkOf s p 1 == .up))).sum

/-- DATA of READY (R443). -/
def readyData (s : State) : List Byte :=
  let p := s.power
  let flags := bit s.flt.replace + 2 * bit p.memtest + 4 * bit (getFlags s mgmtPage).debug + 8 * bit p.tripBefore
  [BitVec.ofNat 8 p.bootKind, BitVec.ofNat 8 flags, 0, 0] ++ bytesLE 4 p.elapsedMs ++
  bytesLE 8 ((goodHampers s).map (fun h => 2 ^ h)).sum ++ bytesLE 2 (portsUpMask s) ++
  [BitVec.ofNat 8 (s.hbm.toList.map (fun m => m.pcs.length)).sum, BitVec.ofNat 8 s.sec.running.svn] ++
  bytesLE 4 (identWord s) ++ bytesLE 8 (deviceId s)

/-- The module is ready: PWR_BOOT and ELAPSED_MS are set and READY is emitted (R443). -/
def emitReady (s : State) : State :=
  let s := modPower s (fun p => { p with phase := .running, readySent := true, elapsedMs := (s.clockNs - p.resetNs) / 1000000 % 2 ^ 32 })
  emit s evReady mgmtPage (readyData s)

/-- A port whose bit is set has linked by the end of step 6: its links that train are up (R439). -/
def linkPort (up : BitVec 10) (s : State) (p : Nat) : State :=
  if up.getLsbD p then
    (List.range 2).foldl (fun s h => if linkOf s p h == .training && linkTrains s p h then setLink s p h .up else s) s
  else s

/-- READY (R439, R443, R446): the end of a start, with the ports that have linked, or of a warm reset whose work is done. -/
def execReady (portsUp : BitVec 10) (s : State) : Host.Outcome State Fault Refusal :=
  .next (match s.power.phase with
    | .starting k false =>
      let s := (List.range 10).foldl (linkPort portsUp) s
      let s := modPower s (fun p => { p with bootKind := k, tripBefore := s.flash.trip })
      openNears (emitReady { s with flash := { s.flash with trip := false } })
    | .warm =>
      if warmQuiet s then
        let s := lockAll (warmSeal (abandonAll s))
        emitReady { s with hampers := s.hampers.map warmHamper }
      else s
    | _ => s)

/-! ## The power manager (R448–R456) -/

/-- Samples P1 averages: 1 ms of 10 µs samples (R452). -/
def p1Samples : Nat := 100

/-- P1 as a fraction: the sum of its samples in mW and their number (R452). -/
def p1Frac (p : Power) : Nat × Nat := (p.samples.sum, Nat.max 1 p.samples.length)

/-- P1 in W. -/
def p1Watts (p : Power) : Nat := (p1Frac p).1 / ((p1Frac p).2 * 1000)

/-- Whether P1 exceeds pct percent of w watts. -/
def p1Above (p : Power) (pct w : Nat) : Bool := decide (pct * w * 1000 * (p1Frac p).2 < 100 * (p1Frac p).1)

/-- The budget in force: PWR_BUDGET, at most 2,000 W while the input is low (R453). -/
def budgetOf (s : State) : Nat :=
  let b := getReg s powerPage Reg.pwrBudget % 65536
  if s.power.inputLow then Nat.min b 2000 else b

/-- The voltage of a domain in mV. -/
def mvOf (s : State) (d : Nat) : Nat := s.power.mv[d]?.getD 0
/-- The floor of a managed domain in mV. -/
def floorOf (s : State) (d : Nat) : Nat := s.power.floor[d]?.getD 0
/-- The ceiling of a managed domain in mV. -/
def ceilOf (s : State) (d : Nat) : Nat := s.power.ceiling[d]?.getD 0

/-- Whether the core domain of a die is lent (R246). -/
def isLent (s : State) (d : Nat) : Bool := s.tly.lent.any (fun x => x.1 == d)

/-- Managed domains the power manager moves together: those neither forced nor lent (R246, R449, R450). -/
def movable (s : State) (ds : List Nat) : List Nat :=
  ds.filter (fun d => !isLent s d && ((s.power.forced[d]?).join).isNone)

/-- Lower domains by up to n mV, all by the same amount, none below its floor (R449, R452). -/
def lowerDomains (s : State) (ds : List Nat) (n : Nat) : State :=
  let ds := movable s ds
  let k := ds.foldl (fun k d => Nat.min k (mvOf s d - floorOf s d)) n
  ds.foldl (fun s d => moveMv s d false k) s

/-- Raise domains by up to n mV, all by the same amount, none above its ceiling (R449, R452). -/
def raiseDomains (s : State) (ds : List Nat) (n : Nat) : State :=
  let ds := movable s ds
  let k := ds.foldl (fun k d => Nat.min k (ceilOf s d - mvOf s d)) n
  ds.foldl (fun s d => moveMv s d true k) s

/-- CORE0–CORE3 (R448). -/
def coreDoms : List Nat := [0, 1, 2, 3]
/-- MEM0–MEM3 (R448). -/
def memDoms : List Nat := [4, 5, 6, 7]

/-- Whether a core domain has reached its floor. -/
def coresAtFloor (s : State) : Bool := 
  (movable s coreDoms).isEmpty || (movable s coreDoms).any (fun d => decide (mvOf s d ≤ floorOf s d))

/-- The CORE and MEM domains go to their floors for a halt (R452); nothing lent is left to return. -/
def toFloors (s : State) : State :=
  let mv := (List.range 8).foldl (fun (v : Vector Nat 10) d => v.setIfInBounds d (floorOf s d)) s.power.mv
  { s with power := { s.power with mv := mv }
           tly := { s.tly with lent := s.tly.lent.map (fun x => (x.1, List.replicate 8 0)) } }

/-- Whether beat advance is halted by the power manager (R452, R454). -/
def powerHalted (s : State) : Bool := s.power.halts.power || s.power.halts.thermal

/-- A halt of beat advance (R452). -/
def powerHalt (s : State) : State :=
  let s := countReg (setErr s powerPage 0) powerPage Reg.pwrHalts 1
  modPower (toFloors s) (fun p => { p with halts := { p.halts with power := true }, haltFrom := s.clockNs, under := 0, exceeds := 0 })

/-- What a sample makes the power manager do while no halt stands (R452). -/
def regulate (s : State) (mW : Nat) : State :=
  let b := budgetOf s
  let p := s.power
  let hard := getReg s powerPage Reg.pwrHardW % 65536
  if decide (1000 * hard < mW) || decide (1000 ≤ p.hot) then powerHalt s
  else if p1Above p 100 b then
    let s := if p.exceeds % 10 = 0 then (if coresAtFloor s then lowerDomains s memDoms 5 else lowerDomains s coreDoms 5) else s
    modPower s (fun p => { p with exceeds := p.exceeds + 1, under := 0 })
  else if p.throttled || !decide (100 * (p1Frac p).1 < 98 * b * 1000 * (p1Frac p).2) then modPower s (fun p => { p with exceeds := 0, under := 0 })
  else if p.under + 1 < p1Samples then modPower s (fun p => { p with exceeds := 0, under := p.under + 1 })
  else modPower (raiseDomains (raiseDomains s coreDoms 5) memDoms 5) (fun p => { p with exceeds := 0, under := 0 })

/-- The end of a power halt: P1 at most 95 % of the budget, and 50 µs passed (R452). -/
def resumePower (s : State) : State :=
  if s.power.halts.power && !p1Above s.power 95 (budgetOf s) && decide (s.power.haltFrom + 50000 ≤ s.clockNs) then
    modPower s (fun p => { p with halts := { p.halts with power := false } })
  else s

/-- The clocks advance by a sample interval of 10 µs; the site count runs from step 3 on (R289, R452, log entry 53). -/
def advanceClocks (s : State) : State :=
  let held := match s.power.phase with
    | .starting _ h => h
    | .bootFail => true
    | _ => false
  let s := { s with clockNs := s.clockNs + 10000 }
  if held then s
  else
    let old := s.sc.count
    countPassed (modSc s (fun c => { c with count := (c.count + 10000) % 2 ^ 64 })) old

/-- A sample enters the averages and counters: P1, PWR_ENERGY, PWR_BEAT_RATE, PWR_HALT_NS and PWR_THROTTLE_NS (R452, R454, R456). -/
def recordSample (s : State) (mW mV : Nat) : State :=
  let s := modPower s (fun p =>
    let p := { p with samples := (mW :: p.samples).take p1Samples, inputMv := mV, energy := p.energy + mW
                      marks := (packageBeats s :: p.marks).take (p1Samples + 1) }
    { p with hot := if p1Above p 100 2600 then p.hot + 1 else 0 })
  let s := setReg s powerPage Reg.pwrEnergy (Nat.min (s.power.energy / 100000) (2 ^ 64 - 1))
  let s := if powerHalted s then countReg s powerPage Reg.pwrHaltNs 10000 else s
  if s.power.throttled then countReg s powerPage Reg.pwrThrottleNs 10000 else s

/-- POWER_SAMPLE (R452): one sample of input power and voltage. -/
def execPowerSample (mW mV : Nat) (s : State) : Host.Outcome State Fault Refusal :=
  .next (if !railsUp s then s
    else
      let s := recordSample (advanceClocks s) mW mV
      if s.power.phase = .running ∨ s.power.phase = .warm then
        (if powerHalted s then resumePower (modPower s (fun p => { p with under := 0, exceeds := 0 })) else regulate s mW)
      else s)

/-- INPUT (R453): the budget is limited while the input is low. -/
def execInput (s : State) : Host.Outcome State Fault Refusal :=
  .next (if railsUp s then modPower (setErr s powerPage 3) (fun p => { p with inputLow := true }) else s)

/-- INPUT_ABOVE_40_V (R453). -/
def execInputAbove40V (s : State) : Host.Outcome State Fault Refusal :=
  .next (if railsUp s then modPower s (fun p => { p with inputLow := false }) else s)

/-- The throttle temperature (R456). -/
def throttleAt (s : State) : Nat := getReg s powerPage Reg.pwrTjThrottle % 256

/-- The hottest junction is read (R454): above the throttle temperature, and until it is below it, every millisecond lowers all CORE domains by
10 mV; above 105 °C beat advance halts. -/
def execThrottle (tj : Nat) (die : Fin 4) (s : State) : Host.Outcome State Fault Refusal :=
  .next (if !railsUp s then s
    else
      let at_ := throttleAt s
      let s := modPower s (fun p => { p with tj := tj, tjDie := die.val })
      let hot := decide (at_ < tj) || (s.power.throttled && tj == at_)
      let s := setErrIf (hot && !s.power.throttled) s powerPage 1
      let s := modPower s (fun p => { p with throttled := hot })
      let s := if hot then lowerDomains s coreDoms 10 else s
      if 105 < tj ∧ s.power.halts.thermal = false then
        let s := countReg (setErr s powerPage 2) powerPage Reg.pwrHalts 1
        modPower (toFloors s) (fun p => { p with halts := { p.halts with thermal := true }, under := 0, exceeds := 0 })
      else s)

/-- THERMAL_HALT_RESUME (R454): below 100 °C beat advance resumes. -/
def execThermalHaltResume (tj : Nat) (s : State) : Host.Outcome State Fault Refusal :=
  .next (if s.power.halts.thermal && decide (tj < 100) then
      let at_ := throttleAt s
      modPower s (fun p => { p with tj := tj, throttled := p.throttled && decide (at_ ≤ tj), halts := { p.halts with thermal := false } })
    else s)

/-! ## Registers of the POWER page (R456) -/

/-- A write of PWR_BUDGET. -/
def budgetWrite (s : State) (v : Nat) : State :=
  let w := v % 65536
  if 1200 ≤ w ∧ w ≤ 2600 then setReg s powerPage Reg.pwrBudget w else setErr s powerPage 4

/-- A write of PWR_DOM_SEL. -/
def domSelWrite (s : State) (v : Nat) : State :=
  if v % 16 ≤ 9 then setReg s powerPage Reg.pwrDomSel (v % 16) else setErr s powerPage 4

/-- The selected domain. -/
def domSel (s : State) : Nat := getReg s powerPage Reg.pwrDomSel % 16

/-- A write of PWR_DOM_LIMIT: the new limits hold for the domain's voltage at once, and the CORE domains stay equal (R449). -/
def domLimitWrite (s : State) (v : Nat) : State :=
  let d := domSel s
  let (lo, hi) := (v % 1024, v / 65536 % 1024)
  if 8 ≤ d then s
  else if lo < 680 ∨ 900 < hi ∨ hi < lo then setErr s powerPage 4
  else
    let s := modPower s (fun p => { p with floor := p.floor.setIfInBounds d lo, ceiling := p.ceiling.setIfInBounds d hi })
    let x := mvOf s d
    let group := fun (n : Nat) => if d < 4 then coreDoms.filter (fun e => e == d || (!isLent s e && ((s.power.forced[e]?).join).isNone)) else [n]
    if isLent s d then modPower s (fun p => { p with mv := p.mv.setIfInBounds d lo })
    else if hi < x then (group d).foldl (fun s e => moveMv s e false (x - hi)) s
    else if x < lo then (group d).foldl (fun s e => moveMv s e true (lo - x)) s
    else s

/-- A write of PWR_TJ_THROTTLE. -/
def tjThrottleWrite (s : State) (v : Nat) : State :=
  let t := v % 256
  if 70 ≤ t ∧ t ≤ 95 then setReg s powerPage Reg.pwrTjThrottle t else setErr s powerPage 4

/-- A write of PWR_SPEED_SEL. -/
def speedSelWrite (s : State) (v : Nat) : State :=
  let w := v % 256
  if w / 4 % 8 ≤ 6 ∧ w / 32 ≤ 4 then setReg s powerPage Reg.pwrSpeedSel w else setErr s powerPage 4

/-- A write of PWR_HARD_W. -/
def hardWWrite (s : State) (v : Nat) : State :=
  let w := v % 65536
  if 2600 ≤ w ∧ w ≤ 3000 then setReg s powerPage Reg.pwrHardW w else setErr s powerPage 4

/-- A write of PWR_VOLT_FORCE: accepted for a managed domain, with a voltage of its range, while no launch runs (R450, R456). -/
def voltForce (s : State) (v : Nat) : State :=
  let d := domSel s
  let mv := v % 1024
  let on := v.testBit 15
  if anyLaunch s || decide (8 ≤ d) || (on && (decide (mv < 680) || decide (900 < mv))) then setErr s powerPage 4
  else
    let s := setReg s powerPage Reg.pwrVoltForce (v % 65536 &&& 0x83FF)
    if on then modPower s (fun p => { p with forced := p.forced.setIfInBounds d (some mv), mv := p.mv.setIfInBounds d mv })
    else modPower s (fun p => { p with forced := p.forced.setIfInBounds d none })

/-- PWR_VOLT_FORCE (R456). -/
def execPwrVoltForce (value : W32) (s : State) : Host.Outcome State Fault Refusal :=
  .next (expertOnly s powerPage (fun s => voltForce s value.toNat))

/-- A write of PWR_RESET. -/
def pwrResetWrite (s : State) (v : Nat) : State := if v.testBit 0 then warmReset s else s

/-- PWR_STATE. -/
def pwrStateWord (s : State) : Nat :=
  let p := s.power
  bit (powerHalted s) + 2 * bit p.throttled + 4 * bit (p1Above p 100 (budgetOf s)) + 8 * bit p.inputLow +
  ((List.range 8).map (fun d => 2 ^ (4 + d) * bit (decide (mvOf s d ≤ floorOf s d)))).sum

/-- PWR_INPUT. -/
def pwrInputWord (s : State) : Nat := s.power.inputMv % 65536 + 65536 * (p1Watts s.power % 65536)

/-- PWR_DOM_LIMIT as it reads for a managed domain. -/
def domLimitWord (s : State) (d : Nat) : Nat := floorOf s d + 65536 * ceilOf s d

/-- PWR_BEAT_RATE: beats of the last 1 ms in Mbt/s; with fewer samples, over the time they cover. -/
def beatRateWord (s : State) : Nat :=
  let m := s.power.marks
  (m.headD 0 - m.getLastD 0) / (10 * Nat.max 1 (m.length - 1))

/-- PWR_TJ_MAX. -/
def tjMaxWord (s : State) : Nat := s.power.tj % 256 + 256 * s.power.tjDie

/-- The smallest beat rates of a part in Mbt/s, by voltage row and temperature column (R451). -/
def speedTable : List (List Nat) :=
  [[900, 880, 870, 860, 850], [1000, 980, 970, 950, 940], [1150, 1130, 1110, 1090, 1080], [1290, 1270, 1250, 1230, 1210],
   [1360, 1340, 1320, 1300, 1280], [1430, 1410, 1390, 1370, 1350], [1450, 1440, 1420, 1400, 1380]]

/-- PWR_SPEED: the die's own rate at the selected point, at least the smallest one (R451). -/
def speedWord (s : State) : Nat :=
  let w := getReg s powerPage Reg.pwrSpeedSel
  let least := (speedTable.getD (w / 4 % 8) []).getD (w / 32 % 8) 0
  least + Config.speedExtra s.part.serial w % (65536 - least)

/-- PWR_BOOT. -/
def pwrBootWord (s : State) : Nat :=
  let p := s.power
  p.bootKind + 4 * bit p.memtest + 8 * bit p.tripBefore + 65536 * (p.elapsedMs / 10 % 65536)

/-! ## Pins (R476) -/

/-- PGOOD is high while every rail holds power-good (R476). -/
def pinPgood (s : State) : Bool := railsUp s

/-- Whether a latched start failure or trip stands (R479). -/
def latched (s : State) : Bool :=
  match s.power.phase with
  | .bootFail => true
  | .powerFault _ => true
  | .tripped => true
  | _ => false

/-- FAULT_N, active low (R476). -/
def pinFaultN (s : State) : Bool := !(latched s || s.flt.replace || s.flash.flag.isSome)

/-- THERMTRIP_N, active low (R476). -/
def pinThermtripN (s : State) : Bool := s.power.phase != .tripped

/-! ## The management bus (R478, R479) -/

/-- The exponent of a LINEAR11 value of num/den: the smallest from −16 on with which the mantissa fits 10 bits (R478, log entry 54). -/
def linear11Exp : Nat → Nat → Nat → Nat
  | 0, _, _ => 31
  | k + 1, num, den => if num * 2 ^ 16 / (den * 2 ^ (31 - k)) ≤ 1023 then 31 - k else linear11Exp k num den

/-- LINEAR11 of num/den: a 5-bit exponent and an 11-bit mantissa (R478, log entry 54). -/
def linear11 (num den : Nat) : Nat :=
  let e := linear11Exp 32 num den
  (e + 16) % 32 * 2048 + Nat.min 1023 (num * 2 ^ 16 / (den * 2 ^ e))

/-- A word answer of the bus. -/
def busWord (s : State) (n v : Nat) : Host.Outcome State Fault Refusal := .next { s with answer := bytesLE n v }

/-- READ_VIN (R478), in V. -/
def execReadVin (s : State) : Host.Outcome State Fault Refusal := busWord s 2 (linear11 s.power.inputMv 1000)

/-- READ_IIN (R478), in A: the current of the last sample's power at its voltage. -/
def execReadIin (s : State) : Host.Outcome State Fault Refusal :=
  busWord s 2 (linear11 (s.power.samples.headD 0) (Nat.max 1 s.power.inputMv))

/-- READ_PIN (R478), in W: P1. -/
def execReadPin (s : State) : Host.Outcome State Fault Refusal :=
  busWord s 2 (linear11 (p1Frac s.power).1 (1000 * (p1Frac s.power).2))

/-- READ_TEMPERATURE_1 (R478): the hottest junction, zero while the rails are down. -/
def execReadTemperature1 (s : State) : Host.Outcome State Fault Refusal :=
  busWord s 2 (linear11 (if railsUp s then s.power.tj else 0) 1)

/-- A coolant reading in °C: open, as no command carries it (log entry 3), and zero while the rails are down (R478). -/
def coolant (s : State) : Nat × State :=
  if railsUp s then (let (n, s) := draw s; (n % 256, s)) else (0, s)

/-- READ_TEMPERATURE_2 (R478): the coolant outlet. -/
def execReadTemperature2 (s : State) : Host.Outcome State Fault Refusal := let (t, s) := coolant s; busWord s 2 (linear11 t 1)

/-- STATUS_BYTE (R478): its bits are open (log entry 3). -/
def execStatusByte (s : State) : Host.Outcome State Fault Refusal := let (n, s) := draw s; busWord s 1 n

/-- STATUS_WORD (R478): its bits are open (log entry 3). -/
def execStatusWord (s : State) : Host.Outcome State Fault Refusal := let (n, s) := draw s; busWord s 2 n

/-- A text of the part (R478): its content is the part's. -/
def mfrBlock (s : State) (i : Nat) : Host.Outcome State Fault Refusal := .next { s with answer := Config.mfrText s.part.serial i }

/-- MFR_ID (R478). -/
def execMfrId (s : State) : Host.Outcome State Fault Refusal := mfrBlock s 0
/-- MFR_MODEL (R478). -/
def execMfrModel (s : State) : Host.Outcome State Fault Refusal := mfrBlock s 1
/-- MFR_SERIAL (R478). -/
def execMfrSerial (s : State) : Host.Outcome State Fault Refusal := mfrBlock s 2

/-- Whether the flash flags the module (R315, R479). -/
def flashFlag (s : State) : Bool := s.flash.flag.isSome

/-- MFR_MODULE_STATE but for MEMTEST (R479). -/
def moduleStateWord (s : State) : Nat :=
  let booting := match s.power.phase with
    | .starting _ h => !h
    | _ => false
  let fail := s.power.phase == .bootFail
  let fault := match s.power.phase with
    | .powerFault _ => true
    | _ => false
  bit (railsUp s) + 2 * bit booting + 4 * bit s.power.readySent + 16 * bit fail + 32 * bit fault + 64 * bit (s.power.phase == .tripped) +
  128 * bit (s.flt.replace || flashFlag s)

/-- SMB_ALERT_N, active low (R478). -/
def pinSmbAlertN (s : State) : Bool := moduleStateWord s / 16 == 0

/-- MFR_MODULE_STATE (R479); during a start with the memory test selected, whether the test runs just then is open (log entry 3). -/
def execMfrModuleState (s : State) : Host.Outcome State Fault Refusal :=
  let v := moduleStateWord s
  if v.testBit 1 && s.power.memtest then (let (n, s) := draw s; busWord s 1 (v + 8 * (n % 2))) else busWord s 1 v

/-- MFR_FAULT_INFO (R479). -/
def execMfrFaultInfo (s : State) : Host.Outcome State Fault Refusal := busWord s 2 (s.power.faultGroup + 256 * s.power.bootStep)

/-- MFR_DEVICE_ID (R479), most significant byte first. -/
def execMfrDeviceId (s : State) : Host.Outcome State Fault Refusal := .next { s with answer := bytesBE 8 (deviceId s) }

/-- PWR_COOLANT and MFR_COOLANT (R456, R479). -/
def coolantWord (s : State) : Nat × State :=
  let (i, s) := coolant s
  let (o, s) := coolant s
  (i + 256 * o, s)

/-- MFR_COOLANT (R479). -/
def execMfrCoolant (s : State) : Host.Outcome State Fault Refusal := let (v, s) := coolantWord s; busWord s 2 v

/-- MFR_BOOT_MS (R479). -/
def execMfrBootMs (s : State) : Host.Outcome State Fault Refusal := busWord s 4 s.power.elapsedMs

end Sys2Proof.Machine
end

