-- ==== Sys2Proof/Machine/Views.lean ====
section
/-!
DEFINITION. Machine/Views.lean: what the registers read as: the common header and directory (19_register_pages.md, R460–R469, R475) and the
read-only registers of each page type that show state held elsewhere.
-/
namespace Sys2Proof.Machine

/-- The index of an offset in an array of n registers. -/
def regIndex (base n stride off : Nat) : Option Nat :=
  if base ≤ off ∧ off < base + n * stride ∧ (off - base) % stride = 0 then some ((off - base) / stride) else none

/-- 64 bits of a wide value: its words from the lowest. -/
def wordOf (n i : Nat) : Nat := n / 2 ^ (64 * i) % 2 ^ 64

/-- A mask as a number. -/
def maskOf (l : List Nat) : Nat := l.foldl (fun m i => m ||| 2 ^ i) 0

/-- The value of the first entry whose offset matches. -/
def viewIn : List (Nat × Nat) → Nat → Option Nat
  | [], _ => none
  | x :: t, off => if x.1 = off then some x.2 else viewIn t off

/-! ## Hamper pages and HAM_LSEL (R180) -/

/-- The physical hamper of a hamper page. -/
def physOfPage (page : Nat) : Nat := (page - 0x100) / 16

/-- The logical hamper a hamper page shows: the second of a folded pair while HAM_LSEL selects it (R180). -/
def lselOf (s : State) (page : Nat) : Nat :=
  let h := physOfPage page
  let ls := logicalsOf s h
  let sel := getReg s (0x100 + 0x10 * h) Reg.hamLsel % 2
  if isFolded s h then ls.getD sel 0 else ls.headD 0

/-- Whether a page is one of a hamper's. -/
def isHamperPage (page : Nat) : Bool := decide (0x100 ≤ page)

/-- Registers of hamper pages held per physical hamper: selections, the recipe store's, the conflict counters and the hazard control
(R116, R180, R208); self-tests are those of the hardware. -/
def physReg (sub off : Nat) : Bool :=
  decide (off < headerEnd) ||
  (match sub with
   | 0 => off == Reg.hamLsel || off == Reg.hamSregSel
   | 2 => off == Reg.vecRstoreSel || off == Reg.vecRstoreFault || off == Reg.vecBist
   | 3 => true
   | 4 => false
   | 5 => false
   | n => decide (6 ≤ n) && off == Reg.frameBist)

/-- The bank that holds a register of a page (R180, R364, R402, R463). -/
def bankOfReg (s : State) (page off : Nat) : Nat :=
  if isHamperPage page then (if physReg (page % 16) off then page else lbank (lselOf s page) (page % 16))
  else if page = mgmtPage ∧ (off = Reg.vyvPeerAddr ∨ off = Reg.vyvPeerAddr + 8) then peerBank (peerSel s)
  else if page = ramblerPage 0 ∧ (off = Reg.rmbRouteAddr ∨ off = Reg.rmbRouteAddr + 8) then routeBank 0 (rmbSel s 0).1 (rmbSel s 0).2
  else page

/-! ## Engines -/

/-- FEED_STATE (R472). -/
def feedStateWord (h : Hamper) (t : Nat) : Nat :=
  ((List.range 3).map (fun f =>
    let fr := getFrame h f
    let fed := fr.passes.any (fun p => !p.refused && decide (p.b0 ≤ t) && decide (p.fed < p.limit))
    let reads := fr.loads.any (fun l => !l.refused && !l.done) || fr.turns.any (fun u => !u.refused && !u.done)
    2 ^ f * bit fed + 2 ^ (3 + f) * bit reads)).sum

/-- The vector call that runs in beat t. -/
def callRunning (h : Hamper) (t : Nat) : Option VecRun :=
  h.vec.find? (fun v => !v.done && !(v.stop && v.cut.isSome) && decide (v.b0 ≤ t) && decide (t ≤ vecLast v))

/-- VEC_STATE (R116). -/
def vecStateWord (h : Hamper) (t : Nat) : Nat :=
  match callRunning h t with
  | none => 0
  | some v =>
    let ph := match v.d with
      | some d => ((vecPos v d (t - v.b0)).map (·.phase)).getD 0
      | none => 0
    1 + 2 * (v.slot % 64) + 128 * (ph % 4)

/-- STASH_STATE (R92). -/
def stashStateWord (h : Hamper) (t : Nat) : Nat :=
  match h.stash.find? (fun r => !r.done) with
  | none => 0
  | some r => 1 + 2 * r.stack.val + 16 * bit r.push + 32 * bit (stashWaits r t)

/-- LIST_STATE (R228). -/
def listStateWord (h : Hamper) : Nat :=
  let l := h.list
  bit l.steal.isSome + 2 * bit (!l.merges.isEmpty) + 4 * bit (l.items.any (fun i => !i.visible)) + 8 * Nat.min 3 (l.merges.length - 1) +
  32 * (h.core.ctx % 16)

/-- RUN of HAM_STATE (R180). -/
def runCode : RunState → Nat
  | .idle => 0
  | .issuing => 1
  | .waiting _ _ => 2
  | .sealing _ _ => 3

/-- HAM_STATE (R180). -/
def hamStateWord (s : State) (lh : Nat) : Nat :=
  let c := (getH s lh).core
  runCode c.run + 4 * bit c.window.isSome + 8 * bit c.ended + 16 * (c.ctx % 16) + 256 * lh + 16384 * bit (isFolded s (physOf s lh))

/-- Whether the s-registers of a core may be read and written through its page (R180). -/
def sregOpen (c : Core) : Bool := c.run == .idle || c.ended

/-- HAM_SREG_DATA (R180). -/
def sregWord (s : State) (page lh : Nat) : Nat :=
  let c := (getH s lh).core
  if sregOpen c then (sreg c (Fin.ofNat 32 (getReg s page Reg.hamSregSel))).toNat else 0

/-- FRAME_REPAIRb of a frame (R44, R70): keyed by frame instance and block. -/
def frameRepair (s : State) (inst b : Nat) : Nat := sparseGet 0 s.part.repair (inst * 16 + b)

/-- Whether an engine of a logical hamper has work in flight in beat t. -/
def hamperActive (h : Hamper) (t : Nat) : Bool := (h.core.launched && !h.core.ended) || !tailDone h t

/-! ## Views by page type -/

/-- Saturate at 32 bits. -/
def cap32 (n : Nat) : Nat := Nat.min n (2 ^ 32 - 1)

/-- Registers of hamper pages that show state held in the hamper. -/
def hamperView (s : State) (page off : Nat) : Option Nat :=
  let sub := page % 16
  let lh := lselOf s page
  let h := getH s lh
  let c := h.core
  let t := beatOf s lh
  match sub with
  | 0 => viewIn [(Reg.hamState, hamStateWord s lh), (Reg.hamPc, c.pc.toNat), (Reg.hamBeat, if c.launched then beatValue s lh else 0),
      (Reg.hamStepNonfin, cap32 c.counts.nonfin), (Reg.hamStepSat, cap32 c.counts.sat), (Reg.hamStepMrows, cap32 c.counts.mrows),
      (Reg.hamSregData, sregWord s page lh)] off
  | 1 => viewIn [(Reg.feedState, feedStateWord h t), (Reg.feedInject, bit h.feedInject)] off
  | 2 => viewIn [(Reg.vecState, vecStateWord h t), (Reg.vecRecipeValid, validMask (s.stores[physOfPage page]?.getD .empty)),
      (Reg.vecInject, getReg s (lbank lh 2) Reg.vecInject % 256 + 256 * bit h.vecInject.isSome)] off
  | 3 =>
    let e := (hazLog s (physOfPage page)).getD (getReg s page Reg.panHazSel % 16) (0, 0)
    viewIn [(Reg.panHazEntry, e.1 % 2 ^ 64), (Reg.panHazBeat, e.2 % 2 ^ 64)] off
  | 4 =>
    let k := fun (i : Nat) => (h.stackRegs[i]?).getD .zero
    let row := fun (base : Nat) (f : Stack → Nat) => (regIndex base 8 64 off).map (fun i => f (k i))
    (viewIn [(Reg.stashState, stashStateWord h t), (Reg.stashHbmAlloc, (h.stackRegs.toList.map (·.wmark)).sum)] off).orElse (fun _ =>
    (row Reg.stashBase (·.base)).orElse (fun _ => (row Reg.stashWmark (·.wmark)).orElse (fun _ =>
    (row Reg.stashExtBase (·.extBase)).orElse (fun _ => (row Reg.stashExtSize (·.extSize)).orElse (fun _ =>
    (row Reg.stashTopH (·.topH)).orElse (fun _ => (row Reg.stashTopE (·.topE)).orElse (fun _ =>
    (row Reg.stashDepth (·.depth)).orElse (fun _ => (row Reg.stashCtx (·.ctx)).orElse (fun _ => row Reg.stashPeak (·.peak))))))))))
  | 5 => viewIn [(Reg.listState, listStateWord h), (Reg.listCount, visibleCount h.list),
      (Reg.listPending, h.list.items.countP (fun i => !i.visible)), (Reg.listCursor, h.list.cursor),
      (Reg.listItemNonfin, cap32 c.winCounts.nonfin), (Reg.listItemSat, cap32 c.winCounts.sat),
      (Reg.listItemMrows, cap32 c.winCounts.mrows)] off
  | _ =>
    let f := sub - 6
    let fr := getFrame h f
    (viewIn [(Reg.frameState, frameState fr t), (Reg.frameProgress, ((fr.passes.getLast?).map (·.fed)).getD 0),
      (Reg.frameWmax, sparseGet 0 fr.mw fr.gen % 256 + 256 * (fr.shadowMw % 256)),
      (Reg.frameInject, getReg s (lbank lh sub) Reg.frameInject % 128 + 256 * bit fr.inject.isSome)] off).orElse (fun _ =>
      (regIndex Reg.frameRepair 16 4 off).map (fun b => frameRepair s (3 * physOfPage page + f) b))

/-- MG_HAMPERS_ACTIVE (R475). -/
def hampersActive (s : State) : Nat :=
  maskOf ((goodHampers s).filter (fun h => !(getFlags s (0x100 + 0x10 * h)).drained))

/-- Registers of the MGMT page that show state held elsewhere (R211, R364, R437, R475). -/
def mgmtView (s : State) (off : Nat) : Option Nat :=
  let x := getCtx s (getReg s mgmtPage Reg.mgCtxSel % 16)
  viewIn [(Reg.mgLoadStatus, loadStatusWord s), (Reg.mgLoadInfo, s.loader.info), (Reg.mgPackageBeats, packageBeats s % 2 ^ 64),
    (Reg.mgPhases, if twoPhases s then 2 else 1), (Reg.vyvSessions, vyvSessionsWord s), (Reg.vyvPeerPorts, peerPortsWord s),
    (Reg.mgCtxStatus, ctxStatusWord s (getReg s mgmtPage Reg.mgCtxSel % 16)), (Reg.mgCtxImageAddr, x.imageAddr),
    (Reg.mgCtxImageSize, x.imageSize), (Reg.mgCtxImageLen, x.imageLen), (Reg.mgCtxStopBeat, x.stopBeat), (Reg.mgCtxStopNs, x.stopNs),
    (Reg.mgCtxMap, ctxMapWord s), (Reg.mgIdent, identWord s), (Reg.mgFuseMap, maskOf s.part.hampersOn),
    (Reg.mgHampersActive, hampersActive s), (Reg.mgSerial, s.part.serial % 2 ^ 64),
    (Reg.mgModuleClock, (s.clockNs - s.power.startNs) / 1000000), (Reg.mgEventsQueued, s.events.length),
    (Reg.mgFlashWrites, cap32 s.flash.writes)] off

/-- Registers of the FAULT page (R321). -/
def faultView (s : State) (off : Nat) : Option Nat :=
  let u := getReg s faultPage Reg.fltWinSel % 65536
  viewIn [(Reg.fltState, fltStateWord s), (Reg.fltAttempt, cap32 s.flt.attempt), (Reg.fltWinInfo, winInfo s u),
    (Reg.fltLag, sparseGet 0 s.flt.lag u), (Reg.fltLagShare, lagShare s u)] off

/-- Registers of the POWER page (R456). -/
def powerView (s : State) (off : Nat) : Option Nat :=
  viewIn [(Reg.pwrState, pwrStateWord s), (Reg.pwrInput, pwrInputWord s), (Reg.pwrDomInfo, mvOf s (domSel s) % 1024),
    (Reg.pwrDomLimit, if domSel s < 8 then domLimitWord s (domSel s) else 0), (Reg.pwrBeatRate, cap32 (beatRateWord s)),
    (Reg.pwrTjMax, tjMaxWord s), (Reg.pwrSpeed, speedWord s), (Reg.pwrBoot, pwrBootWord s)] off

/-- Registers of the SECURE page (R421). -/
def secureView (s : State) (off : Nat) : Option Nat :=
  (viewIn [(Reg.secState, secStateWord s), (Reg.secSvn, secSvnWord s), (Reg.secKeyslots, secKeyslots s), (Reg.secDeviceId, deviceId s),
    (Reg.secStatus, secStatusWord s), (Reg.secOutLen, s.sec.outLen)] off).orElse (fun _ =>
  ((regIndex Reg.secFwHash 4 8 off).map (fun i => natOfLE ((s.sec.running.hash.drop (8 * i)).take 8))).orElse (fun _ =>
  (regIndex Reg.secAnchorHash 16 8 off).map (fun i => natOfLE (((anchorHash s (i / 4)).drop (8 * (i % 4))).take 8))))

/-- Registers of the LEDGER page (R296). -/
def ledgerView (s : State) (off : Nat) : Option Nat :=
  let seed := (getCtx s (ledCtx s)).seed.toNat
  viewIn [(Reg.ledState, ledState s), (Reg.ledSeedLo, seed % 2 ^ 64), (Reg.ledSeedHi, seed / 2 ^ 64), (Reg.ledHead, s.ledger.head),
    (Reg.ledAcked, s.ledger.acked), (Reg.ledGstep, ledGstep s), (Reg.ledDigest, ledDigest s)] off

/-- Registers of the SITECOUNT page (R298). -/
def scView (s : State) (off : Nat) : Option Nat :=
  viewIn [(Reg.scState, scStateWord s), (Reg.scCount, s.sc.count), (Reg.scOffset, ofSigned 64 s.sc.offset), (Reg.scFreq, ofSigned 32 s.sc.freq),
    (Reg.scLaunchAt, scLaunchAtWord s), (Reg.scLaunchLateNs, (scLaunchCtx s).lateNs)] off

/-- Registers of the TALLY page (R248). -/
def tallyView (s : State) (off : Nat) : Option Nat :=
  let b := getSlot s (getReg s tallyPage Reg.tlyBarSel % 64)
  let t := selTally s
  (viewIn [(Reg.tlyState, slotsUsed s + 128 * bit (!s.tly.lent.isEmpty)), (Reg.tlyEntry, entryWord (getEntry s (tlySel s).1 (tlySel s).2)),
    (Reg.tlyCount, t.count), (Reg.tlyWaiters, t.observe.length % 65536 + 65536 * (t.consume.length % 65536)), (Reg.tlyBarState, barWord b),
    (Reg.tlyBarHampers, b.hampers), (Reg.tlyBarCurrent, b.current), (Reg.tlyBarNext, b.next),
    (Reg.tlyFree, (16384 - talliesUsed s) + 65536 * (64 - slotsUsed s)), (Reg.tlyRemoteWaiters, remoteWaiters s)] off).orElse (fun _ =>
  (regIndex Reg.tlyBarPeers 4 8 off).map (wordOf b.peersCur))

/-- Offsets of the counters and injection each RAMBLER page holds for its own rambler (R402). -/
def rmbOwn (off : Nat) : Bool := (decide (Reg.rmbShardsTx ≤ off) && decide (off ≤ Reg.rmbResidueFails)) || off == Reg.rmbInject

/-- Registers of a RAMBLER page (R402): instance 1 holds the counters of its own rambler only. -/
def rmbView (s : State) (die off : Nat) : Option Nat :=
  if die = 0 then
    viewIn [(Reg.rmbState, rmbStateWord s), (Reg.rmbLimit, s.rmb.limit.getD 0), (Reg.rmbRounds, rmbRoundsWord s),
      (Reg.rmbRouteCfg, rmbRouteCfgWord s 0), (Reg.rmbPeerInfo, rmbPeerInfo s), (Reg.rmbEpoch, cap32 s.rmb.epoch),
      (Reg.rmbEpochCount, cap32 s.rmb.count)] off
  else if rmbOwn off then none else some 0

/-- Registers of a PORT page (R362). -/
def portView (s : State) (p off : Nat) : Option Nat := viewIn [(Reg.portState, portStateWord s p), (Reg.portLaneInfo, portLaneInfo s p)] off

/-- Registers of an HBMC page (R270). -/
def hbmcView (s : State) (i off : Nat) : Option Nat :=
  let m := getCtl s (true, i)
  viewIn [(Reg.hbmState, hbmState m), (Reg.hbmRowsRetired, m.spares.length), (Reg.hbmPcRetired, hbmPcRetired m),
    (Reg.hbmPcInfo, hbmPcInfo m (getReg s (hbmcPage i) Reg.hbmPcSel % 32)), (Reg.hbmPoisonCount, m.poison.length),
    (Reg.hbmRefugeFree, 8 - (larderUsed s).length)] off

/-- Registers of an LPC page (R273). -/
def lpcView (s : State) (i off : Nat) : Option Nat :=
  let m := getCtl s (false, i)
  viewIn [(Reg.lpcState, lpcState m), (Reg.lpcRepairsLeft, lpcRepairsLeft m), (Reg.lpcPoisonCount, m.poison.length)] off

/-- Registers of an update unit's page (R145). -/
def updView (s : State) (u off : Nat) : Option Nat :=
  let x := getUnit s u
  viewIn [(Reg.updState, updState s u), (Reg.updCursor, x.cursor),
    (Reg.updRecipeValid, validMask s.ustore % 65536), (Reg.updHome, updHome u)] off

/-- Registers of the UC page (R146). -/
def ucView (s : State) (off : Nat) : Option Nat :=
  let u := s.uc
  (viewIn [(Reg.ucState, ucStateWord s), (Reg.ucStep, u.step.toNat), (Reg.ucSealMask, maskOf (u.reqs.map (fun r => r.lh.val))),
    (Reg.ucNb, ((u.reqs.head?).map (fun r => ofSigned 10 r.norm.nb)).getD 0), (Reg.ucNormInfo, u.normTotal % 127 + 256 * bit u.normSat),
    (Reg.ucClipScale, u.clip.toNat)] off).orElse (fun _ =>
  ((regIndex Reg.ucNormTotal 3 8 off).map (wordOf u.normTotal)).orElse (fun _ =>
  (regIndex Reg.ucNormMissing 4 8 off).map (wordOf (if u.normPending then maskOf (normMissing s) else 0))))

/-- The arbiter block of a page (R336): ARB_CLASSc shows PARK, and state, credits and counters are those of the arbiter shown. -/
def arbView (s : State) (page off : Nat) : Option Nat :=
  let a := arbShown s page
  let x := getArb s a
  (viewIn [(Reg.arbState, arbStateWord x), (Reg.arbCutoffs, getReg s (arbBank a) Reg.arbCutoffs),
    (Reg.arbStarveServed, if page / 16 = 2 then getReg s (arbBank a) Reg.arbStarveServed else 0)] off).orElse (fun _ =>
  ((regIndex Reg.arbClass 10 4 off).map (fun c => getReg s page off % 256 + 256 * bit (parkMode c))).orElse (fun _ =>
  ((regIndex Reg.arbCredit 10 4 off).map (arbCreditWord x)).orElse (fun _ =>
  ((regIndex Reg.arbGrants 10 8 off).orElse (fun _ => regIndex Reg.arbWaitNs 10 8 off)).map (fun _ => getReg s (arbBank a) off))))

/-- Whether a page holds an arbiter block (R336, R463). -/
def hasArb (page : Nat) : Bool := page == mgmtPage || page / 16 == 2 || page / 16 == 3 || page == 0x10 || page == 0x11

/-! ## The common header and the directory (R460–R465) -/

/-- TYPE and INSTANCE of a page. -/
def typeInst (page : Nat) : Nat × Nat := (pageType page).getD (0, 0)

/-- Whether work of a page's block is in flight (R465, log entry 55). -/
def pageActive (s : State) (page : Nat) : Bool :=
  let (ty, i) := typeInst page
  let busyCtx := fun (x : Context) => x.state == .stopping || x.state == .restoring || x.state == .resetting
  if isHamperPage page then
    (logicalsOf s (physOfPage page)).any (fun l =>
      let h := getH s l
      let t := beatOf s l
      match page % 16 with
      | 0 => h.core.run != .idle && !h.core.ended
      | 1 => feedStateWord h t != 0
      | 2 => vecStateWord h t != 0
      | 3 => hamperActive h t
      | 4 => stashStateWord h t != 0
      | 5 => h.list.steal.isSome || !h.list.merges.isEmpty || h.list.items.any (fun x => !x.visible)
      | n => frameState (getFrame h (n - 6)) t % 8 != 0)
  else match ty with
  | 1 => s.loader.cmd.isSome || s.ctxs.any busyCtx
  | 2 => s.flt.restart.isSome || s.flt.draining
  | 4 => s.sec.op.isSome
  | 5 => !s.ledger.toExport.isEmpty
  | 7 => !s.tly.msgs.isEmpty
  | 8 => s.rmb.cmd.isSome
  | 9 => !portAcked s i
  | 10 => let m := getCtl s (true, i); m.scrubbing || m.rowCopy.isSome || m.migrating.isSome
  | 11 => let m := getCtl s (false, i); m.scrubbing || m.repairing.isSome
  | 12 => if page = ucPage then s.uc.sweepState == .running || s.uc.normPending
          else let x := getUnit s i; x.active && !x.stopped && !x.done
  | _ => false

/-- PAGE_STATUS (R465). -/
def pageStatusWord (s : State) (page : Nat) : Nat :=
  let f := getFlags s page
  let a := pageActive s page
  let st := if f.off || f.fault then 0 else if f.draining then 3 else if a then 2 else 1
  st + 4 * bit (a || f.draining) + 8 * bit f.drained + 16 * bit f.fault

/-- PAGE_CTRL (R460, R464). -/
def pageCtrlWord (s : State) (page : Nat) : Nat :=
  if page = 0 then 0
  else
    let f := getFlags s page
    bit (!f.disabled) + 4 * bit (page == mgmtPage && f.debug)

/-- Whether a page's hamper holds two logical hampers (R461). -/
def pageFolded (s : State) (page : Nat) : Bool := isHamperPage page && isFolded s (physOfPage page)

/-- Pages of a type present (R463). -/
def instances (s : State) (ty : Nat) : Nat :=
  (List.range 0x400).countP (fun k => pagePresent s k && (typeInst k).1 == ty)

/-- PAGE_CAPS (R463). -/
def pageCapsWord (s : State) (page : Nat) : Nat :=
  let (ty, _) := typeInst page
  bit ((bankRegs page).any (fun d => decide (0x800 ≤ d.off))) + 2 * bit (drainUnit page != .none_) + 4 * bit (hasArb page) +
  8 * bit (isHamperPage page) + 16 * bit (pageFolded s page) + 256 * (instances s ty % 256)

/-- The registers of the common header (R462). -/
def headerView (s : State) (page off : Nat) : Option Nat :=
  let (ty, i) := typeInst page
  let f := getFlags s page
  if off = Reg.pageId then some (ty + 65536 * i)
  else if off = Reg.pageCaps then some (pageCapsWord s page)
  else if off = Reg.pageCtrl then some (pageCtrlWord s page)
  else if off = Reg.pageStatus then some (pageStatusWord s page)
  else if off = Reg.pageExpertKey then some (65536 * bit (f.unlocked && page != 0))
  else none

/-- A directory entry (R461). -/
def dirEntryWord (s : State) (k : Nat) : Nat :=
  if !pagePresent s k then 0
  else
    let (ty, i) := typeInst k
    ty + 65536 * i + 2 ^ 32 + 2 ^ 33 * (pageCtrlWord s k % 2) + 2 ^ 34 * bit (getFlags s k).fault + 2 ^ 35 * bit (pageFolded s k)

/-- Registers of the directory (R460). -/
def dirView (s : State) (off : Nat) : Option Nat :=
  if off = Reg.dirCount then some ((List.range 0x400).countP (pagePresent s))
  else if off = Reg.dirEntry then some (dirEntryWord s (getReg s 0 Reg.dirSel % 65536))
  else (regIndex Reg.dirPresent 16 8 off).map (fun j => maskOf ((List.range 64).filter (fun b => pagePresent s (64 * j + b))))

/-- A register whose value shows state held elsewhere. -/
def viewReg (s : State) (page off : Nat) : Option Nat :=
  if off < headerEnd then headerView s page off
  else
    let (ty, i) := typeInst page
    let arb := if hasArb page then arbView s page off else none
    arb.orElse (fun _ =>
      if isHamperPage page then hamperView s page off
      else match ty with
      | 0 => dirView s off
      | 1 => mgmtView s off
      | 2 => faultView s off
      | 3 => powerView s off
      | 4 => secureView s off
      | 5 => ledgerView s off
      | 6 => scView s off
      | 7 => tallyView s off
      | 8 => rmbView s i off
      | 9 => portView s i off
      | 10 => hbmcView s i off
      | 11 => lpcView s i off
      | 12 => if page = ucPage then ucView s off else updView s i off
      | _ => none)

/-- The bits of a register that the spec leaves open or that only the part's physics gives, as width and place: temperatures, refresh waits,
instruction-buffer misses, codeword counts, and the limits of an IO domain (log entry 3). -/
def freeField (s : State) (page off : Nat) : Option (Nat × Nat) :=
  match typeInst page with
  | (3, _) => if off = Reg.pwrCoolant then some (16, 0) else if off = Reg.pwrDomInfo then some (8, 10)
      else if off = Reg.pwrDomLimit ∧ 8 ≤ domSel s then some (26, 0) else none
  | (9, _) => if off = Reg.portFecCorrected ∨ off = Reg.portFecUncorrected then some (64, 0) else none
  | (10, _) => if off = Reg.hbmTemp then some (8, 0) else if off = Reg.hbmRefreshWaits then some (64, 0) else none
  | (11, _) => if off = Reg.lpcTemp then some (8, 0) else if off = Reg.lpcRefreshWaits then some (64, 0) else none
  | (13, _) => if off = Reg.hamIfetchMiss then some (64, 0) else none
  | _ => none

/-- The value of a register without its free bits. -/
def regValue (s : State) (page off : Nat) : Nat :=
  match viewReg s page off with
  | some v => v
  | none => getReg s (bankOfReg s page off) off

end Sys2Proof.Machine
end

