-- ==== Sys2Proof/Machine/Registers.lean ====
section
/-!
DEFINITION. Machine/Registers.lean: accesses to the register pages: width, alignment and access codes (00_scope.md, R13–R17; 19_register_pages.md,
R459, R470), what a write to each register does, and the page messages (14_ports_and_transport.md, R352).
-/
namespace Sys2Proof.Machine

/-! ## Writes by page type -/

/-- PAGE_EXPERT_KEY: the unlock value unlocks the page, any other locks it; page 0 has no expert level (R17, R469). -/
def expertKey (s : State) (page v : Nat) : State :=
  let (ty, i) := typeInst page
  if page = 0 then s else setFlags s page { getFlags s page with unlocked := v % 65536 == 0xC000 + 0x100 * ty + i % 256 }

/-- A write to the common header (R460, R462). -/
def headerWrite (s : State) (page off v : Nat) : State :=
  if off = Reg.pageCtrl then (if page = 0 then s else pageCtrl s page v)
  else if off = Reg.pageErr then
    let s := clearErr s page v
    if page = ramblerPage 0 ∧ v.testBit 6 = true then rmbResolve s else s
  else if off = Reg.pageExpertKey then expertKey s page v
  else setReg s page off v

/-- HAM_LSEL: ignored where the physical hamper holds one logical hamper (R180). -/
def lselWrite (s : State) (page v : Nat) : State := if isFolded s (physOfPage page) then setReg s page Reg.hamLsel (v % 2) else s

/-- HAM_SREG_DATA: only while the core is idle or ended; s0 discards (R149, R180). -/
def sregWrite (s : State) (page v : Nat) : State :=
  let lh := lselOf s page
  let i := getReg s page Reg.hamSregSel % 32
  if sregOpen (getH s lh).core then modCore s lh (fun c => setSreg c (Fin.ofNat 32 i) (BitVec.ofNat 64 v)) else s

/-- SLOT and INDEX of VEC_RSTORE_SEL (R116). -/
def vecSel (s : State) (page : Nat) : Nat × Nat :=
  let v := getReg s page Reg.vecRstoreSel
  (bits v 5 0, bits v 10 6)

/-- Advance INDEX by one modulo 32 (R116). -/
def vecNextIndex (s : State) (page : Nat) : State :=
  let (k, i) := vecSel s page
  setReg s page Reg.vecRstoreSel (k + 64 * ((i + 1) % 32))

/-- The word VEC_RSTORE_DATA shows. -/
def vecWord (s : State) (page : Nat) : Nat :=
  let (k, i) := vecSel s page
  (slotWord (s.stores[physOfPage page]?.getD .empty) k i).toNat

/-- A write of VEC_RSTORE_DATA: the word is stored, the slot's valid bit cleared and INDEX advanced, unless a call holds the slot (R106,
R116). -/
def vecDataWrite (s : State) (page v : Nat) : State :=
  let h := physOfPage page
  let (k, i) := vecSel s page
  if slotHeld s h k then setErr s page 3
  else
    let r := storeWord (s.stores[h]?.getD .empty) k i (BitVec.ofNat 32 v)
    vecNextIndex { s with stores := s.stores.setIfInBounds h r } page

/-- A write of VEC_RSTORE_COMMIT (R105, R106, R116). -/
def vecCommitWrite (s : State) (page v : Nat) : State :=
  let h := physOfPage page
  let k := (vecSel s page).1
  commitVec s h k (v % 64) page (slotHeld s h k)

/-- A write of VEC_INJECT (R116). -/
def vecInjectWrite (s : State) (page v : Nat) : State :=
  let lh := lselOf s page
  let s := setReg s (lbank lh 2) Reg.vecInject (v % 256)
  modH s lh (fun h => { h with vecInject := if v.testBit 8 then some (v % 256) else none })

/-- A write of VEC_BIST: START while no call runs (R116). -/
def vecBistWrite (s : State) (page v : Nat) : State :=
  startBist s page Reg.vecBist v ((logicalsOf s (physOfPage page)).all (fun l => (callRunning (getH s l) (beatOf s l)).isNone))

/-- A write of PAN_HAZ_CTRL: CLEAR_LOG empties the log; clearing HALT lets beat advance go on after a hazard (R206, R208, log entry 56). -/
def hazCtrlWrite (s : State) (page v : Nat) : State :=
  let s := setReg s page Reg.panHazCtrl (v % 4)
  let s := if v.testBit 2 then { s with hazards := sparseSet [] s.hazards (physOfPage page) [] } else s
  if v.testBit 0 then s else { s with power := { s.power with halts := { s.power.halts with debug := false } } }

/-- The bytes of the eight HBM parts with stack i's set to w (R92). -/
def stashAlloc (h : Hamper) (i w : Nat) : Nat := ((h.stackRegs.setIfInBounds i { (h.stackRegs[i]?).getD .zero with wmark := w }).toList.map (·.wmark)).sum

/-- A write of a stack's base, size or owner: it takes effect while the stack is empty and the value meets R81, otherwise it is ignored and
sets MALFORMED (R92). -/
def stashWrite (s : State) (page off v : Nat) : State :=
  let lh := lselOf s page
  let h := getH s lh
  let refused := setErr s page 0
  let put := fun (i : Nat) (f : Stack → Stack) =>
    if ((h.stackRegs[i]?).getD .zero).depth ≠ 0 then refused
    else setH s lh { h with stackRegs := h.stackRegs.setIfInBounds i (f ((h.stackRegs[i]?).getD .zero)) }
  let sized := fun (i : Nat) (ok : Bool) (f : Stack → Stack) => if v % 4096 = 0 ∧ ok = true then put i f else refused
  match regIndex Reg.stashBase 8 64 off, regIndex Reg.stashWmark 8 64 off, regIndex Reg.stashExtBase 8 64 off,
      regIndex Reg.stashExtSize 8 64 off, regIndex Reg.stashCtx 8 64 off with
  | some i, _, _, _, _ => sized i (decide (v < hbmEnd) && dieOfHbm v == lh / 12) (fun k => { k with base := v })
  | _, some i, _, _, _ => sized i (decide (stashAlloc h i v ≤ 2 ^ 33)) (fun k => { k with wmark := v })
  | _, _, some i, _, _ => sized i (regionOf v == .lpddr) (fun k => { k with extBase := v })
  | _, _, _, some i, _ => sized i true (fun k => { k with extSize := v })
  | _, _, _, _, some i => put i (fun k => { k with ctx := v % 16 })
  | _, _, _, _, _ => s

/-- Whether the areas of a list lie in the hamper's pantry partition (R215, R228). -/
def listFits (s : State) (lh : Nat) : Bool :=
  let n := pantrySize s lh
  let slots := listSlots s lh
  let size := listReg s lh Reg.listStageSize
  decide (listReg s lh Reg.listBase + 64 * slots ≤ n) && decide (size ≤ 65536) && decide (listReg s lh Reg.listStage + slots * size ≤ n) &&
  decide (listReg s lh Reg.listTakeAddr + 64 ≤ n)

/-- The value a write of a list register leaves, kept to its alignment (R228, log entry 57). -/
def listValue (off v : Nat) : Nat :=
  if off = Reg.listBase then v / 4096 * 4096 else if off = Reg.listSize then v % 16 else v / 64 * 64

/-- A write of a list's configuration (R228). -/
def listWrite (s : State) (page off v : Nat) : State :=
  let lh := lselOf s page
  let h := getH s lh
  if off = Reg.listStealCfg then setReg s (lbank lh listSub) off v
  else
    let t := setReg s (lbank lh listSub) off (listValue off v)
    if !h.list.items.isEmpty || (h.core.launched && ctxRuns (getCtx s h.core.ctx)) || !listFits t lh then setErr s page 0 else t

/-- A write of FLUSH to LIST_FLUSH: every item is discarded while no launch of the owning context runs (R228). -/
def listFlush (s : State) (page v : Nat) : State :=
  let lh := lselOf s page
  let c := (getH s lh).core
  if v.testBit 0 && !(c.launched && ctxRuns (getCtx s c.ctx)) then emptyList s lh else s

/-- A write of FRAME_INJECT (R68). -/
def frameInjectWrite (s : State) (page v : Nat) : State :=
  let lh := lselOf s page
  let s := setReg s (lbank lh (page % 16)) Reg.frameInject (v % 128)
  modFrame s lh (page % 16 - 6) (fun f => { f with inject := if v.testBit 8 then some (v % 128) else none })

/-- A write of FRAME_BIST: START while FRAME_STATE is zero (R68). -/
def frameBistWrite (s : State) (page v : Nat) : State :=
  startBist s page Reg.frameBist v
    ((logicalsOf s (physOfPage page)).all (fun l => frameState (getFrame (getH s l) (page % 16 - 6)) (beatOf s l) == 0))

/-- A write to a hamper page (R68, R92, R116, R180, R208, R228, R472). -/
def hamperWrite (s : State) (page off v : Nat) : State :=
  let plain := setReg s (bankOfReg s page off) off v
  match page % 16 with
  | 0 => if off = Reg.hamLsel then lselWrite s page v else if off = Reg.hamSregData then sregWrite s page v else plain
  | 1 => if off = Reg.feedInject then modH s (lselOf s page) (fun h => { h with feedInject := v.testBit 0 }) else plain
  | 2 =>
    if off = Reg.vecRstoreData then vecDataWrite s page v
    else if off = Reg.vecRstoreCommit then vecCommitWrite s page v
    else if off = Reg.vecInject then vecInjectWrite s page v
    else if off = Reg.vecBist then vecBistWrite s page v
    else plain
  | 3 => if off = Reg.panHazCtrl then hazCtrlWrite s page v else plain
  | 4 => stashWrite s page off v
  | 5 => if off = Reg.listFlush then listFlush s page v else listWrite s page off v
  | _ =>
    if off = Reg.frameInject then frameInjectWrite s page v
    else if off = Reg.frameBist then frameBistWrite s page v
    else if off = Reg.frameSatFlag then (if v.testBit 0 then setReg s (bankOfReg s page off) off 0 else s)
    else plain

/-- A write of VYV_SELF or VYV_UDP_PORT: ignored while a near session is up (R364, log entry 58). -/
def selfWrite (s : State) (off v : Nat) : State :=
  if s.nearSessions.any (·.up) then setErr s (portPage 0) 4
  else if off = Reg.vyvSelf then openNears (flashReg s mgmtPage off v)
  else setReg s mgmtPage off v

/-- A write of MG_CTX_IMAGE_ADDR or MG_CTX_IMAGE_SIZE: of the selected context (R437). -/
def ctxImageWrite (s : State) (off v : Nat) : State :=
  modCtx s (getReg s mgmtPage Reg.mgCtxSel % 16) (fun x => if off = Reg.mgCtxImageAddr then { x with imageAddr := v } else { x with imageSize := v })

/-- A write to the MGMT page (R211, R364, R437, R475). -/
def mgmtWrite (s : State) (off v : Nat) : State :=
  if off = Reg.mgLoadCtrl then loadCtrl s v
  else if off = Reg.mgCtxCtrl then ctxCtrl s v
  else if off = Reg.mgCtxImageAddr ∨ off = Reg.mgCtxImageSize then ctxImageWrite s off v
  else if off = Reg.vyvSelf ∨ off = Reg.vyvUdpPort then selfWrite s off v
  else if off = Reg.vyvPeerAddr ∨ off = Reg.vyvPeerAddr + 8 ∨ off = Reg.vyvPeerPorts then peerWrite s off v
  else if Reg.vyvHostAllow ≤ off ∧ off < Reg.vyvHostAllowCfg + 32 then flashReg s mgmtPage off v
  else if off = Reg.mgEventTest then eventTest s v
  else if off = Reg.mgFlashEraseLog then flashEraseLog s v
  else setReg s mgmtPage off v

/-- A write to the FAULT page (R321). -/
def faultWrite (s : State) (off v : Nat) : State :=
  if Reg.fltDomain ≤ off ∧ off < Reg.fltDomain + 32 then domainWrite s off v
  else if off = Reg.fltReport then fltReport s v
  else if off = Reg.fltFlagClear then fltFlagClear s (BitVec.ofNat 32 v)
  else setReg s faultPage off v

/-- A write to the POWER page (R456). -/
def powerWrite (s : State) (off v : Nat) : State :=
  if off = Reg.pwrBudget then budgetWrite s v
  else if off = Reg.pwrDomSel then domSelWrite s v
  else if off = Reg.pwrDomLimit then domLimitWrite s v
  else if off = Reg.pwrTjThrottle then tjThrottleWrite s v
  else if off = Reg.pwrSpeedSel then speedSelWrite s v
  else if off = Reg.pwrHardW then hardWWrite s v
  else if off = Reg.pwrVoltForce then voltForce s v
  else if off = Reg.pwrReset then pwrResetWrite s v
  else if off = Reg.pwrBootCfg then flashReg s powerPage off v
  else setReg s powerPage off v

/-- A write to the SECURE page (R421). A fuse written through the page holds; SEC_SVN_COMMIT and SEC_KEY_REVOKE as commands say when one
fails. -/
def secureWrite (s : State) (off v : Nat) : State :=
  if off = Reg.secCtrl then secCtrl s v
  else if off = Reg.secSvnCommit then svnCommit s v true
  else if off = Reg.secKeyRevoke then keyRevoke s v true
  else if off = Reg.secTrustCtrl then trustCtrl s v
  else setReg s securePage off v

/-- A write to the LEDGER page (R280, R296). -/
def ledgerWrite (s : State) (off v : Nat) : State :=
  if off = Reg.ledSeedLo then ledSeed s false v
  else if off = Reg.ledSeedHi then ledSeed s true v
  else if off = Reg.ledBase ∨ off = Reg.ledSlots ∨ off = Reg.ledExport then ledConfig s off v
  else if off = Reg.ledResetRing then ledResetRing s v
  else setReg s ledgerPage off v

/-- A write to the SITECOUNT page (R298). -/
def scWrite (s : State) (off v : Nat) : State :=
  if off = Reg.scSource then scSourceWrite s v else if off = Reg.scSet then scSetWrite s v else setReg s scPage off v

/-- A write to the TALLY page (R248). -/
def tallyWrite (s : State) (off v : Nat) : State :=
  if off = Reg.tlyCountSet then tlyCountSet s v else if off = Reg.tlyBarRepair then tlyBarRepair s v else setReg s tallyPage off v

/-- A write to a RAMBLER page (R402). -/
def rmbWrite (s : State) (die off v : Nat) : State :=
  if off = Reg.rmbInject then rmbInject s die v
  else if off = Reg.rmbRekey then (if die = 0 then rmbRekey s v else s)
  else rmbConfig s die off v

/-- A write to a PORT page (R362). -/
def portWrite (s : State) (p off v : Nat) : State :=
  if off = Reg.portCfg then portCfg s p v
  else if off = Reg.portLoopback then portLoopback s p v
  else if off = Reg.portLaneRetire then portLaneRetire s p v
  else portConfig s p off v

/-- A write to an HBMC page (R270). -/
def hbmcWrite (s : State) (i off v : Nat) : State :=
  if off = Reg.hbmRetireRow then hbmRetireRow s i v
  else setReg s (hbmcPage i) off (if off = Reg.hbmInjectAddr then v / 32 * 32 else v)

/-- A write to an LPC page (R273). -/
def lpcWrite (s : State) (i off v : Nat) : State := setReg s (lpcPage i) off (if off = Reg.lpcInjectAddr then v / 64 * 64 else v)

/-- A write to an update unit's page (R145). -/
def updWrite (s : State) (u off v : Nat) : State :=
  if off = Reg.updInject then updInject s u v
  else if off = Reg.updBist then startBist s (updPage u) off v (!(getUnit s u).active)
  else setReg s (updPage u) off v

/-- A write to the UC page (R146). -/
def ucWrite (s : State) (off v : Nat) : State :=
  if off = Reg.ucStep then ucStepWrite s v
  else if off = Reg.ucSealExpect then ucExpectWrite s v
  else if off = Reg.ucCtrl then ucCtrl s v
  else if off = Reg.ucRstoreData then ucRstoreWrite s (BitVec.ofNat 32 v)
  else if off = Reg.ucRstoreCommit then ucCommit s (ucSel s).1 (v % 64)
  else setReg s ucPage off (if off = Reg.ucNormInbox then v / 16384 * 16384 else v)

/-- ARB_AUX as a page holds it: ARB_STARVE in HBMC pages, SEL in MGMT; reserved elsewhere (R336). -/
def arbAuxValue (page v : Nat) : Nat := if page / 16 = 2 then v % 64 else if page = mgmtPage then v % 32 else 0

/-- A write to the arbiter block (R328, R336). The expert level is checked before. -/
def arbWrite (s : State) (page off v : Nat) : State :=
  if arbConfigReg off then arbConfig s page off (arbConfigVal off v)
  else if off = Reg.arbErr then setReg s page off (getReg s page off &&& (v ^^^ 0xFFFFFFFF))
  else if off = Reg.arbAux then setReg s page off (arbAuxValue page v)
  else setReg s page off v

/-- Whether an offset lies in the arbiter block of a page (R336, R474). -/
def inArbBlock (page off : Nat) : Bool :=
  hasArb page && ((decide (0x400 ≤ off) && decide (off < 0x518)) || (decide (0xC00 ≤ off) && decide (off < 0xC28)))

/-- What a write that is let through does to a register; v holds no reserved bits. -/
def writeReg (s : State) (page off v : Nat) : State :=
  let (ty, i) := typeInst page
  if off < headerEnd then headerWrite s page off v
  else if inArbBlock page off then arbWrite s page off v
  else if isHamperPage page then hamperWrite s page off v
  else match ty with
  | 1 => mgmtWrite s off v
  | 2 => faultWrite s off v
  | 3 => powerWrite s off v
  | 4 => secureWrite s off v
  | 5 => ledgerWrite s off v
  | 6 => scWrite s off v
  | 7 => tallyWrite s off v
  | 8 => rmbWrite s i off v
  | 9 => portWrite s i off v
  | 10 => hbmcWrite s i off v
  | 11 => lpcWrite s i off v
  | 12 => if page = ucPage then ucWrite s off v else updWrite s i off v
  | _ => setReg s page off v

/-! ## Accesses (R13–R17, R459) -/

/-- What an access meets: no page, a wrong width or alignment, no register, or a register. -/
inductive RegAccess where
  | absent
  | badSize (page : Nat)
  | hole
  | reg (page off : Nat) (d : RegDesc)
deriving DecidableEq, Repr

/-- The register at an offset of a page; no arbiter block outside the pages that hold one. -/
def regAt (page off : Nat) : Option RegDesc := (regDesc page off).map (·.1)

/-- What an access of a width meets at an offset of a page that is present (R14). -/
def accessIn (page off : Nat) (wide : Bool) : RegAccess :=
  let n := if wide then 8 else 4
  if off % n ≠ 0 then .badSize page
  else match regAt page off with
  | some d => if d.wide = wide then .reg page off d else .badSize page
  | none =>
    let inside := (if wide then (regAt page (off + 4)).isSome else decide (4 ≤ off) && (regAt page (off - 4)).any (fun d => d.wide))
    if inside then .badSize page else .hole

/-- What an access meets at an address (R13, R14, R459). -/
def accessAt (s : State) (addr : Nat) (wide : Bool) : RegAccess :=
  let page := (addr - pageBase) / 0x1000
  if addr < pageBase ∨ pageBase + pageWindow ≤ addr ∨ pagePresent s page = false then .absent
  else accessIn page ((addr - pageBase) % 0x1000) wide

/-- A write of a register by its access code (R15–R17); the flag tells that it set an error bit under R14–R17 or met no page. -/
def regWrite (s : State) (rq : Requester) (addr : Nat) (wide : Bool) (v : Nat) : State × Bool :=
  match accessAt s addr wide with
  | .absent => (setErr s (rqPage s rq) errOutOfMap, true)
  | .badSize page => (setErr s page errAccessSize, true)
  | .hole => (s, false)
  | .reg page off d =>
    let w := v % 2 ^ (if wide then 64 else 32) &&& d.mask
    match d.acc with
    | .ro => (s, false)
    | .rwx => if (getFlags s page).unlocked then (writeReg s page off w, false) else (setErr s page errExpertDenied, true)
    | _ => (writeReg s page off w, false)

/-- The value a read gives and what the read does: recipe words advance their INDEX, open bits are drawn (R15, R116, log entry 3). -/
def readReg (s : State) (page off : Nat) (d : RegDesc) : Nat × State :=
  if d.acc = .wo then (0, s)
  else if isHamperPage page ∧ page % 16 = 2 ∧ off = Reg.vecRstoreData then (vecWord s page, vecNextIndex s page)
  else if page = ucPage ∧ off = Reg.ucRstoreData then ((ucWord s).toNat, ucRstoreRead s)
  else match freeField s page off with
  | some (w, k) =>
    let (n, t) := draw s
    ((regValue s page off % 2 ^ k + n % 2 ^ w * 2 ^ k) &&& d.mask, t)
  | none => (regValue s page off, s)

/-- A read of a register (R14, R459): its value, the state after, and whether it set an error bit or met no page. -/
def regRead (s : State) (rq : Requester) (addr : Nat) (wide : Bool) : Nat × State × Bool :=
  match accessAt s addr wide with
  | .absent => (0, setErr s (rqPage s rq) errOutOfMap, true)
  | .badSize page => (0, setErr s page errAccessSize, true)
  | .hole => (0, s, false)
  | .reg page off d =>
    let (v, t) := readReg s page off d
    (v % 2 ^ (if wide then 64 else 32), t, false)

/-- The address of a register of a page (R13). -/
def regAddr (page off : Nat) : Nat := pageBase + 0x1000 * page + off

/-! ## Commands on one register -/

/-- REGISTER_WRITE (R15). -/
def execRegisterWrite (rq : Requester) (addr : Addr) (wide : Bool) (value : Word) (s : State) : Host.Outcome State Fault Refusal :=
  .next (regWrite s rq addr.toNat wide value.toNat).1

/-- A host write of one register of a page of a type; a page of another type has no such register. -/
def rowWrite (s : State) (ok : Nat → Bool) (page off : Nat) (wide : Bool) (v : Nat) : State :=
  if ok page then (regWrite s .host (regAddr page off) wide v).1 else s

/-- Whether a page is block sub of a hamper. -/
def isSub (sub page : Nat) : Bool := decide (0x100 ≤ page) && decide (page < 0x400) && page % 16 == sub

/-- Whether a page is a FRAME page. -/
def isFramePage (page : Nat) : Bool := isSub 6 page || isSub 7 page || isSub 8 page

/-- PAGE_EXPERT_KEY_WRITE (R17). -/
def execPageExpertKeyWrite (page : Nat) (value : W32) (s : State) : Host.Outcome State Fault Refusal :=
  .next (rowWrite s (fun _ => true) page Reg.pageExpertKey false value.toNat)

/-- FRAME_INJECT (R68). -/
def execFrameInject (page : Nat) (value : W32) (s : State) : Host.Outcome State Fault Refusal :=
  .next (rowWrite s isFramePage page Reg.frameInject false value.toNat)

/-- FRAME_BIST (R68). -/
def execFrameBist (page : Nat) (value : W32) (s : State) : Host.Outcome State Fault Refusal :=
  .next (rowWrite s isFramePage page Reg.frameBist false value.toNat)

/-- The self-test register of a page (R68, R116, R145). -/
def bistReg (page : Nat) : Option Nat :=
  if isFramePage page then some Reg.frameBist
  else if isSub 2 page then some Reg.vecBist
  else if 0x40 ≤ page ∧ page < 0x54 then some Reg.updBist
  else none

/-- BIST_COMPLETE (R68, R116, R145): a self-test that runs sets DONE, and PASS where it found nothing. -/
def execBistComplete (page : Nat) (good : Bool) (s : State) : Host.Outcome State Fault Refusal :=
  .next (match bistReg page with
    | some off => if (getReg s page off).testBit 0 then setReg s page off (2 + 4 * bit good) else s
    | none => s)

/-- STASH_DESCRIPTOR_WRITE (R92): a base, size or owner of a stack. -/
def execStashDescriptorWrite (page off : Nat) (value : Word) (s : State) : Host.Outcome State Fault Refusal :=
  .next (rowWrite s (isSub 4) page off ((regIndex Reg.stashCtx 8 64 off).isNone) value.toNat)

/-- VEC_RSTORE_DATA_READ (R116): the word is the answer. -/
def execVecRstoreDataRead (page : Nat) (s : State) : Host.Outcome State Fault Refusal :=
  .next (if isSub 2 page then
      let (v, t, _) := regRead s .host (regAddr page Reg.vecRstoreData) false
      { t with answer := bytesLE 4 v }
    else s)

/-- VEC_RSTORE_DATA_WRITE (R106). -/
def execVecRstoreDataWrite (page : Nat) (value : W32) (s : State) : Host.Outcome State Fault Refusal :=
  .next (rowWrite s (isSub 2) page Reg.vecRstoreData false value.toNat)

/-- VEC_RSTORE_COMMIT (R105). -/
def execVecRstoreCommit (page : Nat) (value : W32) (s : State) : Host.Outcome State Fault Refusal :=
  .next (rowWrite s (isSub 2) page Reg.vecRstoreCommit false value.toNat)

/-- VEC_INJECT (R116). -/
def execVecInject (page : Nat) (value : W32) (s : State) : Host.Outcome State Fault Refusal :=
  .next (rowWrite s (isSub 2) page Reg.vecInject false value.toNat)

/-- VEC_BIST (R116). -/
def execVecBist (page : Nat) (value : W32) (s : State) : Host.Outcome State Fault Refusal :=
  .next (rowWrite s (isSub 2) page Reg.vecBist false value.toNat)

/-- HAM_SREG_DATA_WRITE (R180). -/
def execHamSregDataWrite (page : Nat) (value : Word) (s : State) : Host.Outcome State Fault Refusal :=
  .next (rowWrite s (isSub 0) page Reg.hamSregData true value.toNat)

/-- HAZ_LOG_CLEAR (R208): CLEAR_LOG written to PAN_HAZ_CTRL. -/
def execHazLogClear (page : Nat) (value : W32) (s : State) : Host.Outcome State Fault Refusal :=
  .next (if value.getLsbD 2 then rowWrite s (isSub 3) page Reg.panHazCtrl false value.toNat else s)

/-- LIST_CONFIG_WRITE (R228). -/
def execListConfigWrite (page off : Nat) (value : W32) (s : State) : Host.Outcome State Fault Refusal :=
  .next (if off = Reg.listFlush then s else rowWrite s (isSub 5) page off false value.toNat)

/-- LIST_FLUSH (R228). -/
def execListFlush (page : Nat) (value : W32) (s : State) : Host.Outcome State Fault Refusal :=
  .next (rowWrite s (isSub 5) page Reg.listFlush false value.toNat)

/-- FEED_INJECT (R472). -/
def execFeedInject (page : Nat) (value : W32) (s : State) : Host.Outcome State Fault Refusal :=
  .next (rowWrite s (isSub 1) page Reg.feedInject false value.toNat)

/-- HBM_INJECT (R270). -/
def execHbmInject (ctl : Fin 16) (value : W32) (s : State) : Host.Outcome State Fault Refusal :=
  .next (rowWrite s (fun _ => true) (hbmcPage ctl) Reg.hbmInject false value.toNat)

/-- HBM_RETIRE_ROW (R270). -/
def execHbmRetireRow (ctl : Fin 16) (value : Word) (s : State) : Host.Outcome State Fault Refusal :=
  .next (rowWrite s (fun _ => true) (hbmcPage ctl) Reg.hbmRetireRow true value.toNat)

/-- LPC_INJECT (R273). -/
def execLpcInject (ctl : Fin 16) (value : W32) (s : State) : Host.Outcome State Fault Refusal :=
  .next (rowWrite s (fun _ => true) (lpcPage ctl) Reg.lpcInject false value.toNat)

/-- LED_RESET_RING (R296). -/
def execLedResetRing (value : W32) (s : State) : Host.Outcome State Fault Refusal :=
  .next (rowWrite s (fun _ => true) ledgerPage Reg.ledResetRing false value.toNat)

/-- LED_SEED_WRITE (R280). -/
def execLedSeedWrite (high : Bool) (value : Word) (s : State) : Host.Outcome State Fault Refusal :=
  .next (rowWrite s (fun _ => true) ledgerPage (if high then Reg.ledSeedHi else Reg.ledSeedLo) true value.toNat)

/-- LED_CONFIG_WRITE (R296): LED_BASE, LED_SLOTS or LED_EXPORT. -/
def execLedConfigWrite (off : Nat) (value : Word) (s : State) : Host.Outcome State Fault Refusal :=
  .next (if off = Reg.ledBase ∨ off = Reg.ledSlots ∨ off = Reg.ledExport then
      rowWrite s (fun _ => true) ledgerPage off (off == Reg.ledBase) value.toNat
    else s)

/-! ## Page messages (R352) -/

/-- Kind code of PAGE_REPLY (R351). -/
def kindPageReply : Nat := 0x12

/-- Whether an address lies in the register window. -/
def inWindowAddr (a : Nat) : Bool := decide (pageBase ≤ a) && decide (a < pageBase + pageWindow)

/-- Read n consecutive registers (R352). -/
def readRegs (wide : Bool) : Nat → Nat → State → List Byte → Bool → List Byte × State × Bool
  | 0, _, s, bs, bad => (bs, s, bad)
  | n + 1, a, s, bs, bad =>
    let (v, t, e) := regRead s .host a wide
    let k := if wide then 8 else 4
    readRegs wide n (a + k) t (bs ++ bytesLE k v) (bad || e)

/-- PAGE_READ (R352). -/
def execPageRead (m : SessHead) (addr : Word) (wide : Bool) (count : BitVec 8) (tag : W32) (s : State) : Host.Outcome State Fault Refusal :=
  .next (match turn s m with
    | none => s
    | some s =>
      let n := count.toNat
      let reply := fun (s : State) (st : Nat) (bs : List Byte) => replyTo s m { kind := kindPageReply, fields := [tag.toNat, st], data := bs }
      if !inWindowAddr addr.toNat then reply s 2 []
      else if n = 0 ∨ 64 < n then reply s 1 []
      else
        let (bs, t, bad) := readRegs wide n addr.toNat s [] false
        reply t (bit bad) bs)

/-- Whether a write asks for a warm reset: the reply leaves before it begins (R446). -/
def asksWarm (s : State) (a : Nat) (wide : Bool) (v : Nat) : Bool :=
  match accessAt s a wide with
  | .reg page off _ => page == powerPage && off == Reg.pwrReset && v.testBit 0
  | _ => false

/-- Write values to consecutive registers in address order; a warm reset asked for is left for after the reply (R352, R446, R470). -/
def writeRegs (wide : Bool) : List Word → Nat → State → Bool → Bool → State × Bool × Bool
  | [], _, s, bad, warm => (s, bad, warm)
  | v :: vs, a, s, bad, warm =>
    let k := if wide then 8 else 4
    if asksWarm s a wide v.toNat then writeRegs wide vs (a + k) s bad true
    else
      let (t, e) := regWrite s .host a wide v.toNat
      writeRegs wide vs (a + k) t (bad || e) warm

/-- PAGE_WRITE (R352, R446). -/
def execPageWrite (m : SessHead) (addr : Word) (wide : Bool) (values : List Word) (tag : W32) (s : State) : Host.Outcome State Fault Refusal :=
  .next (match turn s m with
    | none => s
    | some s =>
      let n := values.length
      let reply := fun (s : State) (st : Nat) => replyTo s m { kind := kindPageReply, fields := [tag.toNat, st], data := [] }
      if !inWindowAddr addr.toNat then reply s 2
      else if n = 0 ∨ 64 < n then reply s 1
      else
        let (t, bad, warm) := writeRegs wide values addr.toNat s false false
        let t := reply t (bit bad)
        if warm then warmReset t else t)

end Sys2Proof.Machine
end

