-- ==== Sys2Proof/Machine/Dispatch.lean ====
section
/-!
DEFINITION. Machine/Dispatch.lean: the meaning of each command, one arm per row of the opcode table.
-/
namespace Sys2Proof.Machine

def exec (i : Instr) (s : State) : Host.Outcome State Fault Refusal :=
  match i with
  | .registerWrite rq addr wide value => Sys2Proof.Machine.execRegisterWrite rq addr wide value s
  | .pageExpertKeyWrite page value => Sys2Proof.Machine.execPageExpertKeyWrite page value s
  | .drain page => Sys2Proof.Machine.execDrain page s
  | .enable page => Sys2Proof.Machine.execEnable page s
  | .debug on => Sys2Proof.Machine.execDebug on s
  | .drainComplete page => Sys2Proof.Machine.execDrainComplete page s
  | .nop lh => Sys2Proof.Machine.execNop lh s
  | .add lh rd ra rb => Sys2Proof.Machine.execAdd lh rd ra rb s
  | .sub lh rd ra rb => Sys2Proof.Machine.execSub lh rd ra rb s
  | .and lh rd ra rb => Sys2Proof.Machine.execAnd lh rd ra rb s
  | .or lh rd ra rb => Sys2Proof.Machine.execOr lh rd ra rb s
  | .xor lh rd ra rb => Sys2Proof.Machine.execXor lh rd ra rb s
  | .sll lh rd ra rb => Sys2Proof.Machine.execSll lh rd ra rb s
  | .srl lh rd ra rb => Sys2Proof.Machine.execSrl lh rd ra rb s
  | .sra lh rd ra rb => Sys2Proof.Machine.execSra lh rd ra rb s
  | .mul lh rd ra rb => Sys2Proof.Machine.execMul lh rd ra rb s
  | .min lh rd ra rb => Sys2Proof.Machine.execMin lh rd ra rb s
  | .max lh rd ra rb => Sys2Proof.Machine.execMax lh rd ra rb s
  | .slt lh rd ra rb => Sys2Proof.Machine.execSlt lh rd ra rb s
  | .sltu lh rd ra rb => Sys2Proof.Machine.execSltu lh rd ra rb s
  | .addi lh rd ra imm => Sys2Proof.Machine.execAddi lh rd ra imm s
  | .andi lh rd ra imm => Sys2Proof.Machine.execAndi lh rd ra imm s
  | .ori lh rd ra imm => Sys2Proof.Machine.execOri lh rd ra imm s
  | .xori lh rd ra imm => Sys2Proof.Machine.execXori lh rd ra imm s
  | .slli lh rd ra imm => Sys2Proof.Machine.execSlli lh rd ra imm s
  | .srli lh rd ra imm => Sys2Proof.Machine.execSrli lh rd ra imm s
  | .srai lh rd ra imm => Sys2Proof.Machine.execSrai lh rd ra imm s
  | .li lh rd imm => Sys2Proof.Machine.execLi lh rd imm s
  | .lih lh rd imm => Sys2Proof.Machine.execLih lh rd imm s
  | .lds lh rd ra imm => Sys2Proof.Machine.execLds lh rd ra imm s
  | .ldw lh rd ra imm => Sys2Proof.Machine.execLdw lh rd ra imm s
  | .sts lh rd ra imm => Sys2Proof.Machine.execSts lh rd ra imm s
  | .stw lh rd ra imm => Sys2Proof.Machine.execStw lh rd ra imm s
  | .b lh cond ra rb off => Sys2Proof.Machine.execB lh cond ra rb off s
  | .jal lh rd imm => Sys2Proof.Machine.execJal lh rd imm s
  | .jr lh ra => Sys2Proof.Machine.execJr lh ra s
  | .skip lh n => Sys2Proof.Machine.execSkip lh n s
  | .window lh n exit => Sys2Proof.Machine.execWindow lh n exit s
  | .windowClose lh => Sys2Proof.Machine.execWindowClose lh s
  | .end_ lh => Sys2Proof.Machine.execEnd lh s
  | .illegalInstruction lh word => Sys2Proof.Machine.execIllegalInstruction lh word s
  | .mfs lh rd src => Sys2Proof.Machine.execMfs lh rd src s
  | .sumr lh rd src field => Sys2Proof.Machine.execSumr lh rd src field s
  | .pass lh f ra imm => Sys2Proof.Machine.execPass lh f ra imm s
  | .load lh f ra imm => Sys2Proof.Machine.execLoad lh f ra imm s
  | .turn lh f ra imm => Sys2Proof.Machine.execTurn lh f ra imm s
  | .vcall lh ra imm => Sys2Proof.Machine.execVcall lh ra imm s
  | .rload lh ra imm slot length => Sys2Proof.Machine.execRload lh ra imm slot length s
  | .rloadCommit lh => Sys2Proof.Machine.execRloadCommit lh s
  | .push lh stack ra imm => Sys2Proof.Machine.execPush lh stack ra imm s
  | .pop lh stack ra imm => Sys2Proof.Machine.execPop lh stack ra imm s
  | .dma lh ra imm => Sys2Proof.Machine.execDma lh ra imm s
  | .sig lh vid n => Sys2Proof.Machine.execSig lh vid n s
  | .waito lh rd vid n => Sys2Proof.Machine.execWaito lh rd vid n s
  | .waitc lh rd vid n => Sys2Proof.Machine.execWaitc lh rd vid n s
  | .barr lh rd vid wait => Sys2Proof.Machine.execBarr lh rd vid wait s
  | .post lh ra imm own target => Sys2Proof.Machine.execPost lh ra imm own target s
  | .take lh rd => Sys2Proof.Machine.execTake lh rd s
  | .steal lh => Sys2Proof.Machine.execSteal lh s
  | .sealOp lh ra => Sys2Proof.Machine.execSeal lh ra s
  | .sealRequestLeave lh => Sys2Proof.Machine.execSealRequestLeave lh s
  | .normb lh v => Sys2Proof.Machine.execNormb lh v s
  | .sweep lh ra resume => Sys2Proof.Machine.execSweep lh ra resume s
  | .beatAdvance die upsets slowest => Sys2Proof.Machine.execBeatAdvance die upsets slowest s
  | .passComplete lh f => Sys2Proof.Machine.execPassComplete lh f s
  | .loadComplete lh f => Sys2Proof.Machine.execLoadComplete lh f s
  | .turnComplete lh f => Sys2Proof.Machine.execTurnComplete lh f s
  | .vcallComplete lh => Sys2Proof.Machine.execVcallComplete lh s
  | .pushComplete lh => Sys2Proof.Machine.execPushComplete lh s
  | .popComplete lh => Sys2Proof.Machine.execPopComplete lh s
  | .stashExtensionArrival lh payload => Sys2Proof.Machine.execStashExtensionArrival lh payload s
  | .scheduledDmaComplete lh => Sys2Proof.Machine.execScheduledDmaComplete lh s
  | .openDmaComplete n => Sys2Proof.Machine.execOpenDmaComplete n s
  | .beatWatchdog die => Sys2Proof.Machine.execBeatWatchdog die s
  | .frameInject page value => Sys2Proof.Machine.execFrameInject page value s
  | .frameBist page value => Sys2Proof.Machine.execFrameBist page value s
  | .bistComplete page good => Sys2Proof.Machine.execBistComplete page good s
  | .stashDescriptorWrite page off value => Sys2Proof.Machine.execStashDescriptorWrite page off value s
  | .vecRstoreDataRead page => Sys2Proof.Machine.execVecRstoreDataRead page s
  | .vecRstoreDataWrite page value => Sys2Proof.Machine.execVecRstoreDataWrite page value s
  | .vecRstoreCommit page value => Sys2Proof.Machine.execVecRstoreCommit page value s
  | .vecInject page value => Sys2Proof.Machine.execVecInject page value s
  | .vecBist page value => Sys2Proof.Machine.execVecBist page value s
  | .hamSregDataWrite page value => Sys2Proof.Machine.execHamSregDataWrite page value s
  | .sealRequest n => Sys2Proof.Machine.execSealRequest n s
  | .sweepGo value => Sys2Proof.Machine.execSweepGo value s
  | .normCancel value => Sys2Proof.Machine.execNormCancel value s
  | .sealReopen value => Sys2Proof.Machine.execSealReopen value s
  | .ucStepWrite value => Sys2Proof.Machine.execUcStepWrite value s
  | .chunkCommit u checks => Sys2Proof.Machine.execChunkCommit u checks s
  | .ucRstoreDataRead => Sys2Proof.Machine.execUcRstoreDataRead s
  | .ucRstoreDataWrite value => Sys2Proof.Machine.execUcRstoreDataWrite value s
  | .ucRstoreCommit value => Sys2Proof.Machine.execUcRstoreCommit value s
  | .updInject u value => Sys2Proof.Machine.execUpdInject u value s
  | .updBist u value => Sys2Proof.Machine.execUpdBist u value s
  | .imageLoad value => Sys2Proof.Machine.execImageLoad value s
  | .unload value => Sys2Proof.Machine.execUnload value s
  | .patch value => Sys2Proof.Machine.execPatch value s
  | .loaderCommandDone => Sys2Proof.Machine.execLoaderCommandDone s
  | .hazLogClear page value => Sys2Proof.Machine.execHazLogClear page value s
  | .itemVisible lh => Sys2Proof.Machine.execItemVisible lh s
  | .stealProbe lh => Sys2Proof.Machine.execStealProbe lh s
  | .probeAnswer lh => Sys2Proof.Machine.execProbeAnswer lh s
  | .basketMerge n => Sys2Proof.Machine.execBasketMerge n s
  | .listConfigWrite page off value => Sys2Proof.Machine.execListConfigWrite page off value s
  | .listFlush page value => Sys2Proof.Machine.execListFlush page value s
  | .tallySignal n => Sys2Proof.Machine.execTallySignal n s
  | .tallyObserveWait n => Sys2Proof.Machine.execTallyObserveWait n s
  | .tallyConsumeWait n => Sys2Proof.Machine.execTallyConsumeWait n s
  | .barrierArrival n => Sys2Proof.Machine.execBarrierArrival n s
  | .tlyCountSet value => Sys2Proof.Machine.execTlyCountSet value s
  | .tlyBarRepair value => Sys2Proof.Machine.execTlyBarRepair value s
  | .lending die => Sys2Proof.Machine.execLending die s
  | .tallySignalMessage m vid n => Sys2Proof.Machine.execTallySignalMessage m vid n s
  | .tallyWatch m vid target token => Sys2Proof.Machine.execTallyWatch m vid target token s
  | .tallyConsume m vid n token => Sys2Proof.Machine.execTallyConsume m vid n token s
  | .tallyArrive m vid gen => Sys2Proof.Machine.execTallyArrive m vid gen s
  | .tallyRelease m abandoned vid token count => Sys2Proof.Machine.execTallyRelease m abandoned vid token count s
  | .barrierAbandon m vid => Sys2Proof.Machine.execBarrierAbandon m vid s
  | .memoryWrite rq addr data badWords => Sys2Proof.Machine.execMemoryWrite rq addr data badWords s
  | .memoryRead rq addr len ecc => Sys2Proof.Machine.execMemoryRead rq addr len ecc s
  | .scrub hbm ctl ecc overwritten => Sys2Proof.Machine.execScrub hbm ctl ecc overwritten s
  | .rowCopyComplete ctl => Sys2Proof.Machine.execRowCopyComplete ctl s
  | .larderCopyComplete ctl bad => Sys2Proof.Machine.execLarderCopyComplete ctl bad s
  | .repairComplete ctl => Sys2Proof.Machine.execRepairComplete ctl s
  | .hbmInject ctl value => Sys2Proof.Machine.execHbmInject ctl value s
  | .hbmRetireRow ctl value => Sys2Proof.Machine.execHbmRetireRow ctl value s
  | .lpcInject ctl value => Sys2Proof.Machine.execLpcInject ctl value s
  | .ledgerAck step => Sys2Proof.Machine.execLedgerAck step s
  | .ledResetRing value => Sys2Proof.Machine.execLedResetRing value s
  | .ledSeedWrite high value => Sys2Proof.Machine.execLedSeedWrite high value s
  | .ledConfigWrite off value => Sys2Proof.Machine.execLedConfigWrite off value s
  | .scMeasurement offset => Sys2Proof.Machine.execScMeasurement offset s
  | .sourceLost => Sys2Proof.Machine.execSourceLost s
  | .holdoverLimit => Sys2Proof.Machine.execHoldoverLimit s
  | .scSourceWrite value => Sys2Proof.Machine.execScSourceWrite value s
  | .scSet value => Sys2Proof.Machine.execScSet value s
  | .launch ctx handle count at_ => Sys2Proof.Machine.execLaunch ctx handle count at_ s
  | .launchStart ctx => Sys2Proof.Machine.execLaunchStart ctx s
  | .launchDone ctx => Sys2Proof.Machine.execLaunchDone ctx s
  | .stepReplay => Sys2Proof.Machine.execStepReplay s
  | .refusalNotice module ctx step attempt => Sys2Proof.Machine.execRefusalNotice module ctx step attempt s
  | .memberDrained module => Sys2Proof.Machine.execMemberDrained module s
  | .moduleDrainComplete => Sys2Proof.Machine.execModuleDrainComplete s
  | .laggardEvaluation unit => Sys2Proof.Machine.execLaggardEvaluation unit s
  | .fltReport value => Sys2Proof.Machine.execFltReport value s
  | .fltFlagClear value => Sys2Proof.Machine.execFltFlagClear value s
  | .mgFlashEraseLog value => Sys2Proof.Machine.execMgFlashEraseLog value s
  | .mgEventTest value => Sys2Proof.Machine.execMgEventTest value s
  | .arbitration arb requests => Sys2Proof.Machine.execArbitration arb requests s
  | .arbCutoff arb write requests => Sys2Proof.Machine.execArbCutoff arb write requests s
  | .arbConfigWrite page off value => Sys2Proof.Machine.execArbConfigWrite page off value s
  | .laneRetrain port lane => Sys2Proof.Machine.execLaneRetrain port lane s
  | .linkUp port half => Sys2Proof.Machine.execLinkUp port half s
  | .portCfgWrite port value => Sys2Proof.Machine.execPortCfgWrite port value s
  | .portLaneRetire port value => Sys2Proof.Machine.execPortLaneRetire port value s
  | .frameReceive port half frame => Sys2Proof.Machine.execFrameReceive port half frame s
  | .arpRequest port half ip => Sys2Proof.Machine.execArpRequest port half ip s
  | .neighbourSolicitation port half ip => Sys2Proof.Machine.execNeighbourSolicitation port half ip s
  | .icmpEcho port half => Sys2Proof.Machine.execIcmpEcho port half s
  | .ptpMessage port kind domain offset => Sys2Proof.Machine.execPtpMessage port kind domain offset s
  | .openMsg m events => Sys2Proof.Machine.execOpen m events s
  | .openAck m => Sys2Proof.Machine.execOpenAck m s
  | .closeMsg m reason => Sys2Proof.Machine.execClose m reason s
  | .ack m sack => Sys2Proof.Machine.execAck m sack s
  | .pageRead m addr wide count tag => Sys2Proof.Machine.execPageRead m addr wide count tag s
  | .pageWrite m addr wide values tag => Sys2Proof.Machine.execPageWrite m addr wide values tag s
  | .bulkRead m addr len tag => Sys2Proof.Machine.execBulkRead m addr len tag s
  | .bulkWrite m addr data vid tag badWords => Sys2Proof.Machine.execBulkWrite m addr data vid tag badWords s
  | .bulkData m tag offset status data last => Sys2Proof.Machine.execBulkData m tag offset status data last s
  | .bulkDone m tag status => Sys2Proof.Machine.execBulkDone m tag status s
  | .merge m dst tally slots => Sys2Proof.Machine.execMerge m dst tally slots s
  | .sync module offset => Sys2Proof.Machine.execSync module offset s
  | .hostResendTimeout session seq => Sys2Proof.Machine.execHostResendTimeout session seq s
  | .nearIdleAck module => Sys2Proof.Machine.execNearIdleAck module s
  | .creditAckTimer module => Sys2Proof.Machine.execCreditAckTimer module s
  | .sessionLost module => Sys2Proof.Machine.execSessionLost module s
  | .compose checks => Sys2Proof.Machine.execCompose checks s
  | .apply checks => Sys2Proof.Machine.execApply checks s
  | .join checks => Sys2Proof.Machine.execJoin checks s
  | .ramblerCommandDone => Sys2Proof.Machine.execRamblerCommandDone s
  | .shard m sh => Sys2Proof.Machine.execShard m sh s
  | .receipt m msg => Sys2Proof.Machine.execReceipt m msg s
  | .need m msg held => Sys2Proof.Machine.execNeed m msg held s
  | .heartbeat m hb => Sys2Proof.Machine.execHeartbeat m hb s
  | .requestSnapshot m => Sys2Proof.Machine.execRequestSnapshot m s
  | .requestArchive m first last => Sys2Proof.Machine.execRequestArchive m first last s
  | .needTimer site msg => Sys2Proof.Machine.execNeedTimer site msg s
  | .resendTimer site msg => Sys2Proof.Machine.execResendTimer site msg s
  | .heartbeatTimer => Sys2Proof.Machine.execHeartbeatTimer s
  | .routeTimeout site route => Sys2Proof.Machine.execRouteTimeout site route s
  | .farHello m body => Sys2Proof.Machine.execFarHello m body s
  | .farHelloAck m body => Sys2Proof.Machine.execFarHelloAck m body s
  | .farHelloTimer => Sys2Proof.Machine.execFarHelloTimer s
  | .key m body => Sys2Proof.Machine.execKey m body s
  | .keyAck m epoch => Sys2Proof.Machine.execKeyAck m epoch s
  | .farClose m => Sys2Proof.Machine.execFarClose m s
  | .rekeyThreshold => Sys2Proof.Machine.execRekeyThreshold s
  | .epochEnd => Sys2Proof.Machine.execEpochEnd s
  | .keyRepeat => Sys2Proof.Machine.execKeyRepeat s
  | .keyErase site => Sys2Proof.Machine.execKeyErase site s
  | .rmbRekey die value => Sys2Proof.Machine.execRmbRekey die value s
  | .rmbInject die value => Sys2Proof.Machine.execRmbInject die value s
  | .report cert => Sys2Proof.Machine.execReport cert s
  | .fwStage => Sys2Proof.Machine.execFwStage s
  | .secureCommandDone flashOk => Sys2Proof.Machine.execSecureCommandDone flashOk s
  | .secSvnCommit value fuseOk => Sys2Proof.Machine.execSecSvnCommit value fuseOk s
  | .secKeyRevoke value fuseOk => Sys2Proof.Machine.execSecKeyRevoke value fuseOk s
  | .sitecertInstall => Sys2Proof.Machine.execSitecertInstall s
  | .sitecertErase => Sys2Proof.Machine.execSitecertErase s
  | .anchorInstall slot => Sys2Proof.Machine.execAnchorInstall slot s
  | .anchorErase slot => Sys2Proof.Machine.execAnchorErase slot s
  | .entropy => Sys2Proof.Machine.execEntropy s
  | .preempt ctx mode => Sys2Proof.Machine.execPreempt ctx mode s
  | .stopPoint ctx => Sys2Proof.Machine.execStopPoint ctx s
  | .preemptComplete ctx => Sys2Proof.Machine.execPreemptComplete ctx s
  | .restore ctx => Sys2Proof.Machine.execRestore ctx s
  | .restoreComplete ctx => Sys2Proof.Machine.execRestoreComplete ctx s
  | .contextReset ctx => Sys2Proof.Machine.execContextReset ctx s
  | .powerOn o => Sys2Proof.Machine.execPowerOn o s
  | .ready portsUp => Sys2Proof.Machine.execReady portsUp s
  | .moduleReset => Sys2Proof.Machine.execModuleReset s
  | .warmReset => Sys2Proof.Machine.execWarmReset s
  | .powerLoss => Sys2Proof.Machine.execPowerLoss s
  | .input => Sys2Proof.Machine.execInput s
  | .powerSample mW mV => Sys2Proof.Machine.execPowerSample mW mV s
  | .throttle tj die => Sys2Proof.Machine.execThrottle tj die s
  | .thermalTrip => Sys2Proof.Machine.execThermalTrip s
  | .pwrVoltForce value => Sys2Proof.Machine.execPwrVoltForce value s
  | .readVin => Sys2Proof.Machine.execReadVin s
  | .readIin => Sys2Proof.Machine.execReadIin s
  | .readPin => Sys2Proof.Machine.execReadPin s
  | .readTemperature1 => Sys2Proof.Machine.execReadTemperature1 s
  | .readTemperature2 => Sys2Proof.Machine.execReadTemperature2 s
  | .statusByte => Sys2Proof.Machine.execStatusByte s
  | .statusWord => Sys2Proof.Machine.execStatusWord s
  | .mfrId => Sys2Proof.Machine.execMfrId s
  | .mfrModel => Sys2Proof.Machine.execMfrModel s
  | .mfrSerial => Sys2Proof.Machine.execMfrSerial s
  | .mfrModuleState => Sys2Proof.Machine.execMfrModuleState s
  | .mfrFaultInfo => Sys2Proof.Machine.execMfrFaultInfo s
  | .mfrDeviceId => Sys2Proof.Machine.execMfrDeviceId s
  | .mfrCoolant => Sys2Proof.Machine.execMfrCoolant s
  | .mfrBootMs => Sys2Proof.Machine.execMfrBootMs s
  | .feedInject page value => Sys2Proof.Machine.execFeedInject page value s
  | .portLoopback port value => Sys2Proof.Machine.execPortLoopback port value s
  | .mrstNRelease => Sys2Proof.Machine.execMrstNRelease s
  | .entropyOk => Sys2Proof.Machine.execEntropyOk s
  | .inputAbove40V => Sys2Proof.Machine.execInputAbove40V s
  | .thermalHaltResume tj => Sys2Proof.Machine.execThermalHaltResume tj s

end Sys2Proof.Machine
end

