-- ==== Sys2Proof/Safety.lean ====
section
/-!
DEFINITION. Safety.lean: what counts as a safe state: the sparse tables are in their canonical forms, and no die runs more
than 6 beats ahead of another (R182). No command faults (R10), so a safe run is a run through safe states.
-/
namespace Sys2Proof.Machine

/-- Keys strictly rising from lo on. -/
def risingFrom {α : Type} : Nat → List (Nat × α) → Bool
  | _, [] => true
  | lo, (k, _) :: t => decide (lo ≤ k) && risingFrom (k + 1) t

/-- Keys strictly rising. -/
def rising {α : Type} (l : List (Nat × α)) : Bool := risingFrom 0 l

/-- The canonical forms of the tables of a state: memory, the stored registers, those that flash keeps, the header flags of the pages,
the slot wheels, the tallies and the translation table. -/
def State.wf (s : State) : Bool :=
  Memory.wf s.mem && rising s.regs && rising s.flash.regs && sparseWf PageFlags.reset s.pages && sparseWf 0 s.wheels &&
  rising s.tly.tallies && rising s.tly.table

/-- No die runs more than 6 beats ahead of another (R182). -/
def beatsClose (d : Vector Nat 4) : Bool := d.all (fun a => d.all (fun b => decide (a ≤ b + 6)))

/-- A safe state. -/
def State.safe (s : State) : Bool := s.wf && beatsClose s.dies

end Sys2Proof.Machine
end

