-- ==== Sys2Proof/WellFormed.lean ====
section
/-!
DEFINITION. WellFormed.lean: the commands whose fields fit together beyond what their types say: the zero fields of an instruction
(R155, R157), the page a register command names (R458), the lengths a message may have (R352, R356, R381).
-/
namespace Sys2Proof.Machine

/-- Whether a page is of a type (R458). -/
def onPage (ty page : Nat) : Bool :=
  match pageType page with
  | some (t, _) => t == ty
  | none => false

/-- Whether an upset lies on a die, or in the storage of a page that exists. -/
def upsetOn (die : Fin 4) (u : Upset) : Bool :=
  match u with
  | .rodResidue lh _ _ | .shiftAdders lh _ _ | .vecResidue lh _ | .feedLine lh => lh.val / 12 == die.val
  | .storageParity page => (pageType page).isSome

/-- Whether the fields of a command fit together. -/
def wellFormed (i : Instr) : Bool :=
  match i with
  | .registerWrite _ _ wide value => wide || decide (value.toNat < 2 ^ 32)
  | .pageExpertKeyWrite page _ => (pageType page).isSome
  | .drain page => (pageType page).isSome
  | .enable page => (pageType page).isSome
  | .debug .. => true
  | .drainComplete page => (pageType page).isSome
  | .nop .. | .add .. | .sub .. | .and .. | .or .. | .xor .. | .sll .. | .srl .. | .sra .. | .mul .. | .min .. | .max .. | .slt ..
  | .sltu .. | .addi .. | .andi .. | .ori .. | .xori .. | .slli .. | .srli .. | .srai .. | .li .. | .lih .. | .lds .. | .ldw ..
  | .sts .. | .stw .. => true
  | .b _ cond ra rb _ => cond != .always || (ra == 0 && rb == 0)
  | .jal .. | .jr .. | .skip .. => true
  | .window _ n _ => n != 0
  | .windowClose .. | .end_ .. => true
  | .illegalInstruction _ word => !legalWord word.toNat true || !legalWord word.toNat false
  | .mfs .. => true
  | .sumr _ _ src field => decide (field.val < sumFields src)
  | .pass .. | .load .. | .turn .. | .vcall .. | .rload .. | .rloadCommit .. | .push .. | .pop .. | .dma .. | .sig .. | .waito ..
  | .waitc .. | .barr .. => true
  | .post _ _ _ own target => !own || target == 0
  | .take .. | .steal .. | .sealOp .. | .sealRequestLeave .. | .normb .. | .sweep .. => true
  | .beatAdvance die upsets _ => upsets.all (upsetOn die)
  | .passComplete .. | .loadComplete .. | .turnComplete .. | .vcallComplete .. | .pushComplete .. | .popComplete ..
  | .stashExtensionArrival .. | .scheduledDmaComplete .. | .openDmaComplete .. | .beatWatchdog .. => true
  | .frameInject page _ => onPage 19 page
  | .frameBist page _ => onPage 19 page
  | .bistComplete page _ => onPage 19 page || onPage 15 page || onPage 12 page
  | .stashDescriptorWrite page _ _ => onPage 17 page
  | .vecRstoreDataRead page => onPage 15 page
  | .vecRstoreDataWrite page _ => onPage 15 page
  | .vecRstoreCommit page _ => onPage 15 page
  | .vecInject page _ => onPage 15 page
  | .vecBist page _ => onPage 15 page
  | .hamSregDataWrite page _ => onPage 13 page
  | .sealRequest .. | .sweepGo .. | .normCancel .. | .sealReopen .. | .ucStepWrite .. | .chunkCommit .. | .ucRstoreDataRead
  | .ucRstoreDataWrite .. | .ucRstoreCommit .. | .updInject .. | .updBist .. | .imageLoad .. | .unload .. | .patch ..
  | .loaderCommandDone => true
  | .hazLogClear page _ => onPage 16 page
  | .itemVisible .. | .stealProbe .. | .probeAnswer .. | .basketMerge .. => true
  | .listConfigWrite page _ _ => onPage 18 page
  | .listFlush page _ => onPage 18 page
  | .tallySignal .. | .tallyObserveWait .. | .tallyConsumeWait .. | .barrierArrival .. | .tlyCountSet .. | .tlyBarRepair ..
  | .lending .. | .tallySignalMessage .. | .tallyWatch .. | .tallyConsume .. | .tallyArrive .. | .tallyRelease ..
  | .barrierAbandon .. => true
  | .memoryWrite _ _ data badWords => !data.isEmpty && badWords.all (fun k => decide (8 * k < data.length))
  | .memoryRead _ _ len _ => decide (0 < len)
  | .scrub .. | .rowCopyComplete .. | .larderCopyComplete .. | .repairComplete .. | .hbmInject .. | .hbmRetireRow ..
  | .lpcInject .. | .ledgerAck .. | .ledResetRing .. | .ledSeedWrite .. | .ledConfigWrite .. | .scMeasurement .. | .sourceLost
  | .holdoverLimit | .scSourceWrite .. | .scSet .. | .launch .. | .launchStart .. | .launchDone .. | .stepReplay
  | .refusalNotice .. | .memberDrained .. | .moduleDrainComplete | .laggardEvaluation .. | .fltReport .. | .fltFlagClear ..
  | .mgFlashEraseLog .. | .mgEventTest .. | .arbitration .. | .arbCutoff .. => true
  | .arbConfigWrite page _ _ => onPage 1 page || onPage 9 page || onPage 10 page || onPage 11 page
  | .laneRetrain .. | .linkUp .. | .portCfgWrite .. | .portLaneRetire .. => true
  | .frameReceive _ _ frame => decide (frame.payload.length ≤ frame.len)
  | .arpRequest .. | .neighbourSolicitation .. | .icmpEcho .. | .ptpMessage .. | .openMsg .. | .openAck .. | .closeMsg ..
  | .ack .. | .pageRead .. => true
  | .pageWrite _ _ wide values _ => decide (values.length < 256) && (wide || values.all (fun v => decide (v.toNat < 2 ^ 32)))
  | .bulkRead .. => true
  | .bulkWrite _ _ data _ _ badWords => decide (data.length ≤ 8192) && badWords.all (fun k => decide (8 * k < data.length))
  | .bulkData _ _ _ _ data _ => decide (data.length ≤ 8192)
  | .bulkDone .. => true
  | .merge _ _ _ slots => decide (slots.length = 128)
  | .sync .. | .hostResendTimeout .. | .nearIdleAck .. | .creditAckTimer .. | .sessionLost .. | .compose .. | .apply .. | .join ..
  | .ramblerCommandDone => true
  | .shard _ sh => decide (0 < sh.k.val) && (decide (sh.index.val < sh.k.val) || decide (32 ≤ sh.index.val)) && decide (sh.off < sh.total)
  | .receipt .. => true
  | .need _ _ held => decide (held ≤ 32)
  | .heartbeat _ hb => decide (hb.composed < 2 ^ 32) && decide (hb.complete < 2 ^ 32) && decide (hb.applied < 2 ^ 32)
  | .requestSnapshot .. => true
  | .requestArchive _ first last => decide (first < 2 ^ 32) && decide (last < 2 ^ 32)
  | .needTimer .. | .resendTimer .. | .heartbeatTimer | .routeTimeout .. | .farHello .. | .farHelloAck .. | .farHelloTimer
  | .key .. | .keyAck .. | .farClose .. | .rekeyThreshold | .epochEnd | .keyRepeat | .keyErase .. | .rmbRekey .. | .rmbInject ..
  | .report .. | .fwStage | .secureCommandDone .. | .secSvnCommit .. | .secKeyRevoke .. | .sitecertInstall | .sitecertErase
  | .anchorInstall .. | .anchorErase .. | .entropy | .preempt .. | .stopPoint .. | .preemptComplete .. | .restore ..
  | .restoreComplete .. | .contextReset .. | .powerOn .. | .ready .. | .moduleReset | .warmReset | .powerLoss | .input
  | .powerSample .. | .throttle .. | .thermalTrip | .pwrVoltForce .. | .readVin | .readIin | .readPin | .readTemperature1
  | .readTemperature2 | .statusByte | .statusWord | .mfrId | .mfrModel | .mfrSerial | .mfrModuleState | .mfrFaultInfo
  | .mfrDeviceId | .mfrCoolant | .mfrBootMs => true
  | .feedInject page _ => onPage 14 page
  | .portLoopback .. | .mrstNRelease | .entropyOk | .inputAbove40V | .thermalHaltResume .. => true

end Sys2Proof.Machine
end

