-- ==== Sys2Proof/Certificates/Slice0/Obligations.lean ====
section
/-!
DEFINITION. Certificates/Slice0/Obligations.lean: the statements for the provers. Answers says that a command answers a next state, and
what that state holds; the hypotheses are on the state before and the operands alone.
-/
namespace Sys2Proof.Machine

/-- A command answers a next state, of which post holds. -/
def Answers (i : Instr) (s : State) (post : State → Prop) : Prop := ∃ t, exec i s = .next t ∧ post t

/-- A core may issue an instruction that names the given registers: it is its beat, and none of their results is pending (R151, R153). -/
def Ready (s : State) (lh : Fin 48) (named : List (Fin 32)) : Prop :=
  canIssue s lh = true ∧ ∀ r ∈ named, isPending (getH s lh).core r = false

/-- What a command on the core of a logical hamper leaves alone: everything but the hamper and the stored registers. -/
def HamperOnly (s t : State) (lh : Fin 48) : Prop :=
  t = { s with hampers := t.hampers, regs := t.regs } ∧ ∀ l, l ≠ lh.val → getH t l = getH s l

/-- One register counts on by n, and no other changes (R467). -/
def CountsOn (s t : State) (bank off n : Nat) : Prop :=
  getReg t bank off = satAdd (regWidth bank off) (getReg s bank off) n ∧
  ∀ b o, regKey b o ≠ regKey bank off → getReg t b o = getReg s b o

/-- An instruction issued that changes the core alone: HAM_ISSUED counts, and the core becomes c. -/
def IssuedAs (s t : State) (lh : Fin 48) (c : Core) : Prop :=
  HamperOnly s t lh ∧ CountsOn s t (lbank lh 0) Reg.hamIssued 1 ∧ getH t lh = { getH s lh with core := c }

/-- The scalar registers c' after v is written to rd of c: s0 discards (R149). -/
def RegsAfter (c c' : Core) (rd : Fin 32) (v : Word) : Prop :=
  sreg c' rd = (if rd = 0 then 0 else v) ∧ ∀ r, r ≠ rd → sreg c' r = sreg c r

/-- An instruction issued that writes v to rd and goes on to the next word in the next beat (R149, R151). -/
def Wrote (s t : State) (lh : Fin 48) (rd : Fin 32) (v : Word) : Prop :=
  let c := (getH s lh).core
  let c' := (getH t lh).core
  IssuedAs s t lh { c with sregs := c'.sregs, pc := c.pc + 8, next := beatOf s lh + 1, last := beatOf s lh + 1 } ∧ RegsAfter c c' rd v

/-- An error bit of a page is set, and the error counted (R466, R467). -/
def Flagged (s t : State) (page b : Nat) : Prop :=
  getReg t page Reg.pageErr = getReg s page Reg.pageErr ||| 2 ^ b ∧
  getReg t page Reg.pageErrCount = satAdd (regWidth page Reg.pageErrCount) (getReg s page Reg.pageErrCount) 1

/-- Every register whose key is not named reads as before. -/
def KeepsRegs (s t : State) (keys : List Nat) : Prop := ∀ bank off, regKey bank off ∉ keys → getReg t bank off = getReg s bank off

/-- An error bit set and counted, and nothing else. -/
def ErrorOnly (s t : State) (page b : Nat) : Prop :=
  t = { s with regs := t.regs } ∧ Flagged s t page b ∧ KeepsRegs s t [regKey page Reg.pageErr, regKey page Reg.pageErrCount]

/-- One register takes a value, and nothing else changes. -/
def SetsOnly (s t : State) (bank off v : Nat) : Prop :=
  t = { s with regs := t.regs } ∧ getReg t bank off = v ∧ KeepsRegs s t [regKey bank off]

/-- The queue has room for an event that its page does not mask (R358, R468). -/
def MayEmit (s : State) (code page : Nat) : Prop :=
  s.events.length < 4096 ∧ (unmaskable code = true ∨ (getReg s page Reg.pageEventMask).testBit (maskBit code) = false)

/-- An event was queued with the next EVSEQ (R358, R359). -/
def Emitted (s t : State) (code page : Nat) : Prop :=
  t.evseq = (s.evseq + 1) % 2 ^ 32 ∧ ∃ e ∈ t.events, e.code = code ∧ e.page = page ∧ e.evseq = s.evseq

/-- Bytes bs stand at address a, and every other byte of memory reads as before. -/
def MemWritten (s t : State) (a : Nat) (bs : List Byte) : Prop :=
  memRead t.mem a bs.length = bs ∧ ∀ x, (x < a ∨ a + bs.length ≤ x) → memGet t.mem x = memGet s.mem x

/-- No controller holds a poisoned unit (R260). -/
def NoPoison (s : State) : Prop := ∀ m ∈ s.hbm.toList ++ s.lpc.toList, m.poison = []

end Sys2Proof.Machine

open Sys2Proof Sys2Proof.Machine

/-- R10: no command faults and none is refused: each has an effect, in every state. -/
def Obligations.CommandsNeverFaultOrRefuse : Prop := ∀ (i : Instr) (s : State), ∃ t, exec i s = .next t

/-- A step is the effect of the command at the front of the queue on the state with the queue's rest; on an empty queue it idles, which is the
model's choice (log entry 5). -/
def Obligations.StepRunsTheFrontCommand : Prop :=
  (∀ (s : State) (i : Instr) (rest : List Instr), step { s with pending := i :: rest } = exec i { s with pending := rest }) ∧
  (∀ s : State, s.pending = [] → step s = .next s)

/-- The state after reset is safe, with an empty queue, every beat count 0, the step number 0 and the seal open. -/
def Obligations.ResetIsSafe : Prop :=
  State.reset.safe = true ∧ State.reset.pending = [] ∧ State.reset.dies = Vector.replicate 4 0 ∧ State.reset.uc.step = 0 ∧
  State.reset.uc.sealSt = .open_ ∧ (∀ lh : Fin 48, (getH State.reset lh).core.run = .idle)

/-- R182: no die ever runs more than 6 beats ahead of another; and memory, registers and tables keep their canonical forms. -/
def Obligations.StepKeepsSafeStates : Prop := ∀ s t : State, s.safe = true → step s = .next t → t.safe = true

/-- No command's effect reaches the queue of commands that wait, or the part's fuses. -/
def Obligations.ExecKeepsQueueAndPart : Prop :=
  ∀ (i : Instr) (s t : State), s.safe = true → exec i s = .next t → t.pending = s.pending ∧ t.part = s.part

/-- R182: a die's beat count moves by one, at a BEAT_ADVANCE of that die, or returns to 0 where the module starts cold. -/
def Obligations.OnlyBeatAdvanceAndColdStartsMoveBeats : Prop :=
  ∀ (i : Instr) (s t : State), s.safe = true → exec i s = .next t → t.dies ≠ s.dies →
    match i with
    | .beatAdvance d _ _ => t.dies = s.dies.set d (s.dies[d] + 1)
    | .powerOn _ | .moduleReset | .mrstNRelease | .powerLoss | .thermalTrip => t.dies = Vector.replicate 4 0
    | _ => False

/-- R183, R182: when every unit of a die has acknowledged its beat, no halt holds it and the other dies are at most 5 beats behind, the
die completes the beat and no other die moves; otherwise nothing happens. A die whose hampers are idle and whose beats stand level is
ready. -/
def Obligations.BeatAdvanceCompletesABeat : Prop :=
  ∀ (s : State) (d : Fin 4) (ups : List Upset) (slow : Option (Nat × Nat)), s.safe = true →
    let ready := dieReady ((dieHampers d).foldl retryStalled s) d
    (ready = true → Answers (.beatAdvance d ups slow) s (fun t => t.dies = s.dies.set d (s.dies[d] + 1))) ∧
    (ready = false → Answers (.beatAdvance d ups slow) s (fun t => t = s)) ∧
    (s.power.phase = .running → s.power.halts = ⟨false, false, false⟩ → (∀ lh ∈ dieHampers d, getH s lh = .idle) →
      (∀ e : Fin 4, s.dies[e] = s.dies[d]) → ready = true)

/-- R184: where pantry writes of a beat meet, the one of the later place in the order takes effect, and of one place the later one; bytes
that no write covers keep their values. -/
def Obligations.PantryWritesCommitInOrder : Prop :=
  ∀ (s : State) (lh : Fin 48) (ws : List PWrite), s.wf = true →
    (∀ w ∈ ws, w.prio < 8 ∧ w.addr + w.data.length ≤ pantrySize s lh) →
    (∀ a, (∀ w ∈ ws, a < pantryAddr lh w.addr ∨ pantryAddr lh w.addr + w.data.length ≤ a) →
      memGet (commitWrites s lh ws).mem a = memGet s.mem a) ∧
    (∀ pre w post k, ws = pre ++ w :: post → k < w.data.length →
      (∀ x ∈ pre, w.prio < x.prio → ¬ (x.addr ≤ w.addr + k ∧ w.addr + k < x.addr + x.data.length)) →
      (∀ x ∈ post, w.prio ≤ x.prio → ¬ (x.addr ≤ w.addr + k ∧ w.addr + k < x.addr + x.data.length)) →
      some (memGet (commitWrites s lh ws).mem (pantryAddr lh (w.addr + k))) = w.data[k]?)

/-- R158: the two-register instructions write their result modulo 2^64 and nothing else of the core's registers; a shift takes its amount from
RB[5:0]; MUL gives the low 64 bits; MIN, MAX and SLT compare signed, SLTU unsigned; ANDI, ORI and XORI take IMM sign-extended. -/
def Obligations.RegisterInstructionsWriteTheirResults : Prop :=
  ∀ (s : State) (lh : Fin 48) (rd ra rb : Fin 32) (imm : BitVec 46), s.safe = true → Ready s lh [rd, ra, rb] →
    let a := sreg (getH s lh).core ra
    let b := sreg (getH s lh).core rb
    let k := (b.extractLsb' 0 6).toNat
    let i := BitVec.ofInt 64 imm.toInt
    Answers (.add lh rd ra rb) s (fun t => Wrote s t lh rd (BitVec.ofNat 64 (a.toNat + b.toNat))) ∧
    Answers (.sub lh rd ra rb) s (fun t => Wrote s t lh rd (BitVec.ofInt 64 ((a.toNat : Int) - b.toNat))) ∧
    Answers (.and lh rd ra rb) s (fun t => Wrote s t lh rd (a &&& b)) ∧
    Answers (.or lh rd ra rb) s (fun t => Wrote s t lh rd (a ||| b)) ∧
    Answers (.xor lh rd ra rb) s (fun t => Wrote s t lh rd (a ^^^ b)) ∧
    Answers (.sll lh rd ra rb) s (fun t => Wrote s t lh rd (BitVec.ofNat 64 (a.toNat * 2 ^ k))) ∧
    Answers (.srl lh rd ra rb) s (fun t => Wrote s t lh rd (BitVec.ofNat 64 (a.toNat / 2 ^ k))) ∧
    Answers (.sra lh rd ra rb) s (fun t => Wrote s t lh rd (BitVec.ofInt 64 (a.toInt / 2 ^ k))) ∧
    Answers (.mul lh rd ra rb) s (fun t => Wrote s t lh rd (BitVec.ofNat 64 (a.toNat * b.toNat))) ∧
    Answers (.min lh rd ra rb) s (fun t => Wrote s t lh rd (BitVec.ofInt 64 (min a.toInt b.toInt))) ∧
    Answers (.max lh rd ra rb) s (fun t => Wrote s t lh rd (BitVec.ofInt 64 (max a.toInt b.toInt))) ∧
    Answers (.slt lh rd ra rb) s (fun t => Wrote s t lh rd (if a.toInt < b.toInt then 1 else 0)) ∧
    Answers (.sltu lh rd ra rb) s (fun t => Wrote s t lh rd (if a.toNat < b.toNat then 1 else 0)) ∧
    Answers (.andi lh rd ra imm) s (fun t => Wrote s t lh rd (a &&& i)) ∧
    Answers (.ori lh rd ra imm) s (fun t => Wrote s t lh rd (a ||| i)) ∧
    Answers (.xori lh rd ra imm) s (fun t => Wrote s t lh rd (a ^^^ i))

/-- R156, R158: the other immediate instructions take IMM as a signed 46-bit value (a shift its bits [5:0]); LIH sets RD[63:46] and keeps
RD[45:0]; NOP writes nothing. -/
def Obligations.ImmediateInstructionsWriteTheirResults : Prop :=
  ∀ (s : State) (lh : Fin 48) (rd ra : Fin 32) (imm : BitVec 46), s.safe = true → Ready s lh [rd, ra] →
    let a := sreg (getH s lh).core ra
    let d := sreg (getH s lh).core rd
    let i := BitVec.ofInt 64 imm.toInt
    let k := (imm.extractLsb' 0 6).toNat
    Answers (.addi lh rd ra imm) s (fun t => Wrote s t lh rd (BitVec.ofInt 64 (a.toInt + imm.toInt))) ∧
    Answers (.slli lh rd ra imm) s (fun t => Wrote s t lh rd (BitVec.ofNat 64 (a.toNat * 2 ^ k))) ∧
    Answers (.srli lh rd ra imm) s (fun t => Wrote s t lh rd (BitVec.ofNat 64 (a.toNat / 2 ^ k))) ∧
    Answers (.srai lh rd ra imm) s (fun t => Wrote s t lh rd (BitVec.ofInt 64 (a.toInt / 2 ^ k))) ∧
    Answers (.li lh rd imm) s (fun t => Wrote s t lh rd i) ∧
    Answers (.lih lh rd imm) s (fun t => Wrote s t lh rd (imm.extractLsb' 0 18 ++ d.extractLsb' 0 46)) ∧
    Answers (.nop lh) s (fun t => Wrote s t lh 0 0)

/-- R160, R161, R151, R156: a branch goes to PC + 8 × OFF when COND holds and falls through otherwise; JAL links PC + 8 and jumps relative to
its own address; JR clears bits [2:0] of its target, and sets ALIGN where they are not zero; SKIP idles the core for IMM beats. -/
def Obligations.ControlFlowSetsThePc : Prop :=
  ∀ (s : State) (lh : Fin 48) (rd ra rb : Fin 32) (k : Cond) (off : BitVec 32) (imm : BitVec 46) (n : BitVec 32), s.safe = true →
    Ready s lh [rd, ra, rb] →
    let c := (getH s lh).core
    let t0 := beatOf s lh
    let a := sreg c ra
    Answers (.b lh k ra rb off) s (fun t => IssuedAs s t lh
      { c with pc := (if condHolds k a (sreg c rb) then c.pc + BitVec.ofInt 52 (8 * off.toInt) else c.pc + 8), next := t0 + 1, last := t0 + 1 }) ∧
    Answers (.jal lh rd imm) s (fun t => IssuedAs s t lh
      { c with sregs := (getH t lh).core.sregs, pc := c.pc + BitVec.ofInt 52 (8 * imm.toInt), next := t0 + 1, last := t0 + 1 } ∧
      RegsAfter c (getH t lh).core rd ((c.pc + 8).setWidth 64)) ∧
    (a.toNat % 8 = 0 → Answers (.jr lh ra) s (fun t => IssuedAs s t lh
      { c with pc := a.setWidth 52, next := t0 + 1, last := t0 + 1 })) ∧
    (a.toNat % 8 ≠ 0 → Answers (.jr lh ra) s (fun t => HamperOnly s t lh ∧ getH t lh = { getH s lh with core :=
      { c with pc := BitVec.ofNat 52 (a.toNat - a.toNat % 8), next := t0 + 1, last := t0 + 1 } } ∧ Flagged s t (hamPage s lh 0) 2 ∧
      KeepsRegs s t [regKey (lbank lh 0) Reg.hamIssued, regKey (hamPage s lh 0) Reg.pageErr, regKey (hamPage s lh 0) Reg.pageErrCount])) ∧
    Answers (.skip lh n) s (fun t => IssuedAs s t lh { c with pc := c.pc + 8, next := t0 + 1 + n.toNat, last := t0 + 1 })

/-- R162, R156: END stops the core's issue. R175, R177: a WINDOW with N ≥ 1 outside a window opens one over beats t + 1 to t + N, keeping the
registers as they stand at t + 1; its close restores them, drops results still pending from it, and issues at EXIT in the next beat. -/
def Obligations.EndAndWindowsSteerIssue : Prop :=
  ∀ (s : State) (lh : Fin 48) (n : BitVec 32) (exit : BitVec 24), s.safe = true →
    let c := (getH s lh).core
    let t0 := beatOf s lh
    (Ready s lh [] → inWindow c = false →
      Answers (.end_ lh) s (fun t => IssuedAs s t lh
        { c with pc := c.pc + 8, next := t0 + 1, last := t0 + 1, run := .idle, ended := true }) ∧
      (n ≠ 0 → Answers (.window lh n exit) s (fun t => IssuedAs s t lh
        { c with pc := c.pc + 8, next := t0 + 1, last := t0 + 1, drainsWin := Vector.replicate 3 none, vsumWin := none
                 window := some { first := t0 + 1, last := t0 + n.toNat, exitPc := c.pc + BitVec.ofInt 52 (8 * exit.toInt)
                                  saved := sregsAt c (t0 + 1), itemStep := none } }))) ∧
    (∀ w, c.window = some w → w.last = t0 → coreAcked c t0 = true →
      Answers (.windowClose lh) s (fun t => HamperOnly s t lh ∧ t.regs = s.regs ∧
        (getH t lh).core.window = none ∧ (getH t lh).core.sregs = w.saved ∧ (getH t lh).core.pc = w.exitPc ∧
        (getH t lh).core.next = t0 + 1 ∧ (getH t lh).core.pend = c.pend.filter (fun p => !p.win) ∧ (getH t lh).list.taken = none))

/-- R157: an illegal word ends the program as END does, sets ILLEGAL, records its address in HAM_FAULT_PC and emits PROGRAM_FAULT; the other
logical hampers go on. R175, R176, R164, R173: a WINDOW with N = 0, an END, SEAL, SWEEP, NORMB or wait inside a window, a TAKE or STEAL
outside one and a SUMR with a reserved field are illegal in the same way. -/
def Obligations.IllegalInstructionsEndTheProgram : Prop :=
  ∀ (s : State) (lh : Fin 48), s.safe = true → canIssue s lh = true → s.events.length < 4096 →
    (getReg s (hamPage s lh 0) Reg.pageEventMask).testBit (maskBit evProgramFault) = false →
    let c := (getH s lh).core
    let ill : State → Prop := fun t =>
      (getH t lh).core.run = .idle ∧ (getH t lh).core.ended = true ∧ (getReg t (hamPage s lh 0) Reg.pageErr).testBit 0 = true ∧
      getReg t (lbank lh 0) Reg.hamFaultPc = c.pc.toNat ∧ (∀ l, l ≠ lh.val → getH t l = getH s l) ∧ t.mem = s.mem ∧
      t.evseq = (s.evseq + 1) % 2 ^ 32 ∧ ∃ e ∈ t.events, e.code = evProgramFault ∧ e.page = hamPage s lh 0 ∧ e.evseq = s.evseq
    (∀ word, legalWord word.toNat (inWindow c) = false → Answers (.illegalInstruction lh word) s ill) ∧
    (∀ exit, Answers (.window lh 0 exit) s ill) ∧
    (∀ rd src field, sumFields src.val ≤ field.val → Answers (.sumr lh rd src field) s ill) ∧
    (inWindow c = true → Answers (.end_ lh) s ill ∧ (∀ n exit, Answers (.window lh n exit) s ill) ∧ (∀ ra, Answers (.sealOp lh ra) s ill) ∧
      (∀ ra r, Answers (.sweep lh ra r) s ill) ∧ (∀ v, Answers (.normb lh v) s ill) ∧ (∀ rd vid n, Answers (.waito lh rd vid n) s ill) ∧
      (∀ rd vid n, Answers (.waitc lh rd vid n) s ill) ∧ (∀ rd vid w, Answers (.barr lh rd vid w) s ill)) ∧
    (inWindow c = false → (∀ rd, Answers (.take lh rd) s ill) ∧ Answers (.steal lh) s ill)

/-- R153: an instruction that names a register whose result is pending does not issue in the beat: only the wait is noted. -/
def Obligations.PendingResultsHoldIssue : Prop :=
  ∀ (s : State) (lh : Fin 48) (rd ra rb : Fin 32) (imm : BitVec 46) (m : BitVec 24), canIssue s lh = true →
    isPending (getH s lh).core ra = true →
    let waits : State → Prop := fun t => t = { s with hampers := t.hampers } ∧ (∀ l, l ≠ lh.val → getH t l = getH s l) ∧
      getH t lh = { getH s lh with core := { (getH s lh).core with interlocked := true } }
    Answers (.add lh rd ra rb) s waits ∧ Answers (.addi lh rd ra imm) s waits ∧ Answers (.b lh .ne ra rb 0) s waits ∧
    Answers (.jr lh ra) s waits ∧ Answers (.lds lh rd ra imm) s waits ∧ Answers (.sts lh rd ra imm) s waits ∧ Answers (.sts lh ra rb imm) s waits ∧
    (∀ f, Answers (.pass lh f ra m) s waits) ∧ Answers (.vcall lh ra m) s waits ∧ Answers (.dma lh ra m) s waits ∧
    (∀ own target, Answers (.post lh ra m own target) s waits) ∧ (∀ vid, Answers (.sig lh vid (.reg ra)) s waits) ∧
    (inWindow (getH s lh).core = false → Answers (.sealOp lh ra) s waits ∧ (∀ r, Answers (.sweep lh ra r) s waits) ∧
      (∀ vid n, Answers (.waito lh ra vid n) s waits))

/-- R159, R153: a load from an aligned pantry address gives the little-endian word as it stands, four beats after issue; a store hands its
bytes to the end of the beat; both read their address as s[RA] + IMM in 64 bits and touch their pantry line; memory itself is unchanged till
then. An address at or beyond the end of the pantry sets RANGE, and one that is no multiple of the width ALIGN: the load then writes zero, and
the store is ignored. -/
def Obligations.ScalarAccessesReachThePantry : Prop :=
  ∀ (s : State) (lh : Fin 48) (rd ra : Fin 32) (imm : BitVec 46), s.safe = true → Ready s lh [rd, ra] →
    let h := getH s lh
    let c := h.core
    let t0 := beatOf s lh
    let a := (sreg c ra + BitVec.ofInt 64 imm.toInt).toNat
    let moved := fun (w : Bool) (c' : Core) => ({ h with core := c', lines := (a / 64, w, 0) :: h.lines } : Hamper)
    let on := ({ c with pc := c.pc + 8, next := t0 + 1, last := t0 + 1 } : Core)
    let counted : State → Prop := fun t => HamperOnly s t lh ∧ CountsOn s t (lbank lh 0) Reg.hamIssued 1
    let page := hamPage s lh 0
    let off (n : Nat) := pantrySize s lh ≤ a ∨ a % n ≠ 0
    let bad (n : Nat) (t : State) := HamperOnly s t lh ∧
      getReg t page Reg.pageErr = getReg s page Reg.pageErr ||| (if pantrySize s lh ≤ a then 2 else 0) ||| (if a % n ≠ 0 then 4 else 0) ∧
      KeepsRegs s t [regKey (lbank lh 0) Reg.hamIssued, regKey page Reg.pageErr, regKey page Reg.pageErrCount]
    let zero (n : Nat) (t : State) := bad n t ∧ getH t lh = { h with core := { on with
      pend := c.pend ++ (if rd = 0 then [] else [{ reg := rd, val := 0, due := t0 + 4, win := inWindow c }]) } }
    (a < pantrySize s lh → a % 8 = 0 →
      Answers (.lds lh rd ra imm) s (fun t => counted t ∧ getH t lh = moved false { on with
        pend := c.pend ++ (if rd = 0 then [] else
          [{ reg := rd, val := BitVec.ofNat 64 (memNat s.mem (pantryAddr lh a) 8), due := t0 + 4, win := inWindow c }]) }) ∧
      Answers (.sts lh rd ra imm) s (fun t => counted t ∧ getH t lh = moved true { on with
        stores := c.stores ++ [{ prio := 7, addr := a, data := bytesLE 8 (sreg c rd).toNat }] })) ∧
    (a < pantrySize s lh → a % 4 = 0 →
      Answers (.ldw lh rd ra imm) s (fun t => counted t ∧ getH t lh = moved false { on with
        pend := c.pend ++ (if rd = 0 then [] else
          [{ reg := rd, val := BitVec.ofNat 64 (memNat s.mem (pantryAddr lh a) 4), due := t0 + 4, win := inWindow c }]) }) ∧
      Answers (.stw lh rd ra imm) s (fun t => counted t ∧ getH t lh = moved true { on with
        stores := c.stores ++ [{ prio := 7, addr := a, data := bytesLE 4 (sreg c rd).toNat }] })) ∧
    (off 8 → Answers (.lds lh rd ra imm) s (zero 8) ∧ Answers (.sts lh rd ra imm) s (fun t => bad 8 t ∧ getH t lh = { h with core := on })) ∧
    (off 4 → Answers (.ldw lh rd ra imm) s (zero 4) ∧ Answers (.stw lh rd ra imm) s (fun t => bad 4 t ∧ getH t lh = { h with core := on }))

/-- R163: MFS reads the system values; R164: SUMR reads a field of the latest record of its source, once the records due in the beat have been
posted. -/
def Obligations.SystemValuesAndSummariesAreRead : Prop :=
  ∀ (s : State) (lh : Fin 48) (rd : Fin 32), s.safe = true → Ready s lh [rd] →
    let c := (getH s lh).core
    let w := Wrote s
    Answers (.mfs lh rd .lhamper) s (fun t => w t lh rd (BitVec.ofNat 64 lh)) ∧
    Answers (.mfs lh rd .lcount) s (fun t => w t lh rd 48) ∧
    Answers (.mfs lh rd .context) s (fun t => w t lh rd (BitVec.ofNat 64 c.ctx)) ∧
    (∀ l, (getCtx s c.ctx).launch = some l → Answers (.mfs lh rd .launch) s (fun t => w t lh rd l.count)) ∧
    (∀ n : Nat, c.start = (beatOf s lh : Int) - n → Answers (.mfs lh rd .beat) s (fun t => w t lh rd (BitVec.ofNat 64 (n + 1)))) ∧
    (∀ x, c.window = some x → Answers (.mfs lh rd .wrem) s (fun t => w t lh rd (BitVec.ofNat 64 (x.last - beatOf s lh)))) ∧
    (c.window = none → Answers (.mfs lh rd .wrem) s (fun t => w t lh rd 0)) ∧
    (∀ (src : Fin 5) (field : Fin 11), field.val < sumFields src → sumReady s lh src = true →
      Answers (.sumr lh rd src field) s (fun t => w t lh rd (BitVec.ofNat 64
        (if src.val < 3 then drainField (latestDrain c src) field else if src.val = 3 then vecField (latestVec c) field
         else countField c.counts field))))

/-- R152, R168–R172, R174, R178: an engine instruction hands its operation over to start in the next beat, with the descriptor address
(s[RA] + IMM) mod 2^23, the generator step of the hamper or of its taken item, and the window it runs in. -/
def Obligations.EngineInstructionsStartInTheNextBeat : Prop :=
  ∀ (s : State) (lh : Fin 48) (ra : Fin 32) (imm : BitVec 24), s.safe = true → Ready s lh [ra] →
    let c := (getH s lh).core
    let t0 := beatOf s lh
    let a := ((sreg c ra).toNat + imm.toNat) % 2 ^ 23
    let hands := fun (op : EngineOp) (t : State) => IssuedAs s t lh
      { c with pc := c.pc + 8, next := t0 + 1, last := t0 + 1
               starts := c.starts ++ [{ b0 := t0 + 1, op := op, tag :=
                 { win := inWindow c, winEnd := (c.window.map (·.last)).getD 0, gstep := (c.window.bind (·.itemStep)).getD c.gstep
                   ctx := c.ctx } }] }
    (∀ f, Answers (.pass lh f ra imm) s (hands (.pass f a))) ∧ (∀ f, Answers (.load lh f ra imm) s (hands (.load f a))) ∧
    (∀ f, Answers (.turn lh f ra imm) s (hands (.turn f a))) ∧ Answers (.vcall lh ra imm) s (hands (.vcall a)) ∧
    (∀ slot n, Answers (.rload lh ra imm slot n) s (hands (.rload slot n.toNat a))) ∧
    (∀ k, Answers (.push lh k ra imm) s (hands (.push k a))) ∧ (∀ k, Answers (.pop lh k ra imm) s (hands (.pop k a))) ∧
    Answers (.dma lh ra imm) s (hands (.dma a)) ∧ (∀ own target, Answers (.post lh ra imm own target) s (hands (.post own target a))) ∧
    (inWindow c = false → (∀ n : BitVec 10, Answers (.normb lh (.imm n)) s (hands (.normb n.toInt))) ∧
      Answers (.normb lh (.reg ra)) s (hands (.normb ((sreg c ra).setWidth 10).toInt)))

/-- R173, R232, R240: SIG, WAITO, WAITC and BARR on a VID of the right kind put their operation on its way to the translated tally or slot,
with FLAGS or s[RA][31:0] as n; the waiting ones stall the core. -/
def Obligations.TallyInstructionsGoToTheirBank : Prop :=
  ∀ (s : State) (lh : Fin 48) (rd ra : Fin 32) (vid : BitVec 12) (n : BitVec 16), s.safe = true → Ready s lh [rd, ra] →
    let c := (getH s lh).core
    let t0 := beatOf s lh
    let e := getEntry s c.ctx vid.toNat
    let on := ({ c with pc := c.pc + 8, next := t0 + 1, last := t0 + 1 } : Core)
    let sent := fun (m : TallyMsg) (c' : Core) (t : State) =>
      t = { s with hampers := t.hampers, regs := t.regs, tly := { s.tly with msgs := s.tly.msgs ++ [m] } } ∧
      (∀ l, l ≠ lh.val → getH t l = getH s l) ∧ CountsOn s t (lbank lh 0) Reg.hamIssued 1 ∧ getH t lh = { getH s lh with core := c' }
    let msg := fun (op : TallyOp) (dst : Fin 32) (phys k : Nat) => ({ op := op, lh := some lh, dst := dst, ctx := c.ctx, vid := vid.toNat
                                                                      phys := phys, n := k, agent := lh, beat := t0 } : TallyMsg)
    (e.kind = .local_ →
      Answers (.sig lh vid (.imm n)) s (sent (msg .signal 0 e.target n.toNat) on) ∧
      Answers (.sig lh vid (.reg ra)) s (sent (msg .signal 0 e.target ((sreg c ra).toNat % 2 ^ 32)) on) ∧
      (inWindow c = false →
        Answers (.waito lh rd vid (.imm n)) s (sent (msg .observe rd e.target n.toNat) { on with run := .waiting .tally rd }) ∧
        Answers (.waitc lh rd vid (.reg ra)) s
          (sent (msg .consume rd e.target ((sreg c ra).toNat % 2 ^ 32)) { on with run := .waiting .tally rd }))) ∧
    (e.kind = .barrier → inWindow c = false → ∀ w,
      Answers (.barr lh rd vid w) s (sent (msg (.arrive w) rd (e.target % 64) 0) { on with run := .waiting .barrier rd }))

/-- R178, R218: in a window, TAKE returns four beats later the handle of the visible head item whose cost fits into the window after that beat,
removes it, keeps its slot and copies its record into the take buffer; otherwise it returns 0 and the head stays. R178, R220: STEAL starts a
steal of PROBE probes, or is dropped and counted while one is outstanding; with PROBE = 0 it does nothing. -/
def Obligations.TakeAndStealUseTheOwnList : Prop :=
  ∀ (s : State) (lh : Fin 48) (rd : Fin 32) (w : Window), s.safe = true → Ready s lh [rd] → (getH s lh).core.window = some w →
    let c := (getH s lh).core
    let l := getList s lh
    let t0 := beatOf s lh
    let pends := fun (v : Word) => c.pend ++ (if rd = 0 then [] else [{ reg := rd, val := v, due := t0 + 4, win := true }])
    let noItem : State → Prop := fun t => HamperOnly s t lh ∧ CountsOn s t (lbank lh 0) Reg.hamIssued 1 ∧
      getList t lh = { l with taken := none } ∧ (getH t lh).core.pend = pends 0
    (l.items = [] → Answers (.take lh rd) s noItem) ∧
    (∀ i rest, l.items = i :: rest → (i.visible = false ∨ w.last < t0 + 4 + i.cost) → Answers (.take lh rd) s noItem) ∧
    (∀ i rest, l.items = i :: rest → i.visible = true → t0 + 4 + i.cost ≤ w.last →
      Answers (.take lh rd) s (fun t => HamperOnly s t lh ∧ (getH t lh).core.pend = pends i.entry ∧
        (getH t lh).core.window = some { w with itemStep := some i.gstep } ∧
        getReg t (lbank lh 5) Reg.listTaken = satAdd (regWidth (lbank lh 5) Reg.listTaken) (getReg s (lbank lh 5) Reg.listTaken) 1 ∧
        getList t lh = { l with items := rest, taken := some i.slot
                                copies := l.copies ++ [(t0 + 3, getReg s (lbank lh 5) Reg.listTakeAddr, i.record)] })) ∧
    (l.steal = none → bits (getReg s (lbank lh 5) Reg.listStealCfg) 5 0 ≠ 0 → Answers (.steal lh) s (fun t => HamperOnly s t lh ∧
      getList t lh = { l with steal := some { left := bits (getReg s (lbank lh 5) Reg.listStealCfg) 5 0, empty := 0, due := t0 + 96
                                              answer := none, victim := 0 } } ∧
      getReg t (lbank lh 0) Reg.hamSteals = satAdd (regWidth (lbank lh 0) Reg.hamSteals) (getReg s (lbank lh 0) Reg.hamSteals) 1)) ∧
    (l.steal.isSome = true → Answers (.steal lh) s (fun t => HamperOnly s t lh ∧ getList t lh = l ∧
      getReg t (lbank lh 0) Reg.hamStealsDropped =
        satAdd (regWidth (lbank lh 0) Reg.hamStealsDropped) (getReg s (lbank lh 0) Reg.hamStealsDropped) 1)) ∧
    (l.steal = none → bits (getReg s (lbank lh 5) Reg.listStealCfg) 5 0 = 0 → Answers (.steal lh) s (fun t => HamperOnly s t lh ∧
      getList t lh = l ∧ CountsOn s t (lbank lh 0) Reg.hamIssued 1))

/-- R220: a probe takes from the victim's tail the newest items up to the first pinned or not visible one, half the visible ones, or want,
and answers them in the order of the victim's list. R220, R221: the answer's items go to the thief's tail in that order and end the steal; an
empty answer moves the cursor past the victim, and the last one ends the steal, counting its empty probes. -/
def Obligations.StealProbesMoveItems : Prop :=
  ∀ (s : State) (lh : Fin 48) (st : Steal), s.safe = true → (getList s lh).steal = some st →
    let l := getList s lh
    let t0 := beatOf s lh
    (∀ pos v : Nat, st.answer = none → nextVictim s lh 47 l.cursor = some pos → victimAt lh pos = v → v ≠ lh.val → v < 48 →
      let x := getList s v
      let free := (x.items.reverse.takeWhile (fun i => i.visible && !i.pinned)).length
      let want := min (bits (getReg s (lbank lh 5) Reg.listStealCfg) 15 8) (freeSlots s lh)
      let k := min (min free ((visibleCount x + 1) / 2)) want
      Answers (.stealProbe lh) s (fun t => t = { s with hampers := t.hampers, regs := t.regs } ∧
        (∀ h, h ≠ lh.val → h ≠ v → getH t h = getH s h) ∧
        (getList t v).items = x.items.take (x.items.length - k) ∧ (getH t v).core = (getH s v).core ∧
        getList t lh = { l with cursor := pos, steal := some { st with answer := some (x.items.drop (x.items.length - k)), victim := v } })) ∧
    (∀ got, st.answer = some got → got ≠ [] → Answers (.probeAnswer lh) s (fun t =>
      (getList t lh).steal = none ∧ (getList t lh).items.length = l.items.length + got.length ∧
      (getList t lh).items.take l.items.length = l.items ∧ ((getList t lh).items.drop l.items.length).map (·.gstep) = got.map (·.gstep) ∧
      ((getList t lh).items.drop l.items.length).all (fun i => !i.visible) = true ∧ (∀ h, h ≠ lh.val → getH t h = getH s h))) ∧
    (st.answer = some [] → 1 < st.left → Answers (.probeAnswer lh) s (fun t => HamperOnly s t lh ∧
      getList t lh = { l with cursor := (l.cursor + 1) % 47, steal := some { st with left := st.left - 1, empty := st.empty + 1, due := t0 + 96
                                                                                     answer := none } })) ∧
    (st.answer = some [] → st.left ≤ 1 → Answers (.probeAnswer lh) s (fun t => HamperOnly s t lh ∧
      getList t lh = { l with cursor := (l.cursor + 1) % 47, steal := none } ∧
      getReg t (lbank lh 5) Reg.listProbesEmpty =
        satAdd (regWidth (lbank lh 5) Reg.listProbesEmpty) (getReg s (lbank lh 5) Reg.listProbesEmpty) (st.empty + 1)))

/-- R216, R215: the first item not yet visible becomes visible when its fetch is complete: its FETCH_LEN bytes stand in its slot's staging
area, and no other byte of memory has changed. R61, R62, R223: a merge on its way adds its occupied slots into the target row, slot by slot, counts, and leaves the way; one that names no
tally changes nothing else but its ANCHOR error, and one that names a local tally sends a signal of 1 to it. One of an earlier attempt is not
added (R309). -/
def Obligations.ItemsAndMergesArrive : Prop :=
  (∀ (s : State) (lh : Fin 48) (i : ListItem), s.safe = true → (getList s lh).items.find? (fun x => !x.visible) = some i →
    let stage := pantryAddr lh (getReg s (lbank lh 5) Reg.listStage + i.slot * getReg s (lbank lh 5) Reg.listStageSize)
    Answers (.itemVisible lh) s (fun t => t = { s with hampers := t.hampers, regs := t.regs, mem := t.mem } ∧
      (∀ h, h ≠ lh.val → getH t h = getH s h) ∧
      memRead t.mem stage i.fetchLen = memRead s.mem i.fetchAddr i.fetchLen ∧
      (∀ a, (a < stage ∨ stage + i.fetchLen ≤ a) → memGet t.mem a = memGet s.mem a) ∧
      getList t lh = { getList s lh with items := (getList s lh).items.map (fun x => if x.slot = i.slot then { x with visible := true } else x) })) ∧
  (∀ (s : State) (i : Nat) (m : MergeMsg), s.safe = true → s.merges[i]? = some m →
    let h := getH s m.dstLh
    let f := getFrame h m.dstFrame
    ((m.attempt = none ∨ m.attempt = some s.flt.attempt) →
      (m.tally = none → Answers (.basketMerge i) s (fun t =>
        t = { s with hampers := t.hampers, regs := t.regs, merges := listErase s.merges i } ∧ (∀ l, l ≠ m.dstLh.val → getH t l = getH s l) ∧
        getH t m.dstLh = { h with frames := h.frames.setIfInBounds m.dstFrame (mergeRow f m.dstRow m.slots).1 } ∧
        getReg t (lbank m.dstLh 5) Reg.listMergesIn =
          satAdd (regWidth (lbank m.dstLh 5) Reg.listMergesIn) (getReg s (lbank m.dstLh 5) Reg.listMergesIn) 1)) ∧
      (∀ v, m.tally = some v → (getEntry s m.ctx v).kind = .local_ → Answers (.basketMerge i) s (fun t =>
        t.merges = listErase s.merges i ∧ (∀ l, l ≠ m.dstLh.val → getH t l = getH s l) ∧ t.mem = s.mem ∧
        getH t m.dstLh = { h with frames := h.frames.setIfInBounds m.dstFrame (mergeRow f m.dstRow m.slots).1 } ∧
        ∃ x, t.tly.msgs = s.tly.msgs ++ [x] ∧ x.op = .signal ∧ x.phys = (getEntry s m.ctx v).target ∧ x.n = 1 ∧ x.ctx = m.ctx))) ∧
    (∀ a, m.attempt = some a → a ≠ s.flt.attempt → Answers (.basketMerge i) s (fun t => t = s)))


/-- R174, R120: SEAL waits in the core; when nothing of the hamper that it waits for is outstanding and the beat's completions are posted, the
request leaves with the step's counts, norm and digests, which start again at zero, and GSTEP becomes the step after the one named. -/
def Obligations.SealCarriesTheStepsAccumulators : Prop :=
  ∀ (s : State) (lh : Fin 48) (ra : Fin 32) (step : StepNo) (b : Nat), s.safe = true →
    let h := getH s lh
    let c := h.core
    let t0 := beatOf s lh
    (Ready s lh [ra] → inWindow c = false → Answers (.sealOp lh ra) s (fun t => IssuedAs s t lh
      { c with pc := c.pc + 8, next := t0 + 1, last := t0 + 1, run := .sealing ((sreg c ra).setWidth 48) t0 })) ∧
    (c.run = .sealing step b → sealReady h t0 = true → c.sealBeat = none → completionsDone h t0 = true →
      Answers (.sealRequestLeave lh) s (fun t => t = { s with hampers := t.hampers, uc := t.uc } ∧ (∀ l, l ≠ lh.val → getH t l = getH s l) ∧
        (∃ r, t.uc = { s.uc with leaving := s.uc.leaving ++ [r] } ∧ r.lh = lh ∧ r.step = step ∧ r.norm = c.norm ∧
          r.counts = c.counts.add c.winCounts ∧ r.digests = c.digests ∧ r.tq = t0) ∧
        getH t lh = { h with core := { c with run := .issuing, next := t0 + 1, gstep := step + 1, sealBeat := some t0, counts := .zero
                                              winCounts := .zero, digests := [], norm := .empty c.norm.nb } }))
/-- R51, R165, R48, R77, R101, R110: in its last beat a pass, a load, a turn or a vector call does its last work and is done: a pass posts its drain
summary (a refused one MALFORMED alone), a load and a turn leave their frame as their last row gives it, and a call posts its vector
summary, which the VEC_LAST_SUMMARY registers also show. -/
def Obligations.EngineCompletionsPostTheirResults : Prop :=
  ∀ (s : State) (lh : Fin 48) (f : Fin 3), s.safe = true →
    let h := getH s lh
    let fr := getFrame h f
    let t0 := beatOf s lh
    let env := engEnv s lh []
    h.core.stopped = false →
    (∀ p, fr.passes.find? (passDue · t0) = some p → p.tag.win = false →
      Answers (.passComplete lh f) s (fun t => (getH t lh).core.drains[f] =
        (if p.refused then { DrainSum.zero with malformed := true } else (passBeat env f fr p).2.1.sum_))) ∧
    (∀ p, fr.passes = [p] → passDue p t0 = true → p.refused = true → p.tag.win = false →
      Answers (.passComplete lh f) s (fun t => t = { s with hampers := t.hampers } ∧ (∀ l, l ≠ lh.val → getH t l = getH s l) ∧
        getH t lh = { h with frames := h.frames.set f { fr with passes := [{ p with done := true }] }
                             core := { h.core with drains := h.core.drains.set f { DrainSum.zero with malformed := true } } })) ∧
    (∀ l, fr.loads = [l] → l.done = false → l.b0 + 127 = t0 → Answers (.loadComplete lh f) s (fun t =>
      getFrame (getH t lh) f = { (loadBeat env f fr l).1 with loads := [{ l with done := true }] } ∧ t.mem = s.mem ∧
      (∀ x, x ≠ lh.val → getH t x = getH s x) ∧
      (l.refused = true → t = { s with hampers := t.hampers }))) ∧
    (∀ u, fr.turns = [u] → u.done = false → u.b0 + 127 = t0 → u.refused = false → Answers (.turnComplete lh f) s (fun t =>
      getFrame (getH t lh) f = { (turnBeat env f fr u).1 with turns := [{ u with done := true }] } ∧ t.mem = s.mem ∧
      (∀ x, x ≠ lh.val → getH t x = getH s x) ∧
      getReg t (lbank lh feederSub) Reg.feedTurns =
        satAdd (regWidth (lbank lh feederSub) Reg.feedTurns) (getReg s (lbank lh feederSub) Reg.feedTurns) 1)) ∧
    (∀ v, h.vec.find? (vecDue · t0) = some v → v.tag.win = false →
      let v' := (vecBeat env h.vecInject v).1
      let sum := if v'.refused then { VecSum.zero with malformed := true } else v'.sum_
      Answers (.vcallComplete lh) s (fun t => (getH t lh).core.vsum = sum ∧
        ∀ j : Fin 4, getReg t (lbank lh vectorSub) (Reg.vecLastSummary + 8 * j) = packVecSum sum / 2 ^ (64 * j.val) % 2 ^ 64))

/-- R82–R86: in its last beat a push writes its trailer after its payload and moves the top of its stack up by the entry, and a pop whose
trailer agreed moves it down; a pop that found another trailer moves nothing. The arrivals of an extension entry let its pop go on. -/
def Obligations.StashOperationsMoveTheirStack : Prop :=
  ∀ (s : State) (lh : Fin 48) (r : StashRun), s.safe = true →
    let h := getH s lh
    let t0 := beatOf s lh
    let alone (t : State) := t = { s with hampers := t.hampers } ∧ (∀ l, l ≠ lh.val → getH t l = getH s l)
    h.stash = [r] → r.done = false → r.ran = false → r.n = entryLines r.d →
    (h.core.stopped = false → r.push = true → stashLast r = t0 → Answers (.pushComplete lh) s (fun t =>
      MemWritten s t (r.base + 64 * r.n) (trailerBytes r.d s.uc.step.toNat) ∧ (∀ l, l ≠ lh.val → getH t l = getH s l) ∧
      (getH t lh).stackRegs = h.stackRegs.set r.stack (pushTop h.stackRegs[r.stack] r.ext (entryBytes r.d)) ∧
      (getH t lh).stash = [{ r with done := true }] ∧ (getH t lh).core = h.core ∧
      getReg t (lbank lh stashSub) Reg.stashPushes =
        satAdd (regWidth (lbank lh stashSub) Reg.stashPushes) (getReg s (lbank lh stashSub) Reg.stashPushes) 1)) ∧
    (h.core.stopped = false → r.push = false → stashLast r = t0 → stashWaits r t0 = false → 0 < r.n → NoPoison s →
      (r.mism = false → Answers (.popComplete lh) s (fun t => t.mem = s.mem ∧ (∀ l, l ≠ lh.val → getH t l = getH s l) ∧
        (getH t lh).stackRegs = h.stackRegs.set r.stack (popTop h.stackRegs[r.stack] r.ext (entryBytes r.d)) ∧
        (getH t lh).stash = [{ r with done := true }] ∧ CountsOn s t (lbank lh stashSub) Reg.stashPops 1)) ∧
      (r.mism = true → Answers (.popComplete lh) s (fun t => alone t ∧ getH t lh = { h with stash := [{ r with done := true }] }))) ∧
    (r.push = false → r.ext = true → NoPoison s →
      (r.payloadIn = false → Answers (.stashExtensionArrival lh true) s (fun t => alone t ∧
        getH t lh = { h with stash := [{ r with payloadIn := true }] })) ∧
      (r.trailerIn = false → Answers (.stashExtensionArrival lh false) s (fun t => alone t ∧
        getH t lh = { h with stash := [{ r with trailerIn := true, found := trailerFields s.mem (r.base + 64 * r.n) }] })))

/-- R172: a scheduled DMA to HBM3E has made every write by its last beat, and then signals its tally; an open DMA's bytes stand at its
destination when it completes. -/
def Obligations.DmaCompletionsWriteAndSignal : Prop :=
  ∀ (s : State), s.safe = true →
    let signalled (t : State) (ctx agent beat : Nat) (tally : Option Nat) :=
      match tally with
      | none => t.tly = s.tly
      | some v => (getEntry s ctx v).kind = .local_ → t.tly = { s.tly with msgs := s.tly.msgs ++
          [{ op := .signal, lh := none, dst := 0, ctx := ctx, vid := v, phys := (getEntry s ctx v).target, n := 1, agent := agent, beat := beat }] }
    (∀ (lh : Fin 48) (r : DmaRun), (getH s lh).core.stopped = false → (getH s lh).dma = [r] → r.done = false → r.ran = false →
      r.toHbm = true → dmaLast r = beatOf s lh → 0 < r.len → Answers (.scheduledDmaComplete lh) s (fun t =>
        t.mem = r.pendingWrites.foldl (fun m w => memWrite m w.1 w.2) s.mem ∧ (∀ l, l ≠ lh.val → getH t l = getH s l) ∧
        getH t lh = { getH s lh with dma := [{ r with done := true, pendingWrites := [] }] } ∧
        signalled t r.tag.ctx (agentDma lh) (beatOf s lh) r.tally)) ∧
    (∀ (i : Nat) (d : OpenDma), s.dmas[i]? = some d → NoPoison s → Answers (.openDmaComplete i) s (fun t =>
      MemWritten s t d.dst (memRead s.mem d.src d.len) ∧ t.dmas = listErase s.dmas i ∧ t.hampers = s.hampers ∧
      signalled t d.ctx (agentDma d.lh) (beatOf s d.lh) d.tally))

/-- R170, R105, R106: in its third beat an RLOAD stores its words and commits its slot with its length: valid where the checks pass, otherwise
RECIPE_INVALID; one that names a slot in use stores nothing and sets RECIPE_BUSY. -/
def Obligations.RloadCommitsItsSlot : Prop :=
  ∀ (s : State) (lh : Fin 48) (r : RloadRun), s.safe = true → (getH s lh).core.stopped = false → (getH s lh).rloads = [r] →
    r.done = false → r.b0 + 2 = beatOf s lh → r.malformed = false →
    let phys := physOf s lh
    let page := hamPage s lh vectorSub
    let st := r.words.zipIdx.foldl (fun st w => storeWord st r.slot w.2 w.1) (s.stores[phys]?.getD .empty)
    let done (t : State) := (∀ l, l ≠ lh.val → getH t l = getH s l) ∧ getH t lh = { getH s lh with rloads := [{ r with done := true }] }
    (slotHeld s phys r.slot = true → Answers (.rloadCommit lh) s (fun t => t = { s with hampers := t.hampers, regs := t.regs } ∧ done t ∧
      Flagged s t page 3)) ∧
    (slotHeld s phys r.slot = false →
      (checkRecipe false (slotWords st r.slot 32) r.length = none → Answers (.rloadCommit lh) s (fun t =>
        t = { s with hampers := t.hampers, stores := t.stores } ∧ done t ∧
        t.stores = s.stores.setIfInBounds phys { st with valid := sparseSet 0 st.valid r.slot r.length })) ∧
      (∀ x, checkRecipe false (slotWords st r.slot 32) r.length = some x → Answers (.rloadCommit lh) s (fun t =>
        t = { s with hampers := t.hampers, stores := t.stores, regs := t.regs } ∧ done t ∧
        t.stores = s.stores.setIfInBounds phys { st with valid := sparseSet 0 st.valid r.slot 0 } ∧
        Flagged s t page 2 ∧ getReg t page Reg.vecRstoreFault = faultWord r.slot x)))

/-- R121, R123: a seal request that has left reaches UC: one for the open step is collected while hampers of UC_SEAL_EXPECT are missing; one
for the next step is held; one of another step sets SEAL_STEP and is dropped, and one for a refused or withheld step is dropped. -/
def Obligations.SealRequestsAreCollectedHeldOrDropped : Prop :=
  ∀ (s : State) (i : Nat) (r : SealReq), s.safe = true → s.uc.leaving[i]? = some r → r.tq < beatOf s r.lh →
    let left : Uc := { s.uc with leaving := listErase s.uc.leaving i }
    (∀ k, r.step = s.uc.step → s.uc.sealSt = .open_ → (∀ x ∈ s.uc.reqs, x.lh ≠ r.lh ∧ x.norm.nb = r.norm.nb) →
      (sealExpect s).testBit k = true → k ≠ r.lh.val → (∀ x ∈ s.uc.reqs, x.lh.val ≠ k) →
      Answers (.sealRequest i) s (fun t => t = { s with uc := { left with
        reqs := s.uc.reqs ++ [r], owner := if s.uc.reqs = [] then some r.ctx else s.uc.owner } })) ∧
    (r.step = s.uc.step + 1 → (s.uc.sealSt = .open_ ∨ (s.uc.sealSt = .sealed ∧ s.uc.heldSweep = none)) → (∀ x ∈ s.uc.held, x.lh ≠ r.lh) →
      Answers (.sealRequest i) s (fun t => t = { s with uc := { left with held := s.uc.held ++ [r] } })) ∧
    (r.step ≠ s.uc.step → r.step ≠ s.uc.step + 1 → (s.uc.sealSt = .sealed → s.uc.heldSweep = none) →
      Answers (.sealRequest i) s (fun t => ErrorOnly { s with uc := left } t ucPage 7)) ∧
    ((s.uc.sealSt = .refused ∨ s.uc.sealSt = .withheld) → (r.step = s.uc.step ∨ r.step = s.uc.step + 1) →
      Answers (.sealRequest i) s (fun t => t = { s with uc := left }))

/-- R121, R124, R125, R286: the request that completes UC_SEAL_EXPECT, with right residues everywhere, gets the seal granted: the step is
SEALED, its record opens, SEALED is emitted, and with no other member in the norm group the norm closes with the sum of the requests'
norms, saturating at 2^192 − 1. -/
def Obligations.SealIsGrantedWhenAllHaveAsked : Prop :=
  ∀ (s : State) (i : Nat) (r : SealReq), s.safe = true → s.uc.leaving[i]? = some r → r.tq < beatOf s r.lh →
    r.step = s.uc.step → s.uc.sealSt = .open_ → s.uc.heldSweep = none → normOthers s = [] → MayEmit s evSealed ucPage →
    (∀ x ∈ s.uc.reqs, x.lh ≠ r.lh ∧ x.norm.nb = r.norm.nb) →
    (∀ x ∈ s.uc.reqs ++ [r], x.norm.n % 127 = x.norm.res % 127) →
    (∀ k, (sealExpect s).testBit k = true → ∃ x ∈ s.uc.reqs ++ [r], x.lh.val = k) →
    Answers (.sealRequest i) s (fun t => t.uc.sealSt = .sealed ∧ t.uc.normClosed = true ∧ t.uc.step = s.uc.step ∧
      t.uc.normTotal = min (((s.uc.reqs ++ [r]).map (·.norm.n)).sum) (2 ^ 192 - 1) ∧ t.uc.reqs = s.uc.reqs ++ [r] ∧
      (∃ x, t.uc.rec_ = some x ∧ x.step = s.uc.step ∧ x.expect = sealExpect s ∧ x.attempts = s.uc.attempts + 1) ∧
      Emitted s t evSealed ucPage ∧ t.hampers = s.hampers ∧ t.mem = s.mem)

/-- R143: SEAL_REOPEN returns a refused or withheld seal, or a granted one with no sweep running or PARTIAL, to OPEN with nothing collected,
held or accumulated, and the attempt to 1; otherwise it sets BUSY. R146: a write of UC_STEP takes effect while the seal is OPEN, no request
is collected and no sweep runs or is PARTIAL, and sets MALFORMED otherwise. R125, R130: NORM_CANCEL ends the wait for the norm, and a sweep
that waits for it ends FAILED. A write with its command bit clear does nothing. -/
def Obligations.UcCommandsActOnTheSeal : Prop :=
  ∀ (s : State) (v : W32) (w : Word), s.safe = true →
    let busy := s.uc.sweepState = .running ∨ s.uc.sweepState = .partial_
    let first (t : State) := t.flt = { s.flt with attempt := 1, refusals := 0 }
    (v.getLsbD 3 = true → (s.uc.sealSt = .refused ∨ s.uc.sealSt = .withheld ∨ (s.uc.sealSt = .sealed ∧ ¬ busy)) →
      Answers (.sealReopen v) s (fun t => first t ∧ t = { s with
        units := Vector.replicate 20 .idle, flt := t.flt
        uc := { s.uc with sealSt := .open_, reqs := [], held := [], heldSweep := none, sweep := none, sweepState := .idle
                          owner := none, rec_ := none, normPending := false, normClosed := false } })) ∧
    (v.getLsbD 3 = true → (s.uc.sealSt = .open_ ∨ (s.uc.sealSt = .sealed ∧ busy)) →
      Answers (.sealReopen v) s (fun t => ErrorOnly s t ucPage 2)) ∧
    (v.getLsbD 3 = false → Answers (.sealReopen v) s (fun t => t = s)) ∧
    (s.uc.sealSt = .open_ → s.uc.reqs = [] → ¬ busy → Answers (.ucStepWrite w) s (fun t => first t ∧
      t = { s with flt := t.flt, uc := { s.uc with step := w.setWidth 48 } })) ∧
    ((s.uc.sealSt ≠ .open_ ∨ s.uc.reqs ≠ [] ∨ busy) → Answers (.ucStepWrite w) s (fun t => ErrorOnly s t ucPage 0)) ∧
    (v.getLsbD 2 = true → (∀ x, s.uc.sweep = some x → x.normWait = false) →
      Answers (.normCancel v) s (fun t => t = { s with uc := { s.uc with normPending := false } })) ∧
    (∀ x, v.getLsbD 2 = true → s.uc.sweep = some x → x.normWait = true → Answers (.normCancel v) s (fun t =>
      t.uc.sweepState = .failed ∧ t.uc.sweep = none ∧ t.uc.normPending = false ∧ (∀ u : Fin 20, t.units[u].active = false) ∧
      t.hampers = s.hampers ∧ ∀ a, (a < x.desc.journal ∨ x.desc.journal + 4096 ≤ a) → memGet t.mem a = memGet s.mem a)) ∧
    (v.getLsbD 2 = false → Answers (.normCancel v) s (fun t => t = s))

/-- R127, R130, R174: SWEEP and GO read the descriptor at s[RA] or UC_SWEEP_DESC. A descriptor that is not 64-byte aligned in device memory is
MALFORMED; one that names another step than UC_STEP, or comes while the step is refused or withheld, sets its own error; one that comes
while another is held, runs or failed sets BUSY. One accepted before the seal is granted is held for it. R143, R123: a SKIP sweep of a granted step writes no plane and no journal: the sweep is DONE, UC_STEP counts on, the seal opens with
nothing collected, and UC_SWEEPS counts; here with no ledger ring configured, which would take the record. -/
def Obligations.SweepsAreAcceptedRefusedOrSkipped : Prop :=
  (∀ (s : State) (v : W32), s.safe = true →
    let go (a : Nat) (resume : Bool) (run : State → (State → Prop) → Prop) : Prop :=
      let d := readSweepDesc s a
      let placed := a % 64 = 0 ∧ deviceRangeOk a 64 = true
      let mine := d.step = s.uc.step.toNat ∧ s.uc.sealSt ≠ .refused ∧ s.uc.sealSt ≠ .withheld
      let free := pageOff s ucPage = false ∧ s.uc.sweepState ≠ .running ∧ s.uc.heldSweep = none ∧ s.uc.sweepState ≠ .failed ∧
        (s.uc.sweepState = .partial_ → resume = true)
      (¬ placed → run s (fun t => Flagged s t ucPage 0 ∧ t.uc = s.uc)) ∧
      (placed → ¬ mine → run s (fun t => Flagged s t ucPage 1 ∧ t.uc = s.uc)) ∧
      (placed → mine → ¬ free → run s (fun t => Flagged s t ucPage 2 ∧ t.uc = s.uc)) ∧
      (placed → mine → free → descOk s d = false → run s (fun t => Flagged s t ucPage 0 ∧ t.uc = s.uc)) ∧
      (placed → mine → free → descOk s d = true → d.skip = false → anyMeet (sweepRanges d) = true →
        run s (fun t => Flagged s t ucPage 3 ∧ t.uc = s.uc)) ∧
      (placed → mine → free → descOk s d = true → d.skip = false → anyMeet (sweepRanges d) = false → resume = true → resumeOk s d = false →
        run s (fun t => Flagged s t ucPage 4 ∧ t.uc = s.uc)) ∧
      (placed → mine → free → descOk s d = true → (d.skip = true ∨ (anyMeet (sweepRanges d) = false ∧ (resume = true → resumeOk s d = true))) →
        s.uc.sealSt = .open_ → run s (fun t => ∃ w, t.uc = { s.uc with heldSweep := some w } ∧ w.desc = d ∧ w.resume = resume))
    (v.getLsbD 0 = true → go (getReg s ucPage Reg.ucSweepDesc) (v.getLsbD 1) (fun s post => Answers (.sweepGo v) s (fun t =>
      post t ∧ t = { s with regs := t.regs, uc := t.uc }))) ∧
    (v.getLsbD 0 = false → Answers (.sweepGo v) s (fun t => t = s)) ∧
    (∀ (lh : Fin 48) (ra : Fin 32) (resume : Bool), Ready s lh [ra] → inWindow (getH s lh).core = false →
      go (sreg (getH s lh).core ra).toNat resume (fun s post => Answers (.sweep lh ra resume) s (fun t =>
        post t ∧ t = { s with regs := t.regs, uc := t.uc, hampers := t.hampers } ∧ (∀ l, l ≠ lh.val → getH t l = getH s l) ∧
        getH t lh = { getH s lh with core := { (getH s lh).core with
          pc := (getH s lh).core.pc + 8, next := beatOf s lh + 1, last := beatOf s lh + 1 } })))) ∧
  (∀ (s : State) (v : W32), s.safe = true → v.getLsbD 0 = true → s.uc.sealSt = .sealed →
    let d := readSweepDesc s (getReg s ucPage Reg.ucSweepDesc)
    sweepRefusal s d (v.getLsbD 1) = none → d.skip = true → d.doneEn = false → s.uc.held = [] → s.uc.nextRefused = false →
    s.uc.nextWithheld = false → ledSlots s = 0 →
    Answers (.sweepGo v) s (fun t => t.uc.step = s.uc.step + 1 ∧ t.uc.sealSt = .open_ ∧ t.uc.reqs = [] ∧ t.uc.sweepState = .done ∧
      t.uc.sweep = none ∧ t.flt.attempt = 1 ∧ t.mem = s.mem ∧ t.hampers = s.hampers ∧
      getReg t ucPage Reg.ucSweeps = satAdd (regWidth ucPage Reg.ucSweeps) (getReg s ucPage Reg.ucSweeps) 1))


/-- R129, R137, R285: the unit's next chunk, checked good, is written as its recipe gives it, and its counts and digest terms enter the unit; R145:
a chunk that fails once is recomputed and counts in UPD_RETRIES and UPD_RESIDUE_FAILS; R137: one that fails twice leaves its planes as
they were and ends the sweep FAILED. A unit with no chunk to commit does nothing. -/
def Obligations.ChunksCommitOrStopTheSweep : Prop :=
  ∀ (s : State) (u : Fin 20) (w : Sweep) (g : Segment) (k : Nat), s.safe = true →
    let x := getUnit s u
    let o := runChunk s g (getCtx s w.ctx).seed s.uc.step s.uc.clip k
    let page := updPage u
    let every := max 1 (getReg s ucPage Reg.ucJournalEvery % 65536)
    (∀ c, chunkDue s u = none → Answers (.chunkCommit u c) s (fun t => t = s)) ∧
    (chunkDue s u = some (w, g, k) → NoPoison s → updArmed s u = false →
      (x.cursor + 1 < (unitChunks g u).length → w.signalled = x.seg → x.since + 1 < every →
        Answers (.chunkCommit u .good) s (fun t =>
          t.mem = o.writes.foldl (fun m b => memWrite m b.1 b.2) s.mem ∧ t.uc = s.uc ∧ t.hampers = s.hampers ∧
          (∀ y : Fin 20, y ≠ u → t.units[y] = s.units[y]) ∧
          t.units[u] = { x with cursor := x.cursor + 1, since := x.since + 1, nonfin := x.nonfin + o.counts.nonfin, sat := x.sat + o.counts.sat
                                digests := o.digests.foldl (fun l d => digestAdd l d.1 d.2) x.digests } ∧
          getReg t page Reg.updChunks = satAdd (regWidth page Reg.updChunks) (getReg s page Reg.updChunks) 1) ∧
        (inWindowCount s (unitUpdate u) 86400 < 2 → Answers (.chunkCommit u .retried) s (fun t =>
          getReg t page Reg.updRetries = satAdd (regWidth page Reg.updRetries) (getReg s page Reg.updRetries) 1 ∧
          getReg t page Reg.updResidueFails = satAdd (regWidth page Reg.updResidueFails) (getReg s page Reg.updResidueFails) 1))) ∧
      Answers (.chunkCommit u .stopped) s (fun t => t.uc.sweepState = .failed ∧ t.uc.sweep = none ∧ t.units[u].faultStop = true ∧
        (∀ a, (a < w.desc.journal ∨ w.desc.journal + 4096 ≤ a) → memGet t.mem a = memGet s.mem a) ∧
        t.flt.replace = true))

namespace Sys2Proof.Machine

/-- A page is block sub of an enabled physical hamper (R458, R459). -/
def PageOf (s : State) (h sub page : Nat) : Prop := page = 0x100 + 0x10 * h + sub ∧ sub < 9 ∧ h < 48 ∧ h ∈ s.part.hampersOn

/-- The flags of pages ps change by f, and nothing else changes. -/
def FlagsOnly (s t : State) (ps : List Nat) (f : PageFlags → PageFlags) : Prop :=
  t = { s with pages := t.pages } ∧ (∀ p ∈ ps, getFlags t p = f (getFlags s p)) ∧ ∀ p, p ∉ ps → getFlags t p = getFlags s p

/-- One logical hamper becomes h, and nothing else changes. -/
def HamperBecomes (s t : State) (lh : Nat) (h : Hamper) : Prop :=
  t = { s with hampers := t.hampers } ∧ getH t lh = h ∧ ∀ l, l ≠ lh → getH t l = getH s l

end Sys2Proof.Machine

/-- R12–R17: an access that meets no page sets OUT_OF_MAP in the requester's page; one of the wrong width or alignment sets ACCESS_SIZE; a
read-only register ignores a write; an expert register of a locked page ignores it and sets EXPERT_DENIED; a plain register takes the bits that
are not reserved, and writing 1 to a PAGE_ERR bit clears it. R17: the page's unlock value unlocks its expert level, and any other locks it. -/
def Obligations.RegisterWritesFollowTheirAccess : Prop :=
  ∀ (s : State) (rq : Requester) (addr : Addr) (wide : Bool) (v : Word), s.safe = true →
    let a := addr.toNat
    let page := (a - pageBase) / 0x1000
    let off := (a - pageBase) % 0x1000
    let w := Answers (.registerWrite rq addr wide v) s
    let outside := a < pageBase ∨ pageBase + pageWindow ≤ a ∨ pagePresent s page = false
    (outside → w (fun t => ErrorOnly s t (rqPage s rq) errOutOfMap)) ∧
    (¬ outside → off % (if wide then 8 else 4) ≠ 0 → w (fun t => ErrorOnly s t page errAccessSize)) ∧
    (∀ d, ¬ outside → off % (if wide then 8 else 4) = 0 → regAt page off = some d →
      (d.wide ≠ wide → w (fun t => ErrorOnly s t page errAccessSize)) ∧
      (d.wide = wide → d.acc = .ro → w (fun t => t = s)) ∧
      (d.wide = wide → d.acc = .rwx → (getFlags s page).unlocked = false → w (fun t => ErrorOnly s t page errExpertDenied))) ∧
    (¬ outside → wide = false → page = faultPage → off = Reg.fltReplayLimit →
      w (fun t => SetsOnly s t faultPage Reg.fltReplayLimit (v.toNat % 256))) ∧
    (¬ outside → wide = false → page ≠ ramblerPage 0 → off = Reg.pageErr → w (fun t => t = { s with regs := t.regs } ∧
      (∀ b, b < 28 → (getReg t page Reg.pageErr).testBit b = ((getReg s page Reg.pageErr).testBit b && !v.getLsbD b)) ∧
      KeepsRegs s t [regKey page Reg.pageErr])) ∧
    (∀ (p : Nat) (k : W32) ty i, p ≠ 0 → pagePresent s p = true → pageType p = some (ty, i) →
      Answers (.pageExpertKeyWrite p k) s (fun t =>
        FlagsOnly s t [p] (fun f => { f with unlocked := decide (k.toNat % 65536 = 0xC000 + 0x100 * ty + i) })))

/-- R436, R464, R205: DRAIN starts the drain of a block that is in service; with no work in flight it changes nothing but the flags of
the block's pages, and UC stops its running sweep PARTIAL. DRAIN_COMPLETE ends the drain of a block whose work has stopped, and ENABLE returns
a drained block without a fault to service. A page without a block to drain ignores them. DEBUG takes effect while no launch runs. -/
def Obligations.DrainEnableAndDebugSetPageFlags : Prop :=
  ∀ (s : State) (page : Nat), s.safe = true → pagePresent s page = true →
    let f := getFlags s page
    let quiet := match drainUnit page with
      | .hamper h => usersOf s h = []
      | .update u => (getUnit s u).active = false ∧ s.uc.sweep = none
      | .uc => s.uc.sweepState ≠ .running
      | .rambler _ => s.rmb.cmd = none
      | .port _ => True
      | .none_ => False
    let started (f : PageFlags) : PageFlags := { f with draining := true, drained := false, disabled := false }
    (f.draining = false → f.drained = false → f.off = false → quiet →
      Answers (.drain page) s (fun t => FlagsOnly s t (drainPages page) started)) ∧
    (f.draining = false → f.drained = false → f.off = false → page = ucPage → s.uc.sweepState = .running →
      Answers (.drain page) s (fun t => (getFlags t page).draining = true ∧ t.uc.sweepState = .partial_ ∧ t.uc.sweep = none)) ∧
    ((f.draining = true ∨ f.drained = true ∨ drainUnit page = .none_) → Answers (.drain page) s (fun t => t = s)) ∧
    (f.draining = true → quiet → (∀ p, drainUnit page ≠ .port p) → Answers (.drainComplete page) s (fun t =>
      FlagsOnly s t (drainPages page) (fun f => { f with draining := false, drained := true, disabled := true }))) ∧
    (f.draining = true → (∀ p, drainUnit page = .port p → (∀ x ∈ s.hostSessions, x.port ≠ p) ∧ (∀ x ∈ s.nearSessions, x.port ≠ p) →
      Answers (.drainComplete page) s (fun t => (getFlags t page).draining = false ∧ (getFlags t page).drained = true ∧
        (getPort t p).link = #v[.down, .down]))) ∧
    (f.draining = false → Answers (.drainComplete page) s (fun t => t = s)) ∧
    (f.drained = true → f.fault = false → f.off = false → enablePage page = true → (∀ p, drainUnit page ≠ .port p) →
      Answers (.enable page) s (fun t =>
        FlagsOnly s t (drainPages page) (fun f => { f with draining := false, drained := false, disabled := false }))) ∧
    ((f.drained = false ∨ f.fault = true ∨ f.off = true) → Answers (.enable page) s (fun t => t = s)) ∧
    (∀ on, anyLaunch s = false → Answers (.debug on) s (fun t => FlagsOnly s t [mgmtPage] (fun f => { f with debug := on }))) ∧
    (∀ on, anyLaunch s = true → Answers (.debug on) s (fun t => t = s))

/-- R105, R106, R116: VEC_RSTORE_DATA reads and writes the selected word and advances INDEX; a write clears the slot's valid bit, and VEC_RSTORE_COMMIT
commits the slot under the checks of R105; one that a call holds is left alone, with RECIPE_BUSY. R131, R132: the update units' registers do
the same, and refuse while a sweep runs. -/
def Obligations.RecipeStoreRegistersReadWriteAndCommit : Prop :=
  ∀ (s : State) (h page : Nat) (v : W32), s.safe = true →
    let next (t : State) (pg reg k i m : Nat) := getReg t pg reg = k + m * ((i + 1) % 32) ∧ KeepsRegs s t [regKey pg reg]
    (PageOf s h 2 page →
      let sel := getReg s page Reg.vecRstoreSel
      let k := sel % 64
      let i := sel / 64 % 32
      let st := s.stores[h]?.getD .empty
      Answers (.vecRstoreDataRead page) s (fun t => t = { s with regs := t.regs, answer := bytesLE 4 (slotWord st k i).toNat } ∧
        next t page Reg.vecRstoreSel k i 64) ∧
      (slotHeld s h k = true → Answers (.vecRstoreDataWrite page v) s (fun t => ErrorOnly s t page 3) ∧
        Answers (.vecRstoreCommit page v) s (fun t => ErrorOnly s t page 3)) ∧
      (slotHeld s h k = false →
        Answers (.vecRstoreDataWrite page v) s (fun t => next t page Reg.vecRstoreSel k i 64 ∧
          t = { s with regs := t.regs, stores := s.stores.setIfInBounds h (storeWord st k i v) }) ∧
        (checkRecipe false (slotWords st k 32) (v.toNat % 64) = none → Answers (.vecRstoreCommit page v) s (fun t =>
          t = { s with stores := s.stores.setIfInBounds h { st with valid := sparseSet 0 st.valid k (v.toNat % 64) } })) ∧
        (∀ x, checkRecipe false (slotWords st k 32) (v.toNat % 64) = some x → Answers (.vecRstoreCommit page v) s (fun t =>
          t = { s with regs := t.regs, stores := s.stores.setIfInBounds h { st with valid := sparseSet 0 st.valid k 0 } } ∧
          Flagged s t page 2 ∧ getReg t page Reg.vecRstoreFault = faultWord k x)))) ∧
    (let sel := getReg s ucPage Reg.ucRstoreSel
     let k := sel % 16
     let i := sel / 16 % 32
     Answers .ucRstoreDataRead s (fun t => t = { s with regs := t.regs, answer := bytesLE 4 (slotWord s.ustore k i).toNat } ∧
        next t ucPage Reg.ucRstoreSel k i 16) ∧
      (s.uc.sweepState = .running → Answers (.ucRstoreDataWrite v) s (fun t => ErrorOnly s t ucPage 9) ∧
        Answers (.ucRstoreCommit v) s (fun t => ErrorOnly s t ucPage 9)) ∧
      (s.uc.sweepState ≠ .running →
        Answers (.ucRstoreDataWrite v) s (fun t => next t ucPage Reg.ucRstoreSel k i 16 ∧
          t = { s with regs := t.regs, ustore := storeWord s.ustore k i v }) ∧
        (checkRecipe true (slotWords s.ustore k 32) (v.toNat % 64) = none → Answers (.ucRstoreCommit v) s (fun t =>
          t = { s with ustore := { s.ustore with valid := sparseSet 0 s.ustore.valid k (v.toNat % 64) } })) ∧
        (∀ c j, checkRecipe true (slotWords s.ustore k 32) (v.toNat % 64) = some (c, j) → Answers (.ucRstoreCommit v) s (fun t =>
          t = { s with regs := t.regs, ustore := { s.ustore with valid := sparseSet 0 s.ustore.valid k 0 } } ∧
          Flagged s t ucPage 8 ∧ getReg t ucPage Reg.ucRstoreFault = k + 16 * j + 512 * c))))

/-- R68, R116, R145, R270, R273, R402, R472: on an unlocked page an injection register arms its injection, and START of a self-test starts it while
the block is idle; the end of a self-test sets DONE, and PASS where it found nothing. On a locked page each write sets EXPERT_DENIED. -/
def Obligations.InjectionsAndSelfTestsAreArmed : Prop :=
  ∀ (s : State) (h sub page : Nat) (v : W32), s.safe = true →
    let n := v.toNat
    let lh := lselOf s page
    let expert (pg : Nat) (i : Instr) (post : State → Prop) : Prop :=
      ((getFlags s pg).unlocked = false → Answers i s (fun t => ErrorOnly s t pg errExpertDenied)) ∧
      ((getFlags s pg).unlocked = true → Answers i s post)
    let start (pg off : Nat) (idle : Prop) (t : State) : Prop :=
      (n % 2 = 1 ∧ idle → SetsOnly s t pg off 1) ∧ (¬ (n % 2 = 1 ∧ idle) → t = s)
    (PageOf s h sub page → 6 ≤ sub →
      expert page (.frameInject page v) (fun t => t = { s with hampers := t.hampers, regs := t.regs } ∧
        getReg t (lbank lh sub) Reg.frameInject = n % 128 ∧ (∀ l, l ≠ lh → getH t l = getH s l) ∧
        let fr := getFrame (getH s lh) (sub - 6)
        let armed := if v.getLsbD 8 then some (n % 128) else none
        getH t lh = { getH s lh with frames := (getH s lh).frames.setIfInBounds (sub - 6) { fr with inject := armed } }) ∧
      expert page (.frameBist page v)
        (start page Reg.frameBist (∀ l ∈ logicalsOf s h, frameState (getFrame (getH s l) (sub - 6)) (beatOf s l) = 0))) ∧
    (PageOf s h 2 page →
      expert page (.vecInject page v) (fun t => t = { s with hampers := t.hampers, regs := t.regs } ∧
        getReg t (lbank lh 2) Reg.vecInject = n % 256 ∧ (∀ l, l ≠ lh → getH t l = getH s l) ∧
        let armed := if v.getLsbD 8 then some (n % 256) else none
        getH t lh = { getH s lh with vecInject := armed }) ∧
      expert page (.vecBist page v)
        (start page Reg.vecBist (∀ l ∈ logicalsOf s h, callRunning (getH s l) (beatOf s l) = none))) ∧
    (PageOf s h 1 page → expert page (.feedInject page v) (fun t => HamperBecomes s t lh { getH s lh with feedInject := v.getLsbD 0 })) ∧
    (∀ c : Fin 16, expert (hbmcPage c) (.hbmInject c v) (fun t => SetsOnly s t (hbmcPage c) Reg.hbmInject (n % 8)) ∧
      expert (lpcPage c) (.lpcInject c v) (fun t => SetsOnly s t (lpcPage c) Reg.lpcInject (n % 8))) ∧
    (∀ u : Fin 20, expert (updPage u) (.updInject u v) (fun t => SetsOnly s t (updPage u) Reg.updInject (n % 2)) ∧
      expert (updPage u) (.updBist u v) (start (updPage u) Reg.updBist ((getUnit s u).active = false))) ∧
    (∀ d : Fin 2, expert (ramblerPage d) (.rmbInject d v) (fun t => SetsOnly s t (ramblerPage d) Reg.rmbInject (n % 2))) ∧
    (∀ pg off good, bistReg pg = some off →
      ((getReg s pg off).testBit 0 = true → Answers (.bistComplete pg good) s (fun t => SetsOnly s t pg off (2 + 4 * bit good))) ∧
      ((getReg s pg off).testBit 0 = false → Answers (.bistComplete pg good) s (fun t => t = s)))

/-- R149, R180: HAM_SREG_DATA writes the selected scalar register of an idle or ended core; s0 discards. R81, R92: a stack's base, sizes and owner are written while it is
empty, at 4 KiB multiples within their memories; otherwise MALFORMED is set. R228: a list's configuration is written while it is empty, its owner runs
nothing and its areas fit its pantry, and FLUSH empties it. R208: CLEAR_LOG empties the hazard log. -/
def Obligations.HamperRegistersAreWritten : Prop :=
  ∀ (s : State) (h page : Nat) (v : W32) (w : Word), s.safe = true →
    let lh := lselOf s page
    let x := getH s lh
    let n := w.toNat
    (PageOf s h 0 page →
      ((getFlags s page).unlocked = false → Answers (.hamSregDataWrite page w) s (fun t => ErrorOnly s t page errExpertDenied)) ∧
      ((getFlags s page).unlocked = true → sregOpen x.core = true → Answers (.hamSregDataWrite page w) s (fun t =>
        HamperBecomes s t lh (let i := getReg s page Reg.hamSregSel % 32
          if i = 0 then x else { x with core := { x.core with sregs := x.core.sregs.setIfInBounds i w } }))) ∧
      ((getFlags s page).unlocked = true → sregOpen x.core = false → Answers (.hamSregDataWrite page w) s (fun t => t = s))) ∧
    (∀ i : Fin 8, PageOf s h 4 page →
      let k := x.stackRegs[i]
      let becomes (off : Nat) (k' : Stack) := Answers (.stashDescriptorWrite page (off + 64 * i) w) s (fun t =>
        HamperBecomes s t lh { x with stackRegs := x.stackRegs.set i k' })
      let refused (off : Nat) := Answers (.stashDescriptorWrite page (off + 64 * i) w) s (fun t => ErrorOnly s t page 0)
      (k.depth = 0 → n % 4096 = 0 →
        (n < hbmEnd → dieOfHbm n = lh / 12 → becomes Reg.stashBase { k with base := n }) ∧
        (stashAlloc x i n ≤ 2 ^ 33 → becomes Reg.stashWmark { k with wmark := n }) ∧
        (2 ^ 33 < stashAlloc x i n → refused Reg.stashWmark) ∧
        (regionOf n = .lpddr → becomes Reg.stashExtBase { k with extBase := n }) ∧ becomes Reg.stashExtSize { k with extSize := n }) ∧
      (k.depth = 0 → becomes Reg.stashCtx { k with ctx := n % 16 }) ∧
      (k.depth ≠ 0 ∨ n % 4096 ≠ 0 →
        refused Reg.stashBase ∧ refused Reg.stashWmark ∧ refused Reg.stashExtBase ∧ refused Reg.stashExtSize) ∧
      (k.depth ≠ 0 → refused Reg.stashCtx)) ∧
    (PageOf s h 5 page →
      let off := fun (o : Nat) => o = Reg.listBase ∨ o = Reg.listSize ∨ o = Reg.listStage ∨ o = Reg.listStageSize ∨ o = Reg.listTakeAddr
      let still := ¬ (x.core.launched = true ∧ ctxRuns (getCtx s x.core.ctx) = true)
      (∀ o, off o → x.list.items = [] → still → listFits (setReg s (lbank lh listSub) o (listValue o v.toNat)) lh = true →
        Answers (.listConfigWrite page o v) s (fun t => SetsOnly s t (lbank lh listSub) o (listValue o v.toNat))) ∧
      (∀ o, off o → (x.list.items ≠ [] ∨ ¬ still) → Answers (.listConfigWrite page o v) s (fun t => ErrorOnly s t page 0)) ∧
      Answers (.listConfigWrite page Reg.listStealCfg v) s (fun t => SetsOnly s t (lbank lh listSub) Reg.listStealCfg (v.toNat % 65536)) ∧
      ((getFlags s page).unlocked = true → v.getLsbD 0 = true → still → Answers (.listFlush page v) s (fun t =>
        HamperBecomes s t lh { x with list := { x.list with items := [], tail := 0, taken := none, steal := none, copies := [] } })) ∧
      ((getFlags s page).unlocked = true → (v.getLsbD 0 = false ∨ ¬ still) → Answers (.listFlush page v) s (fun t => t = s))) ∧
    (PageOf s h 3 page → (getFlags s page).unlocked = true → v.getLsbD 2 = true → Answers (.hazLogClear page v) s (fun t =>
      t = { s with regs := t.regs, hazards := sparseSet [] s.hazards h [], power := t.power } ∧
      getReg t page Reg.panHazCtrl = v.toNat % 4 ∧ KeepsRegs s t [regKey page Reg.panHazCtrl]))

namespace Sys2Proof.Machine

/-- The core of one logical hamper becomes c, beside what the tallies and the counters show. -/
def CoreBecomes (s t : State) (lh : Nat) (c : Core) : Prop :=
  getH t lh = { getH s lh with core := c } ∧ ∀ l, l ≠ lh → getH t l = getH s l

/-- A tally operation took effect at one physical tally, which became k; the other tallies are as before. -/
def TallyBecomes (s t : State) (phys : Nat) (k : Tally) : Prop :=
  getTally t phys = k ∧ ∀ p, p ≠ phys → getTally t p = getTally s p

end Sys2Proof.Machine

/-- R234, R236: a signal adds n to its tally's count and counts in TLY_SIGNALS; then an observe-wait whose n is met is released with status 0 and
takes nothing, and the consume-wait at the head of its queue takes its n when the count holds it. A sum beyond 32 bits stops at the largest
value and sets SATURATED. -/
def Obligations.SignalsReachTheirTally : Prop :=
  ∀ (s : State) (i : Nat) (m : TallyMsg), s.safe = true → s.tly.msgs[i]? = some m → m.op = .signal → signalReady s i m = true →
    let k := getTally s m.phys
    let n := k.count + m.n
    let ran (lh : Fin 48) (dst : Fin 32) (t : State) := CoreBecomes s t lh (endWait (getH s lh).core 0) ∧
      getReg t tallyPage Reg.tlyReleases = satAdd (regWidth tallyPage Reg.tlyReleases) (getReg s tallyPage Reg.tlyReleases) 1 ∧
      (∀ kind, (getH s lh).core.run = .waiting kind dst → (getH t lh).core.run = .issuing ∧ sreg (getH t lh).core dst = 0)
    let came (t : State) (c : Nat) (obs con : List Waiter) :=
      t = { s with tly := { s.tly with msgs := listErase s.tly.msgs i, tallies := t.tly.tallies }, regs := t.regs, hampers := t.hampers } ∧
      TallyBecomes s t m.phys { k with count := c, observe := obs, consume := con } ∧
      getReg t tallyPage Reg.tlySignals = satAdd (regWidth tallyPage Reg.tlySignals) (getReg s tallyPage Reg.tlySignals) 1
    (n < 2 ^ 32 → (∀ w ∈ k.observe, n < w.n) → (∀ w, k.consume.head? = some w → n < w.n) →
      Answers (.tallySignal i) s (fun t => came t n k.observe k.consume ∧ t.hampers = s.hampers)) ∧
    (∀ w lh dst, n < 2 ^ 32 → k.observe = [w] → w.src = .core lh dst → w.n ≤ n → k.consume = [] →
      Answers (.tallySignal i) s (fun t => came t n [] [] ∧ ran lh dst t)) ∧
    (∀ w ws lh dst, n < 2 ^ 32 → k.observe = [] → k.consume = w :: ws → w.src = .core lh dst → w.n ≤ n →
      (∀ x, ws.head? = some x → n - w.n < x.n) → Answers (.tallySignal i) s (fun t => came t (n - w.n) [] ws ∧ ran lh dst t)) ∧
    (2 ^ 32 ≤ n → k.observe = [] → k.consume = [] → Answers (.tallySignal i) s (fun t =>
      TallyBecomes s t m.phys { k with count := 2 ^ 32 - 1 } ∧ Flagged s t tallyPage 1 ∧ t.hampers = s.hampers))

/-- R234, R235: a wait that its tally already meets is answered at once: an observe-wait takes nothing, a consume-wait takes its n, unless others
queue before it; otherwise it queues behind those that came before. -/
def Obligations.WaitsQueueOrAreAnswered : Prop :=
  ∀ (s : State) (i : Nat) (m : TallyMsg) (lh : Fin 48), s.safe = true → s.tly.msgs[i]? = some m → m.lh = some lh →
    let k := getTally s m.phys
    let me : Waiter := { src := .core lh m.dst, n := m.n, ctx := m.ctx, vid := m.vid }
    let taken (t : State) := t = { s with tly := { s.tly with msgs := listErase s.tly.msgs i, tallies := t.tly.tallies }, regs := t.regs
                                          hampers := t.hampers }
    let ran (t : State) := taken t ∧ CoreBecomes s t lh (endWait (getH s lh).core 0) ∧ CountsOn s t tallyPage Reg.tlyReleases 1
    (m.op = .observe → m.n ≤ k.count → Answers (.tallyObserveWait i) s (fun t => ran t ∧ t.tly.tallies = s.tly.tallies)) ∧
    (m.op = .observe → k.count < m.n → Answers (.tallyObserveWait i) s (fun t => taken t ∧ t.hampers = s.hampers ∧
      TallyBecomes s t m.phys { k with observe := k.observe ++ [me] } ∧ t.regs = s.regs)) ∧
    (m.op = .consume → m.n = 0 → Answers (.tallyConsumeWait i) s (fun t => ran t ∧ t.tly.tallies = s.tly.tallies)) ∧
    (m.op = .consume → m.n ≠ 0 → k.consume = [] → m.n ≤ k.count → Answers (.tallyConsumeWait i) s (fun t => ran t ∧
      TallyBecomes s t m.phys { k with count := k.count - m.n })) ∧
    (m.op = .consume → m.n ≠ 0 → (k.consume ≠ [] ∨ k.count < m.n) → Answers (.tallyConsumeWait i) s (fun t => taken t ∧
      t.hampers = s.hampers ∧ TallyBecomes s t m.phys { k with consume := k.consume ++ [me] } ∧ t.regs = s.regs))

/-- R240, R241: an arrival of a hamper of the slot is recorded for its generation; a core that does not wait goes on with status 0, and one that
waits queues. The last arrival of a slot with no site members completes the generation: GEN counts on, the next generation's arrivals become
the current ones, and the core goes on. One of a hamper that is no member gets status 1 and sets NOT_MEMBER; one at a broken slot gets
status 1. -/
def Obligations.BarrierArrivalsCompleteGenerations : Prop :=
  ∀ (s : State) (i : Nat) (m : TallyMsg) (lh : Fin 48) (wait : Bool), s.safe = true → s.tly.msgs[i]? = some m → m.lh = some lh →
    m.op = .arrive wait → m.phys < 64 →
    let b := getSlot s m.phys
    let me : Waiter × Nat := ({ src := .core lh m.dst, n := 0, ctx := m.ctx, vid := m.vid }, b.gen)
    let goes (t : State) (v : Word) := CoreBecomes s t lh (endWait (getH s lh).core v)
    let others (t : State) := ∀ j, j ≠ m.phys → getSlot t j = getSlot s j
    let arrives := Answers (.barrierArrival i) s
    (∀ k, b.broken = false → b.hampers.testBit lh = true → b.current.testBit lh = false → b.hampers.testBit k = true → k ≠ lh.val →
      b.current.testBit k = false → arrives (fun t => others t ∧ t = { s with
        tly := { s.tly with msgs := listErase s.tly.msgs i, slots := t.tly.slots }, hampers := t.hampers } ∧
        getSlot t m.phys = { b with current := b.current ||| 2 ^ lh.val, waiters := if wait then b.waiters ++ [me] else b.waiters } ∧
        (wait = true → t.hampers = s.hampers) ∧ (wait = false → goes t 0))) ∧
    (b.broken = false → b.hampers.testBit lh = true → b.current.testBit lh = false → covers (b.current ||| 2 ^ lh.val) b.hampers = true →
      b.modules = 0 → b.next = 0 → b.waiters = [] → arrives (fun t => others t ∧ goes t 0 ∧
        getSlot t m.phys = { b with gen := (b.gen + 1) % 2 ^ 32, current := 0, next := 0, peersCur := b.peersNext, peersNext := 0, told := false })) ∧
    (b.broken = false → b.hampers.testBit lh = false → arrives (fun t => goes t 1 ∧ Flagged s t tallyPage 2 ∧ t.tly.slots = s.tly.slots)) ∧
    (b.broken = true → arrives (fun t => goes t 1 ∧ t.tly.slots = s.tly.slots))

/-- R248, R243: on the unlocked TALLY page TLY_COUNT_SET sets the count of the selected tally while its context runs nothing, and TLY_BAR_REPAIR makes
the selected slot whole while nobody waits at it; otherwise BUSY is set. R246: while a unit of a die waits and lending is on, the die's core domain
falls to its floor, its budget is lent, and TLY_LEND_EVENTS counts. -/
def Obligations.TallyRegistersAndLendingTakeEffect : Prop :=
  ∀ (s : State) (v : W32), s.safe = true →
    let open_ := (getFlags s tallyPage).unlocked = true
    let e := getEntry s (tlySel s).1 (tlySel s).2
    let runs := ctxRuns (getCtx s (tlySel s).1) = true
    let i := getReg s tallyPage Reg.tlyBarSel % 64
    let b := getSlot s i
    ((getFlags s tallyPage).unlocked = false → Answers (.tlyCountSet v) s (fun t => ErrorOnly s t tallyPage errExpertDenied) ∧
      Answers (.tlyBarRepair v) s (fun t => ErrorOnly s t tallyPage errExpertDenied)) ∧
    (open_ → ¬ runs → e.kind = .local_ → (getTally s e.target).observe = [] → (getTally s e.target).consume = [] →
      Answers (.tlyCountSet v) s (fun t => t = { s with tly := { s.tly with tallies := t.tly.tallies } } ∧
        TallyBecomes s t e.target { getTally s e.target with count := v.toNat })) ∧
    (open_ → (runs ∨ e.kind ≠ .local_) → Answers (.tlyCountSet v) s (fun t => Flagged s t tallyPage 7 ∧ t.tly = s.tly)) ∧
    (open_ → v.getLsbD 0 = true → b.waiters = [] → Answers (.tlyBarRepair v) s (fun t =>
      t = { s with tly := { s.tly with slots := t.tly.slots } } ∧ (∀ j, j ≠ i → getSlot t j = getSlot s j) ∧
      getSlot t i = { b with broken := false, current := 0, next := 0, peersCur := 0, peersNext := 0, gen := 0, told := false })) ∧
    (open_ → v.getLsbD 0 = true → b.waiters ≠ [] → Answers (.tlyBarRepair v) s (fun t => Flagged s t tallyPage 7 ∧ t.tly = s.tly)) ∧
    (∀ d : Fin 4, getReg s tallyPage Reg.tlyLendThresh ≠ 0 → s.tly.lent.any (fun x => x.1 == d.val) = false → dieHeld s d = true →
      s.power.floor.toList.getD d 0 ≤ s.power.mv.toList.getD d 0 →
      Answers (.lending d) s (fun t => CountsOn s t tallyPage Reg.tlyLendEvents 1 ∧ t.tly.lent.any (fun x => x.1 == d.val) = true ∧
        t = { s with regs := t.regs, free := s.free + 1, power := { s.power with mv := t.power.mv }, tly := { s.tly with lent := t.tly.lent } } ∧
        t.power.mv[d.val]? = s.power.floor[d.val]? ∧ t.power.mv[8] = s.power.mv[8] ∧ t.power.mv[9] = s.power.mv[9]))

/-- R244, R232, R234, R309: a message of the host, or of a member outside the attempt rules, takes effect at the tally its VID names here: a signal adds
its value, a wait is answered or queued, and a signal or wait for a VID that is not mapped sets its error. R355: an answer to a wait this module
sent ends that wait with its status. R242, R245: an arrival of the host counts for bit 48, and an abandoned barrier is BROKEN. A message of
nobody connected does nothing. -/
def Obligations.TallyMessagesTakeEffect : Prop :=
  ∀ (s : State) (m : MsgHead) (vid : BitVec 16) (n token : W32), s.safe = true →
    let v := vid.toNat % 4096
    let e := getEntry s m.ctx v
    let k := getTally s e.target
    let src : WaitSrc := match m.sender with
      | none => .host token
      | some p => .peer p.val token
    let me : Waiter := { src := src, n := n.toNat, ctx := m.ctx, vid := v }
    let queued (k' : Tally) (t : State) := t = { s with tly := { s.tly with tallies := t.tly.tallies } } ∧ TallyBecomes s t e.target k'
    (senderUp s m = false → Answers (.tallySignalMessage m vid n) s (fun t => t = s) ∧ Answers (.tallyWatch m vid n token) s (fun t => t = s) ∧
      Answers (.tallyConsume m vid n token) s (fun t => t = s) ∧ Answers (.tallyArrive m vid n) s (fun t => t = s) ∧
      (∀ a, Answers (.tallyRelease m a vid token n) s (fun t => t = s)) ∧ Answers (.barrierAbandon m vid) s (fun t => t = s)) ∧
    (senderUp s m = true → m.sender = none →
      (e.kind = .local_ → (getCtx s m.ctx).state ≠ .resetting → k.observe = [] → k.consume = [] → k.count + n.toNat < 2 ^ 32 →
        Answers (.tallySignalMessage m vid n) s (fun t => TallyBecomes s t e.target { k with count := k.count + n.toNat } ∧
          CountsOn s t tallyPage Reg.tlySignals 1 ∧ t = { s with regs := t.regs, tly := { s.tly with tallies := t.tly.tallies } })) ∧
      (e.kind = .local_ → remoteWaiters s < 1024 → k.count < n.toNat →
        Answers (.tallyWatch m vid n token) s (queued { k with observe := k.observe ++ [me] }) ∧
        Answers (.tallyConsume m vid n token) s (queued { k with consume := k.consume ++ [me] })) ∧
      (e.kind = .unmapped → Answers (.tallySignalMessage m vid n) s (fun t => Flagged s t tallyPage 0 ∧ t.tly = s.tly) ∧
        Answers (.tallyWatch m vid n token) s (fun t => Flagged s t tallyPage 0 ∧ t.tly = s.tly) ∧
        Answers (.tallyConsume m vid n token) s (fun t => Flagged s t tallyPage 0 ∧ t.tly = s.tly) ∧
        Answers (.tallyArrive m vid n) s (fun t => Flagged s t tallyPage 0 ∧ t.tly = s.tly)) ∧
      (∀ j, e.kind = .barrier → e.target < 64 → (getSlot s e.target).broken = false → (getSlot s e.target).hampers.testBit 48 = true →
        (getSlot s e.target).current.testBit 48 = false → (getSlot s e.target).hampers.testBit j = true → j ≠ 48 →
        (getSlot s e.target).current.testBit j = false → Answers (.tallyArrive m vid n) s (fun t =>
          t = { s with tly := { s.tly with slots := t.tly.slots } } ∧ (∀ x, x ≠ e.target → getSlot t x = getSlot s x) ∧
          getSlot t e.target = { getSlot s e.target with current := (getSlot s e.target).current ||| 2 ^ 48 }))) ∧
    (∀ w a p, senderUp s m = true → m.sender = some p →
      s.tly.sent.find? (fun w => decide (w.module = p.val) && decide (w.token = token.toNat)) = some w →
      Answers (.tallyRelease m a vid token n) s (fun t =>
        t = { s with hampers := t.hampers, tly := { s.tly with sent := s.tly.sent.filter (fun w => !(decide (w.module = p.val) && decide (w.token = token.toNat))) } } ∧
        CoreBecomes s t w.lh (endWait (getH s w.lh).core (if a then 1 else 0)))) ∧
    (senderUp s m = true → e.kind = .barrier → e.target < 64 → (getSlot s e.target).broken = false → Answers (.barrierAbandon m vid) s (fun t =>
      (getSlot t e.target).broken = true ∧ (getSlot t e.target).waiters = [] ∧ (getSlot t e.target).gen = (getSlot s e.target).gen ∧
      (∀ x, x ≠ e.target → getSlot t x = getSlot s x) ∧
      (MayEmit s evBarrierBroken tallyPage → (getSlot s e.target).waiters = [] → Emitted s t evBarrierBroken tallyPage)))

/-- R12, R258, R259, R260: a write within device memory or the pantry window stands there afterwards and nothing else changes; a read answers the bytes
as they stand, a correctable error corrected and counted, an uncorrectable one counted, reported and poisoning its unit; an access beyond sets
OUT_OF_MAP, reads zero and writes nothing. A word with a wrong residue is stored, counted and reported. -/
def Obligations.MemoryIsReadAndWritten : Prop :=
  ∀ (s : State) (rq : Requester) (addr : Addr) (data : List Byte) (len : Nat), s.safe = true → NoPoison s →
    let a := addr.toNat
    let c := ctlOf a
    let page := ctlPage c
    let ce := if c.1 then Reg.hbmCe else Reg.lpcCe
    let ue := if c.1 then Reg.hbmUe else Reg.lpcUe
    let checks := if c.1 then Reg.hbmWriteChecks else Reg.lpcWriteChecks
    let outside (n : Nat) := deviceRangeOk a n = false ∧ pantryRangeOk s a n = false
    let written (t : State) := MemWritten s t a data
    (deviceRangeOk a data.length = true → (injectedWrite s a data.length).1 = false →
      Answers (.memoryWrite rq addr data []) s (fun t => t = { s with mem := t.mem } ∧ written t) ∧
      ∀ u w ws, rq = .unit u → Answers (.memoryWrite rq addr data (w :: ws)) s (fun t => t = { s with mem := t.mem, regs := t.regs } ∧
        written t ∧ Flagged s t page 1 ∧ getReg t page checks = satAdd (regWidth page checks) (getReg s page checks) 1)) ∧
    (deviceRangeOk a data.length = false → pantryRangeOk s a data.length = true →
      Answers (.memoryWrite rq addr data []) s (fun t => t = { s with mem := t.mem } ∧ written t)) ∧
    (outside data.length → ∀ bad, Answers (.memoryWrite rq addr data bad) s (fun t => ErrorOnly s t (rqPage s rq) errOutOfMap)) ∧
    (deviceRangeOk a len = true → armedUnits s armsRead a len = [] → (injected s a .clean).2 = .clean →
      Answers (.memoryRead rq addr len .clean) s (fun t => t = { s with answer := memRead s.mem a len })) ∧
    (deviceRangeOk a len = true → armedUnits s armsRead a len = [] → (injected s a .corrected) = (s, .corrected) →
      rowDue (trackRow (getCtl s c).track (ctlRow a) (clockSec s)) (ctlRow a) = false →
      Answers (.memoryRead rq addr len .corrected) s (fun t => t.answer = memRead s.mem a len ∧ t.mem = s.mem ∧
        getReg t page ce = satAdd (regWidth page ce) (getReg s page ce) 1)) ∧
    (∀ u, deviceRangeOk a len = true → armedUnits s armsRead a len = [] → (injected s a .uncorrectable) = (s, .uncorrectable) → rq = .unit u →
      Answers (.memoryRead rq addr len .uncorrectable) s (fun t => t.answer = memRead s.mem a len ∧ t.mem = s.mem ∧
        Flagged s t page 0 ∧ getReg t page ue = satAdd (regWidth page ue) (getReg s page ue) 1 ∧ (getCtl t c).poison = [unitAddr a])) ∧
    (deviceRangeOk a len = false → pantryRangeOk s a len = true →
      Answers (.memoryRead rq addr len .clean) s (fun t => t = { s with answer := memRead s.mem a len })) ∧
    (outside len → ∀ e, Answers (.memoryRead rq addr len e) s (fun t =>
      ErrorOnly { s with answer := List.replicate len 0 } t (rqPage s rq) errOutOfMap))

/-- R261: a scrub reads the next unit in address order and goes on. R263, R264, R266, R267: the end of a row copy, of a larder copy or of a repair
puts the row or the pseudo-channel into its new place, writes the flash and tells the host; R270: a row named in HBM_RETIRE_ROW begins to be
copied to a spare, unless the address is another stack's or a copy runs. -/
def Obligations.MemoryMaintenanceTakesEffect : Prop :=
  ∀ (s : State) (i : Fin 16) (hbm : Bool), s.safe = true →
    let c : Bool × Nat := (hbm, i.val)
    let m := getCtl s c
    let h := getCtl s (true, i.val)
    let l := getCtl s (false, i.val)
    let others (t : State) (d : Bool × Nat) := ∀ j : Fin 16, ∀ b, (b, j.val) ≠ d → getCtl t (b, j.val) = getCtl s (b, j.val)
    (∀ o, injected s (scrubAddr hbm i m.scrubPos) .clean = (s, .clean) → Answers (.scrub hbm i .clean o) s (fun t =>
      t = { s with hbm := t.hbm, lpc := t.lpc } ∧ others t c ∧
      getCtl t c = { m with scrubbing := true, scrubPos := (m.scrubPos + 1) % scrubUnits hbm, scrubDone := m.scrubDone + 1 })) ∧
    (∀ row, h.rowCopy = some row → MayEmit s evRowRetired (hbmcPage i) → Answers (.rowCopyComplete i) s (fun t =>
      getCtl t (true, i.val) = { h with rowCopy := none, spares := h.spares ++ [row] } ∧ others t (true, i.val) ∧ t.mem = s.mem ∧
      t.flash = { s.flash with rows := s.flash.rows ++ [(i.val, row)], writes := s.flash.writes + 1 } ∧ Emitted s t evRowRetired (hbmcPage i))) ∧
    (∀ p k, h.migrating = some (p, k) → MayEmit s evPcRetired (hbmcPage i) → Answers (.larderCopyComplete i []) s (fun t =>
      getCtl t (true, i.val) = { h with migrating := none, pcs := h.pcs ++ [(p, k)] } ∧ others t (true, i.val) ∧ t.mem = s.mem ∧
      Emitted s t evPcRetired (hbmcPage i))) ∧
    (∀ j row, l.repairing = some (j, row) → j < 4 → MayEmit s evRowRetired (lpcPage i) → Answers (.repairComplete i) s (fun t =>
      (getCtl t (false, i.val)).repairing = none ∧ (getCtl t (false, i.val)).spares = l.spares ++ [row] ∧
      (∀ x : Fin 4, (getCtl t (false, i.val)).repairsLeft[x] = (if x.val = j then l.repairsLeft[x] - 1 else l.repairsLeft[x])) ∧
      others t (false, i.val) ∧ t.mem = s.mem ∧ Emitted s t evRowRetired (lpcPage i) ∧
      getReg t (lpcPage i) Reg.lpcRepairs = satAdd (regWidth (lpcPage i) Reg.lpcRepairs) (getReg s (lpcPage i) Reg.lpcRepairs) 1)) ∧
    (∀ v : Word, let a := v.toNat
      let bad := hbmEnd ≤ a ∨ stackOf a ≠ i.val ∨ h.rowCopy.isSome = true ∨ h.migrating.isSome = true ∨ h.pcs.any (fun x => x.1 == pcOf a) = true
      let page := hbmcPage i
      ((getFlags s page).unlocked = false → Answers (.hbmRetireRow i v) s (fun t => ErrorOnly s t page errExpertDenied)) ∧
      ((getFlags s page).unlocked = true → bad → Answers (.hbmRetireRow i v) s (fun t => ErrorOnly s t page 4)) ∧
      ((getFlags s page).unlocked = true → ¬ bad → pcRows h (rowPc (rowKey a)) < 4 → h.spares.countP (fun k => k / 24576 == rowKey a / 24576) < 4 →
        Answers (.hbmRetireRow i v) s (fun t => getCtl t (true, i.val) = { h with rowCopy := some (rowKey a) } ∧ others t (true, i.val) ∧
          t.mem = s.mem)))

/-- R361: LEDGER_ACK of an exported record frees its slot, and any other is ignored. R296, R280: while no launch runs the ring is reset and configured,
at ranges of LPDDR5X outside the larder, and the seed of the selected context is written while its launch does not run. -/
def Obligations.LedgerCommandsTakeEffect : Prop :=
  ∀ (s : State) (step : BitVec 48) (v : W32) (w : Word), s.safe = true →
    let st := step.toNat
    let due := s.ledger.waiting.any (fun x => x.2 == st) = true ∧ st ∉ s.ledger.toExport
    let c := ledCtx s
    let x := getCtx s c
    let idle := anyLaunch s = false
    (due → Answers (.ledgerAck step) s (fun t =>
      t = { s with ledger := { s.ledger with waiting := s.ledger.waiting.filter (fun x => x.2 != st), acked := st } })) ∧
    (¬ due → Answers (.ledgerAck step) s (fun t => t = s)) ∧
    ((getFlags s ledgerPage).unlocked = true → v.getLsbD 0 = true → idle → Answers (.ledResetRing v) s (fun t =>
      t = { s with ledger := { s.ledger with waiting := [], toExport := [] } })) ∧
    ((getFlags s ledgerPage).unlocked = true → v.getLsbD 0 = true → ¬ idle → Answers (.ledResetRing v) s (fun t => ErrorOnly s t ledgerPage 2)) ∧
    (∀ high, ctxRuns x = false → Answers (.ledSeedWrite high w) s (fun t => t = { s with ctxs := t.ctxs } ∧
      getCtx t c = { x with seed := if high then w ++ x.seed.extractLsb' 0 64 else x.seed.extractLsb' 64 64 ++ w } ∧
      ∀ d, d ≠ c → getCtx t d = getCtx s d)) ∧
    (∀ high, ctxRuns x = true → Answers (.ledSeedWrite high w) s (fun t => ErrorOnly s t ledgerPage 1)) ∧
    (idle → ringOk (w.toNat / 4096 * 4096) (ledSlots s) = true →
      Answers (.ledConfigWrite Reg.ledBase w) s (fun t => SetsOnly s t ledgerPage Reg.ledBase (w.toNat / 4096 * 4096))) ∧
    (idle → ringOk (getReg s ledgerPage Reg.ledBase) (w.toNat % 65536) = true →
      Answers (.ledConfigWrite Reg.ledSlots w) s (fun t => SetsOnly s t ledgerPage Reg.ledSlots (w.toNat % 65536))) ∧
    (idle → Answers (.ledConfigWrite Reg.ledExport w) s (fun t => SetsOnly s t ledgerPage Reg.ledExport (w.toNat % 2))) ∧
    (¬ idle → Answers (.ledConfigWrite Reg.ledBase w) s (fun t => ErrorOnly s t ledgerPage 2) ∧
      Answers (.ledConfigWrite Reg.ledSlots w) s (fun t => ErrorOnly s t ledgerPage 2) ∧
      Answers (.ledConfigWrite Reg.ledExport w) s (fun t => ErrorOnly s t ledgerPage 2))

/-- R290, R298, R341: a measurement of the selected source sets the offset, and counts toward the lock of 16 in a row within the window; one beyond
SC_STEP_LIMIT steps the count and says so. With no source no measurement counts. A source lost while acquiring or locked leaves HOLDOVER, which
after its limit is UNLOCKED. SC_SOURCE selects a source anew, and SC_SET sets the free count. -/
def Obligations.SiteCountIsMeasuredAndSet : Prop :=
  ∀ (s : State) (o : Int), s.safe = true →
    let k := if decide (o.natAbs ≤ scWindow s) then (if s.sc.sync = .holdover ∨ s.sc.sync = .unlocked then 1 else s.sc.streak + 1) else 0
    let taken (sy : Sync) := match sy with
      | .holdover => Sync.acquiring
      | .unlocked => .acquiring
      | .acquiring => if 16 ≤ k then .locked else .acquiring
      | x => x
    let small := o.natAbs ≤ getReg s scPage Reg.scStepLimit
    let slewed (t : State) := ∃ f, f.natAbs ≤ 100000000 ∧
      t = { s with free := s.free + 1, sc := { s.sc with offset := o, streak := k, sync := taken s.sc.sync, freq := f } }
    let stepped (t : State) := t.sc = { s.sc with offset := o, streak := k, sync := taken s.sc.sync
                                                  count := ((s.sc.count : Int) + o).toNat % 2 ^ 64 } ∧
      getReg t scPage Reg.scSteps = satAdd (regWidth scPage Reg.scSteps) (getReg s scPage Reg.scSteps) 1 ∧
      (MayEmit s evCountStepped scPage → Emitted s t evCountStepped scPage)
    (s.sc.src ≠ 0 → s.sc.src ≠ 3 → (small → Answers (.scMeasurement o) s slewed) ∧ (¬ small → Answers (.scMeasurement o) s stepped)) ∧
    (s.sc.src = 0 → Answers (.scMeasurement o) s (fun t => t = s)) ∧
    (∀ (p : Fin 10) (d : BitVec 8), p.val < 2 → s.sc.src = p.val + 1 → s.sc.src ≠ 3 → (getReg s (portPage p) Reg.portPtp).testBit 9 = true →
      getReg s (portPage p) Reg.portPtp % 256 = d.toNat → small → Answers (.ptpMessage p .sync d o) s slewed) ∧
    (∀ (m : Fin 256) x, nearSess s m = some x → x.up = true → s.sc.src = 4 → x.port = 2 + s.sc.near → small →
      Answers (.sync m o) s slewed) ∧
    (s.sc.src ≠ 0 → (s.sc.sync = .acquiring ∨ s.sc.sync = .locked) → Answers .sourceLost s (fun t =>
      t.sc = { s.sc with sync := .holdover, streak := 0, ppsSeen := false } ∧ Flagged s t scPage 0 ∧
      (MayEmit s evSourceLost scPage → Emitted s t evSourceLost scPage))) ∧
    (s.sc.sync = .holdover → Answers .holdoverLimit s (fun t => t = { s with sc := { s.sc with sync := .unlocked } })) ∧
    (s.sc.sync ≠ .holdover → Answers .holdoverLimit s (fun t => t = s)) ∧
    (∀ v : W32, Answers (.scSourceWrite v) s (fun t => t = { s with regs := t.regs, sc := t.sc } ∧
      t.sc = { s.sc with src := v.toNat % 8, near := v.toNat / 16 % 8, streak := 0, pendingSet := none
                         sync := if v.toNat % 8 = 0 then .free else .acquiring } ∧
      getReg t scPage Reg.scSource = v.toNat % 128 ∧ KeepsRegs s t [regKey scPage Reg.scSource])) ∧
    (∀ v : Word, (getFlags s scPage).unlocked = true →
      (s.sc.src = 0 → Answers (.scSet v) s (fun t => t = { s with sc := { s.sc with count := v.toNat } })) ∧
      (s.sc.src = 3 → Answers (.scSet v) s (fun t => t = { s with sc := { s.sc with pendingSet := some v.toNat } })) ∧
      (s.sc.src ≠ 0 → s.sc.src ≠ 3 → Answers (.scSet v) s (fun t => ErrorOnly s t scPage 4))) ∧
    (∀ v : Word, (getFlags s scPage).unlocked = false → Answers (.scSet v) s (fun t => ErrorOnly s t scPage errExpertDenied))


namespace Sys2Proof.Machine

/-- One context became x, and the others are as before. -/
def CtxBecomes (s t : State) (c : Nat) (x : Context) : Prop := getCtx t c = x ∧ ∀ d, d ≠ c → getCtx t d = getCtx s d

/-- t is u but for what errors, events and messages to the host write: registers, the event queue, the sessions and the outbox. -/
def ButReports (u t : State) : Prop :=
  t = { u with regs := t.regs, events := t.events, evseq := t.evseq, hostSessions := t.hostSessions, outbox := t.outbox
               hostHeld := t.hostHeld }

end Sys2Proof.Machine

/-- R197, R198, R211, R212: a loader command is taken while none is in progress, and shows busy; one during another sets LOAD_REFUSED and is
ignored; two at once are refused with COMMAND. At its end a load that passes every check of R197 puts its image into the context, with a
handle, and one that fails reports its code; an unload empties the context and frees what the load placed; a patch writes its fields and
marks the image patched. -/
def Obligations.LoaderCommandsTakeEffect : Prop :=
  ∀ (s : State) (v : W32), s.safe = true →
    let n := v.toNat
    let h := n / 65536
    let idle := s.loader.cmd = none
    let sectionLen (p : LoadPlan) (q : Placed) := if q.kind = 3 then q.size
      else (((p.secs.find? (fun x => x.index == q.index)).map (relocated p)).getD []).length
    let only (i : Nat) := ∀ j < 3, n.testBit j = decide (j = i)
    let busy (c : LoadCmd) (k : Nat) (t : State) := t = { s with loader := { cmd := some c, state := 1, code := 0, handle := k, info := 0 } }
    let ended (u : State) (code k : Nat) (t : State) := ∃ i, t = { u with loader := { cmd := none, state := 3, code := code, handle := k, info := i }
                                                                          regs := t.regs } ∧ Flagged u t mgmtPage 0
    (idle → only 0 → Answers (.imageLoad v) s (busy (.load (n / 16 % 16) (getReg s mgmtPage Reg.mgLoadAddr) (getReg s mgmtPage Reg.mgLoadLen)) 0)) ∧
    (idle → only 1 → Answers (.unload v) s (busy (.unload h) h)) ∧
    (idle → only 2 → Answers (.patch v) s (busy (.patch h (getReg s mgmtPage Reg.mgPatchAddr)) h)) ∧
    (¬ idle → (v.getLsbD 0 = true → Answers (.imageLoad v) s (fun t => ErrorOnly s t mgmtPage 0)) ∧
      (v.getLsbD 1 = true → Answers (.unload v) s (fun t => ErrorOnly s t mgmtPage 0)) ∧
      (v.getLsbD 2 = true → Answers (.patch v) s (fun t => ErrorOnly s t mgmtPage 0))) ∧
    (idle → n.testBit 0 = true → n.testBit 1 = true → Answers (.imageLoad v) s (ended s 14 h) ∧ Answers (.unload v) s (ended s 14 h)) ∧
    (idle → Answers .loaderCommandDone s (fun t => t = s)) ∧
    (∀ (c : Fin 16) a len, s.loader.cmd = some (.load c a len) →
      ((getCtx s c).image.isSome = true → Answers .loaderCommandDone s (ended s 10 0)) ∧
      ((getCtx s c).image = none → ¬ (a % 64 = 0 ∧ deviceRangeOk a len = true) → Answers .loaderCommandDone s (ended s 15 0)) ∧
      (∀ e, planLoad s c a len = .error e → Answers .loaderCommandDone s (ended s e.1 0)) ∧
      (∀ p, planLoad s c a len = .ok p → Answers .loaderCommandDone s (fun t => ∃ im : Image,
        CtxBecomes s t c { getCtx s c with state := .loaded, image := some im, launch := none } ∧
        t.loader = { cmd := none, state := 2, code := 0, handle := im.handle, info := 0 } ∧
        im.mask = p.head.mask ∧ im.entries = p.entries ∧ im.placed = p.placed ∧ im.symbols = p.head.symbols ∧ im.patched = false ∧ im.hash = p.hash ∧
        (∀ x, (∀ q ∈ p.placed, x < q.addr ∨ q.addr + sectionLen p q ≤ x) → memGet t.mem x = memGet s.mem x) ∧ t.hampers = s.hampers ∧
        (MayEmit s evLoaded mgmtPage → Emitted s t evLoaded mgmtPage)))) ∧
    (∀ k, s.loader.cmd = some (.unload k) →
      (holderOf s k = none → Answers .loaderCommandDone s (ended s 11 k)) ∧
      (∀ c im, holderOf s k = some (c, im) → launchRuns (getCtx s c) = true → Answers .loaderCommandDone s (ended s 12 k)) ∧
      (∀ c im, holderOf s k = some (c, im) → launchRuns (getCtx s c) = false → Answers .loaderCommandDone s (fun t =>
        t = { s with loader := { cmd := none, state := 2, code := 0, handle := k, info := 0 }, ctxs := t.ctxs, tly := t.tly, wheels := t.wheels } ∧
        CtxBecomes s t c { getCtx s c with state := .empty, image := none, launch := none, saved := none } ∧
        (∀ x < 4096, (getEntry t c x).kind = .unmapped) ∧ ∀ g ∈ im.grants, sparseGet 0 t.wheels g = 0))) ∧
    (∀ k a, s.loader.cmd = some (.patch k a) →
      (holderOf s k = none → Answers .loaderCommandDone s (ended s 11 k)) ∧
      (∀ c im, holderOf s k = some (c, im) → launchRuns (getCtx s c) = true → Answers .loaderCommandDone s (ended s 12 k)) ∧
      (∀ c im, holderOf s k = some (c, im) → launchRuns (getCtx s c) = false →
        ((∃ r ∈ im.relocs, relocField r.kind r.orig (symbolValue s a r) = none) → Answers .loaderCommandDone s (ended s 9 k)) ∧
        (∀ r x, im.relocs = [r] → relocField r.kind r.orig (memNat s.mem (a + 8 * r.symbol.getD 0) 8) = some x → r.target ≠ im.entrySec →
          (∀ l ∈ maskList im.mask, im.entries.getD l 0 % 8 = 0) → Answers .loaderCommandDone s (fun t =>
            t = { s with loader := { cmd := none, state := 2, code := 0, handle := k, info := 0 }, ctxs := t.ctxs, mem := t.mem, hbm := t.hbm
                         lpc := t.lpc } ∧
            MemWritten s t r.addr (bytesLE (relocBytes r.kind) x) ∧ ∃ hash, CtxBecomes s t c
              { getCtx s c with image := some { im with patched := true, patchHash := hash } }))))

/-- R353, R292, R424, R354: LAUNCH answers its status. A refused one starts nothing; an accepted one is held until its count comes and its hampers are
free, and then every hamper of the image issues at its entry, with zeroed registers and an empty list, in the beat after the furthest die.
LAUNCH_DONE comes when every hamper has ended and nothing it issued is outstanding, and leaves the context LOADED with its hampers free. -/
def Obligations.LaunchesAreHeldStartedAndDone : Prop :=
  ∀ (s : State) (c : Fin 16) (handle : BitVec 16) (count at_ : Word), s.safe = true →
    let x := getCtx s c
    let has (k : Fin 16) := (getCtx s k).image.any (fun im => im.handle == handle.toNat) = true
    let mine := has c ∧ ∀ k, has k → k = c
    let patched := x.image.all (fun im => im.symbols == 0 || im.patched) = true
    let timed := at_ = 0 ∨ s.sc.src = 0 ∨ (s.sc.sync ≠ .acquiring ∧ s.sc.sync ≠ .unlocked)
    let go := hampersFree s c = true ∧ s.power.phase = .running ∧ s.flt.replace = false
    let replied (st : Nat) (t : State) := t.answer = bytesLE 4 st ++ bytesLE 8 count.toNat
    let refused (st : Nat) := Answers (.launch c handle count at_) s (fun t => replied st t ∧
      t = { s with answer := t.answer, regs := t.regs, hostSessions := t.hostSessions, outbox := t.outbox, hostHeld := t.hostHeld } ∧
      (st = 5 → Flagged s t scPage 3) ∧ (st = 6 → Flagged s t faultPage 3))
    let l : Launch := { handle := handle.toNat, count := count, at_ := at_.toNat, late := at_ != 0 && decide (at_.toNat ≤ s.sc.count), startBeat := 0
                        startNs := 0, illegal := false, forced := false }
    let free := (∀ p ∈ talliesOf s c, (getTally s p).observe = [] ∧ (getTally s p).consume = []) ∧ ∀ i ∈ slotsOf s c, (getSlot s i).waiters = []
    let started (l : Launch) (im : Image) (t : State) :=
      (getCtx t c).state = .running ∧ (getCtx t c).launch = some { l with startBeat := commonBeat s, startNs := s.clockNs } ∧
      (∀ d, d ≠ c.val → getCtx t d = getCtx s d) ∧
      (∀ k : Fin 48, im.mask.testBit k = true → let h := getH t k
        h.core.run = .issuing ∧ h.core.launched = true ∧ h.core.ctx = c.val ∧ h.core.pc = BitVec.ofNat 52 (im.entries.getD k 0) ∧
        h.core.next = commonBeat s ∧ (∀ r, sreg h.core r = 0) ∧ h.list.items = [] ∧ h.list.cursor = 0) ∧
      (∀ k : Fin 48, im.mask.testBit k = false → (getH t k).core = (getH s k).core) ∧
      (∀ p ∈ talliesOf s c, (getTally t p).count = (getTally s p).init) ∧
      (im.pinit = [] → (∀ p ∈ im.placed, p.kind ≠ 4) → t.mem = s.mem)
    ((∀ k, ¬ has k) → refused 1) ∧
    (∀ k, k ≠ c → has k → (∀ j, has j → j = k) → refused 2) ∧
    (mine → ¬ patched → refused 3) ∧
    (mine → patched → x.state ≠ .loaded → refused 4) ∧
    (mine → patched → x.state = .loaded → ¬ timed → refused 5) ∧
    (mine → patched → x.state = .loaded → timed → s.flt.replace = true → refused 6) ∧
    (mine → patched → x.state = .loaded → timed → s.flt.replace = false → s.sc.count < at_.toNat → Answers (.launch c handle count at_) s (fun t =>
      replied 0 t ∧ CtxBecomes s t c { x with state := .held, launch := some l } ∧ t.hampers = s.hampers ∧ t.mem = s.mem)) ∧
    (∀ im, mine → patched → x.state = .loaded → timed → at_.toNat ≤ s.sc.count → go → x.image = some im → free →
      Answers (.launch c handle count at_) s (fun t => replied 0 t ∧ started l im t ∧ (l.late = true → Flagged s t scPage 2))) ∧
    (∀ im l, x.state = .held → x.image = some im → x.launch = some l → l.at_ ≤ s.sc.count → go → free → Answers (.launchStart c) s (fun t =>
      started l im t ∧ (l.late = true → Flagged s t scPage 2 ∧ (getCtx t c).lateNs = s.sc.count - l.at_))) ∧
    (∀ l, x.launch = some l → (s.sc.count < l.at_ ∨ ¬ go) → Answers (.launchStart c) s (fun t => t = s)) ∧
    (∀ l, x.launch = some l → ctxRuns x = true → (∀ k ∈ hampersOf s c, (getH s k).core.ended = true) → contextQuiet s c = true →
      s.flt.draining = false → Answers (.launchDone c) s (fun t =>
        CtxBecomes s t c { x with launch := none, state := if x.image.isSome then .loaded else .empty, stopAt := none, saved := none, restartDue := false } ∧
        (∀ k ∈ hampersOf s c, (getH t k).core.launched = false) ∧ t.mem = s.mem ∧ (MayEmit s evLaunchDone mgmtPage → Emitted s t evLaunchDone mgmtPage))) ∧
    (∀ l k, x.launch = some l → k ∈ hampersOf s c → (getH s k).core.ended = false → Answers (.launchDone c) s (fun t => t = s))

/-- R425, R426, R429, R431–R435, R437, R245, R187: PREEMPT of a HELD context cancels the hold; of a RUNNING one with room for its image it begins the
stop; otherwise it is refused with a code. At the stop point every hamper stops issue, its wait abandoned; when nothing is outstanding the image
is written and the context is PREEMPTED. RESTORE is refused in the cases of R431, else the saved state is installed and the context goes on. A
context reset ends the programs. The watchdog records the beat and resets the contexts whose units have not acknowledged. -/
def Obligations.ContextsStopRestoreAndReset : Prop :=
  ∀ (s : State) (c : Fin 16) (mode : BitVec 2) (d : Fin 4), s.safe = true →
    let x := getCtx s c
    let rest := if x.image.isSome then CtxState.loaded else .empty
    let coded (n : Nat) (t : State) := t = { s with regs := t.regs, ctxs := t.ctxs } ∧ CtxBecomes s t c { x with code := n } ∧ Flagged s t mgmtPage 2
    let becomes (y : Context) (t : State) := t = { s with ctxs := t.ctxs } ∧ CtxBecomes s t c { y with code := 0 }
    let fits := x.image.all (fun im => imageAreaOk x (largestImage im)) = true
    let hs := hampersOf s c
    (mode = 3 → Answers (.preempt c mode) s (coded 1)) ∧
    (mode ≠ 3 → x.state = .held → Answers (.preempt c mode) s (becomes { x with state := rest, launch := none })) ∧
    (mode ≠ 3 → x.state = .running → fits → Answers (.preempt c mode) s
      (becomes { x with state := .stopping, mode := mode.toNat, acceptedNs := s.clockNs, stopAt := none })) ∧
    (mode ≠ 3 → x.state = .running → ¬ fits → Answers (.preempt c mode) s (coded 2)) ∧
    (mode ≠ 3 → x.state ≠ .held → x.state ≠ .running → Answers (.preempt c mode) s (coded 1)) ∧
    (∀ b, x.state = .stopping → x.stopAt = none → (∀ r, s.flt.restart = some r → r.ctx ≠ c) → contextBeat s c = some b → modeHolds s c b x.mode = true →
      Answers (.stopPoint c) s (fun t => CtxBecomes s t c { x with stopAt := some b, stopBeat := (getCtx t c).stopBeat } ∧ t.mem = s.mem ∧
        (∀ k ∈ hs, (getH t k).core.stopped = true ∧
          (∀ kd dst, (getH s k).core.run = .waiting kd dst → (getH t k).core.run = .issuing ∧ (getH t k).core.pc = (getH s k).core.pc - 8)) ∧
        ∀ k, k ∉ hs → getH t k = getH s k)) ∧
    ((x.state ≠ .stopping ∨ modeHolds s c ((contextBeat s c).getD 0) x.mode = false) → Answers (.stopPoint c) s (fun t => t = s)) ∧
    (∀ b im, x.state = .stopping → x.stopAt = some b → x.image = some im → contextQuiet s c = true → Answers (.preemptComplete c) s (fun t =>
      let a := x.imageAddr
      let len := (getCtx t c).imageLen
      CtxBecomes s t c { x with state := .preempted, stopAt := none, stopNs := s.clockNs - x.acceptedNs, imageLen := len, code := 0 } ∧
      (∀ k ∈ hs, (getH t k).core.launched = false) ∧ (∀ k, k ∉ hs → getH t k = getH s k) ∧
      memRead t.mem a 4 = bytesLE 4 0xC7E00716 ∧ memRead t.mem (a + 0x10) 8 = bytesLE 8 len ∧ memRead t.mem (a + 0x18) 8 = bytesLE 8 x.stopBeat ∧
      memRead t.mem (a + 0xE0) 32 = imageCheck t a len ∧
      (∀ y, (y < a ∨ a + len ≤ y) → memGet t.mem y = memGet s.mem y) ∧ CountsOn s t mgmtPage Reg.mgCtxPreempts 1)) ∧
    ((x.state ≠ .stopping ∨ contextQuiet s c = false) → Answers (.preemptComplete c) s (fun t => t = s)) ∧
    (x.state ≠ .preempted → x.state ≠ .loaded → Answers (.restore c) s (coded 1)) ∧
    ((x.state = .preempted ∨ x.state = .loaded) → headerOk s x.imageAddr = false → Answers (.restore c) s (coded 3)) ∧
    ((x.state = .preempted ∨ x.state = .loaded) → headerOk s x.imageAddr = true →
      imageCheck s x.imageAddr (headerField s x.imageAddr 0x10 8) ≠ memRead s.mem (x.imageAddr + 0xE0) 32 → Answers (.restore c) s (coded 4)) ∧
    (∀ e, restoreCheck s c = .error e → Answers (.restore c) s (fun t => (getCtx t c).code = e ∧ t.mem = s.mem ∧ t.hampers = s.hampers)) ∧
    (∀ i, restoreCheck s c = .ok i → Answers (.restore c) s (becomes { x with state := .restoring, saved := some i })) ∧
    (∀ i, x.state = .restoring → x.saved = some i → i.hampers.Pairwise (fun y z => y.lh ≠ z.lh) →
      let n := (x.image.map (·.pantryUse)).getD 0
      let back (t : State) := (getCtx t c).state = .running ∧ (getCtx t c).saved = none ∧ (getCtx t c).seed = i.seed ∧ (∀ k, k ≠ c.val → getCtx t k = getCtx s k) ∧
        getReg t mgmtPage Reg.mgCtxRestores = satAdd (regWidth mgmtPage Reg.mgCtxRestores) (getReg s mgmtPage Reg.mgCtxRestores) 1 ∧
        (∀ y ∈ i.hampers, (getH t y.lh).core.ctx = c.val ∧ (getH t y.lh).core.sregs = y.h.core.sregs ∧ (getH t y.lh).core.pc = y.h.core.pc) ∧
        ((∀ y ∈ i.hampers, ∀ z ∈ y.pantry, z.1 < n) → ∀ a, (∀ y ∈ i.hampers, a < pantryAddr y.lh 0 ∨ pantryAddr y.lh 0 + n ≤ a) →
          memGet t.mem a = memGet s.mem a)
      (i.restartDue = false → Answers (.restoreComplete c) s (fun t => back t ∧
        ∀ y ∈ i.hampers, (getH t y.lh).core.run = if y.h.core.ended then .idle else .issuing)) ∧
      (i.restartDue = true → s.flt.restart = none → Answers (.restoreComplete c) s (fun t => back t ∧ t.flt.restart.map (·.ctx) = some c.val ∧
        ∀ y ∈ i.hampers, (getH t y.lh).core.run = .idle))) ∧
    ((x.state ≠ .restoring ∨ x.saved = none) → Answers (.restoreComplete c) s (fun t => t = s)) ∧
    (x.state = .empty → Answers (.contextReset c) s (coded 1)) ∧
    (x.state = .resetting → Answers (.contextReset c) s (fun t => t = s)) ∧
    (x.state ≠ .empty → x.state ≠ .resetting → Answers (.contextReset c) s (fun t => (∀ k ∈ hs, (getH t k).core.run = .idle) ∧
      ((getCtx t c).state = .resetting ∨ ((getCtx t c).state = rest ∧ (getCtx t c).launch = none)) ∧
      (getCtx t c).image = x.image ∧ (getCtx t c).code = (if x.state = .stopping ∨ x.state = .restoring then 12 else 0))) ∧
    (let late (l : Fin 48) := l ∈ dieHampers d ∧ hamperAcked (getH s l) s.dies[d] = false
     let owner (l : Fin 48) := getCtx s (getH s l).core.ctx
     dieReady s d = false → (∀ l, late l → (getH s l).core.launched = true ∧ (owner l).state ≠ .empty ∧ (owner l).state ≠ .resetting) →
       Answers (.beatWatchdog d) s (fun t => getReg t mgmtPage Reg.mgWdBeat = packageBeats s ∧ getReg t mgmtPage Reg.mgWdInfo % 4 = d.val ∧
         (getReg t mgmtPage Reg.pageErr).testBit 1 = true ∧ ∀ l, late l → (getH t l).core.run = .idle)) ∧
    (dieReady s d = true → Answers (.beatWatchdog d) s (fun t => t = s))

/-- R305, R308, R314, R315, R317, R318, R475: STEP_REPLAY takes the replay points once nothing of the context is outstanding, and opens the seal for
the next attempt. A refusal notice refuses the seal of its step and restarts it, is ignored when it has been served, and is late when the step is
over. The end of a module drain ends every program. A laggard raises its die's voltage, and past 15 % in 10 min is a suspect. FLT_REPORT counts
an escape; FLT_FLAG_CLEAR with the clear code clears the flag; MG_FLASH_ERASE_LOG and MG_EVENT_TEST act in expert level. -/
def Obligations.FaultCommandsTakeEffect : Prop :=
  ∀ (s : State) (m : Fin 256) (c : Fin 16) (step : BitVec 48) (att : BitVec 16) (u : BitVec 16) (w : Word) (v : W32), s.safe = true →
    let a := att.toNat
    let b := commonBeat s
    let known := nearUp s m = true ∧ m.val ∈ domainOthers s
    let own := s.uc.owner.getD c
    let now := step = s.uc.step
    let n := u.toNat
    let total := sparseGet 0 s.flt.lag n
    let charge := total - sparseGet 0 s.flt.lagSeen n
    let hist := (charge :: sparseGet [] s.flt.lagHist n).take 10
    let suspect := lagWindow * 15 < hist.sum * 100 ∧ n ∉ s.flt.lagSuspect
    let counts (t : State) (off : Nat) := getReg t faultPage off = satAdd (regWidth faultPage off) (getReg s faultPage off) 1
    let unwaited (d : Nat) := (∀ p ∈ talliesOf s d, (getTally s p).observe = [] ∧ (getTally s p).consume = []) ∧ ∀ i ∈ slotsOf s d, (getSlot s i).waiters = []
    ((s.flt.restart = none ∨ ∃ r, s.flt.restart = some r ∧ contextQuiet s r.ctx = false) → Answers .stepReplay s (fun t => t = s)) ∧
    (∀ r, s.flt.restart = some r → contextQuiet s r.ctx = true → s.flt.held = [] → Answers .stepReplay s (fun t =>
      t.uc.sealSt = .open_ ∧ t.uc.reqs = [] ∧ t.uc.owner = none ∧ t.uc.step = s.uc.step ∧ t.flt.attempt = r.goal ∧ t.flt.restart = none ∧ t.mem = s.mem ∧
      counts t Reg.fltReplays ∧ (unwaited r.ctx → MayEmit s evStepReplay faultPage → Emitted s t evStepReplay faultPage) ∧
      ∀ k ∈ hampersOf s r.ctx, ∀ p, replayPoint s (getH s k).core = some p → let h := getH t k
        h.core.run = .issuing ∧ h.core.pc = p.pc ∧ h.core.sregs = p.sregs ∧ h.core.next = b ∧ h.core.start = (b : Int) - p.beat ∧
        h.list.items = [] ∧ ∀ f ∈ h.frames.toList, f.basket = [])) ∧
    (¬ known → Answers (.refusalNotice m c step att) s (fun t => t = s)) ∧
    (known → now → s.uc.sealSt = .open_ → s.flt.attempt ≤ a → Answers (.refusalNotice m c step att) s (fun t =>
      t.uc.sealSt = .refused ∧ t.uc.reqs = [] ∧ t.uc.owner = some own ∧ t.uc.step = s.uc.step ∧ t.flt.attempt = a ∧
      t.flt.refusals = s.flt.refusals + 1 ∧ t.mem = s.mem ∧
      getReg t ucPage Reg.ucSealRefusals = satAdd (regWidth ucPage Reg.ucSealRefusals) (getReg s ucPage Reg.ucSealRefusals) 1 ∧
      (ctxRuns (getCtx s own) = true → (getCtx s own).stopAt = none → s.flt.replace = false →
        s.flt.refusals + 1 < Nat.max 1 (getReg s faultPage Reg.fltReplayLimit % 256) →
        t.flt.restart.map (fun r => (r.ctx, r.goal)) = some (own, a + 1) ∧ ∀ k ∈ hampersOf s own, (getH t k).core.run = .idle))) ∧
    (known → now → (a < s.flt.attempt ∨ s.uc.sealSt = .refused) → Answers (.refusalNotice m c step att) s (fun t =>
      t = { s with nearSessions := t.nearSessions })) ∧
    (known → step.toNat = s.uc.step.toNat + 1 → Answers (.refusalNotice m c step att) s (fun t =>
      t = { s with nearSessions := t.nearSessions, uc := { s.uc with nextRefused := true, nextCtx := some (s.uc.nextCtx.getD c) } })) ∧
    (known → (step.toNat < s.uc.step.toNat ∨ (now ∧ s.flt.attempt ≤ a ∧ s.uc.sealSt ≠ .open_ ∧ s.uc.sealSt ≠ .refused)) →
      Answers (.refusalNotice m c step att) s (fun t => Flagged s t faultPage 1 ∧ t.uc = s.uc ∧ t.hampers = s.hampers ∧ t.mem = s.mem ∧
        (MayEmit s evDomainLate faultPage → Emitted s t evDomainLate faultPage))) ∧
    (s.flt.draining = true → s.uc.sweepState ≠ .running → (∀ d ∈ runningCtxs s, contextQuiet s d = true) → Answers .moduleDrainComplete s (fun t =>
      t.flt.draining = false ∧ t.mem = s.mem ∧ ∀ d ∈ runningCtxs s, ∀ k ∈ hampersOf s d, (getH t k).core.run = .idle ∧ (getH t k).core.ended = true)) ∧
    ((s.flt.draining = false ∨ s.uc.sweepState = .running ∨ ∃ d ∈ runningCtxs s, contextQuiet s d = false) →
      Answers .moduleDrainComplete s (fun t => t = s)) ∧
    (rising s.flt.lagSeen = true → rising s.flt.lagHist = true → Answers (.laggardEvaluation u) s (fun t =>
      sparseGet 0 t.flt.lagSeen n = total ∧ sparseGet [] t.flt.lagHist n = hist ∧ t.mem = s.mem ∧
      (∀ d, coreDomain n = some d → lagInterval * 5 < charge * 100 → s.power.throttled = false →
        t.power.mv[d]?.getD 0 = Nat.max (s.power.mv[d]?.getD 0) (Nat.min (s.power.mv[d]?.getD 0 + 10) (s.power.ceiling[d]?.getD (s.power.mv[d]?.getD 0))) ∧
        ∀ e, e ≠ d → t.power.mv[e]? = s.power.mv[e]?) ∧
      (¬ suspect → getReg t faultPage Reg.fltSuspects = getReg s faultPage Reg.fltSuspects) ∧
      (suspect → counts t Reg.fltSuspects ∧ (n / 4096 = 0 → t.flt.events = s.flt.events ++ [(n, clockSec s)]) ∧
        (n / 4096 ≠ 0 → MayEmit s evSuspectUnit faultPage → Emitted s t evSuspectUnit faultPage)))) ∧
    (w.getLsbD 48 = false → Answers (.fltReport w) s (fun t => ButReports s t ∧ counts t Reg.fltEscapes ∧
      (MayEmit s evEscapeReported faultPage → Emitted s t evEscapeReported faultPage))) ∧
    (w.getLsbD 48 = true → Answers (.fltReport w) s (fun t => counts t Reg.fltEscapes ∧
      t.flt.events = s.flt.events ++ [(4096 * (w.toNat / 2 ^ 60) + w.toNat / 2 ^ 49 % 2 ^ 8, clockSec s)])) ∧
    ((getFlags s faultPage).unlocked = false → Answers (.fltFlagClear v) s (fun t => ErrorOnly s t faultPage errExpertDenied)) ∧
    ((getFlags s faultPage).unlocked = true → (v = Config.clearCode s.part.serial → Answers (.fltFlagClear v) s (fun t =>
        t = { s with regs := t.regs, flash := { s.flash with flag := none, writes := s.flash.writes + 1 }
                     flt := { s.flt with replace := false, causeUnit := 0, causeKind := 0, failed := [] } } ∧ getReg t faultPage Reg.fltCause = 0)) ∧
      (v ≠ Config.clearCode s.part.serial → Answers (.fltFlagClear v) s (fun t => ErrorOnly s t faultPage 4))) ∧
    ((getFlags s mgmtPage).unlocked = false → Answers (.mgFlashEraseLog v) s (fun t => ErrorOnly s t mgmtPage errExpertDenied) ∧
      Answers (.mgEventTest v) s (fun t => ErrorOnly s t mgmtPage errExpertDenied)) ∧
    ((getFlags s mgmtPage).unlocked = true → let busy := anyLaunch s = true ∨ s.flt.replace = true
      (v.getLsbD 0 = false → Answers (.mgFlashEraseLog v) s (fun t => t = s)) ∧
      (v.getLsbD 0 = true → busy → Answers (.mgFlashEraseLog v) s (fun t => ErrorOnly s t mgmtPage 3)) ∧
      (v.getLsbD 0 = true → ¬ busy → Answers (.mgFlashEraseLog v) s (fun t =>
        t = { s with flash := { s.flash with faults := [], tracks := [], writes := s.flash.writes + 1 } })) ∧
      Answers (.mgEventTest v) s (fun t => ButReports s t ∧ (MayEmit s (v.toNat % 65536) mgmtPage → Emitted s t (v.toNat % 65536) mgmtPage)))

/-- R326, R327, R328, R331, R332: an arbitration grants one unit by the three steps of R327, a parked owner keeping the grant while no other class
requests; a window that has ended begins anew with the configuration of its registers. A cut-off ends the unit in progress, is counted, recorded
and reported, and arbitrates at once. A write to a weight or quota that breaks a condition of R328 is ignored with CONFIG. -/
def Obligations.ArbitersGrantCutOffAndTakeSettings : Prop :=
  ∀ (s : State) (a : Fin 58) (rs : List ArbReq), s.safe = true →
    let x := endUnit (getArb s a)
    let page := arbPage a
    let asks (c : Nat) := rs.any (fun r => r.cls.val == c) = true
    let others (t : State) := ∀ b, b ≠ a.val → getArb t b = getArb s b
    let runs := x.served < x.window ∧ ∃ c, asks c ∧ x.masked.getD c false = false
    let parks := ∃ o k, x.owner = some (o, k) ∧ 3 ≤ o ∧ ∀ c, asks c ↔ c = o
    let claims (c : Nat) := asks c ∧ (x.cls c).high = true ∧ x.granted.getD c 0 < (x.cls c).quota ∧ x.masked.getD c false = false
    let shares (c : Nat) := asks c ∧ (x.cls c).high = false ∧ 0 < x.weight c
    let last (c k : Nat) := rs.any (fun r => r.cls.val == c && r.src == k) = true ∧
      (∀ r ∈ rs, r.cls.val = c → match x.lastSrc.getD c none with
        | some l => if l < k then r.src ≤ l ∨ k ≤ r.src else r.src ≤ l ∧ k ≤ r.src
        | none => k ≤ r.src)
    let y (c k : Nat) : Arb := { x with served := x.served + 1, owner := some (c, k), inUnit := true, lastSrc := x.lastSrc.set c (some k), parked := false }
    let granted (z : Arb) (c : Nat) := Answers (.arbitration a rs) s (fun t => getArb t a = z ∧ others t ∧
      getReg t (arbBank a) (Reg.arbGrants + 8 * c) = satAdd (regWidth (arbBank a) (Reg.arbGrants + 8 * c)) (getReg s (arbBank a) (Reg.arbGrants + 8 * c)) 1)
    (∀ c k, runs → ¬ parks → claims c → (∀ d, claims d → c ≤ d) → last c k → granted { y c k with
      granted := x.granted.set c (x.granted.getD c 0 + 1)
      masked := if (x.cls c).quota ≤ x.granted.getD c 0 + 1 then x.masked.set c true else x.masked } c) ∧
    (∀ c k, runs → ¬ parks → (∀ d, ¬ claims d) → shares c →
      (∀ d, shares d → x.credit.getD d 0 < x.credit.getD c 0 ∨ (x.credit.getD d 0 = x.credit.getD c 0 ∧ c ≤ d)) → last c k →
      granted { y c k with credit := x.credit.set c (Max.max (-32768) (x.credit.getD c 0 - 1)) } c) ∧
    (∀ c k, runs → ¬ parks → (∀ d, ¬ claims d ∧ ¬ shares d) → asks c → (x.cls c).high = false →
      (∀ d, asks d → (x.cls d).high = false → c ≤ d) → last c k → granted (y c k) c) ∧
    (∀ c k, runs → x.owner = some (c, k) → 3 ≤ c → (∀ d, asks d ↔ d = c) → (x.cls c).high = false → 0 < x.weight c →
      rs.any (fun r => r.cls.val == c && r.src == k) = true → granted { y c k with
        parked := true, credit := x.credit.set c (Max.max (-32768) (x.credit.getD c 0 - 1)) } c) ∧
    (x.window ≤ x.served → rs = [] → Answers (.arbitration a rs) s (fun t => t = { s with arbs := t.arbs } ∧ others t ∧
      getArb t a = { x with window := windowOf (getReg s page Reg.arbWindow), catchup := catchupOf (getReg s page Reg.arbWindow)
                            classes := (List.range 10).map (arbClassOf s page), behind := scrubBehind s a, served := 0
                            credit := (getArb t a).credit, granted := List.replicate 10 0, masked := List.replicate 10 false
                            owner := none, parked := false } ∧
      ∀ c < 10, (getArb t a).credit.getD c 0 = if (arbClassOf s page c).high then 0
        else if c = 9 ∧ scrubBehind s a = true then (catchupOf (getReg s page Reg.arbWindow) : Int) else ((arbClassOf s page c).weight : Int))) ∧
    (∀ w, ((getArb s a).inUnit = false ∨ (getArb s a).owner = none) → Answers (.arbCutoff a w rs) s (fun t => t = s)) ∧
    (∀ w c k, (getArb s a).inUnit = true → (getArb s a).owner = some (c, k) → let again := (getArb s a).cut = some (c, k)
      Answers (.arbCutoff a w rs) s (fun t => (getArb t a).cut = some (c, k) ∧ (getReg t page Reg.arbErr).testBit 1 = true ∧
        getReg t page Reg.arbCutoffInfo = c + 256 * (k % 256) + 65536 * bit w + 131072 * bit (decide again) ∧
        (again → (getReg t page Reg.arbErr).testBit 2 = true) ∧
        (¬ again → t.mem = s.mem ∧ t.hampers = s.hampers ∧
          getReg t (arbBank a) Reg.arbCutoffs = satAdd (regWidth (arbBank a) Reg.arbCutoffs) (getReg s (arbBank a) Reg.arbCutoffs) 1))) ∧
    (∀ page off (v : W32), (arbsOf page).isEmpty = false → arbConfigReg off = true → off % 4 = 0 → let n := arbConfigVal off v.toNat
      let u := setReg s page off n
      let valid := arbValid (windowOf (getReg u page Reg.arbWindow)) (catchupOf (getReg u page Reg.arbWindow)) ((List.range 10).map (arbClassOf u page)) = true
      let may := off < Reg.arbPrio ∨ (getFlags s page).unlocked = true
      (¬ may → Answers (.arbConfigWrite page off v) s (fun t => ErrorOnly s t page errExpertDenied)) ∧
      (may → valid → Answers (.arbConfigWrite page off v) s (fun t => SetsOnly s t page off n)) ∧
      (may → ¬ valid → Answers (.arbConfigWrite page off v) s (fun t => ButReports s t ∧ getReg t page off = getReg s page off ∧
        getReg t page Reg.arbErr = getReg s page Reg.arbErr ||| 1 ∧ (MayEmit s evArbError page → Emitted s t evArbError page)))) ∧
    (∀ page off (v : W32), ((arbsOf page).isEmpty = true ∨ arbConfigReg off = false) → Answers (.arbConfigWrite page off v) s (fun t => t = s))

/-- R338, R339, R340, R342, R344, R345, R347, R362: a lane's retrain is counted and takes the link down until it has trained; the ninth in its window
retires the lane, as PORT_LANE_RETIRE does in expert level. A write that changes PORT_CFG retrains the port in its new form and its host sessions are
lost. Questions for the port's own address, and 100 echoes a second, are answered. A received frame is counted, and dropped where a filter or a
check fails; a good frame of a session is received in SEQ order. -/
def Obligations.PortsTrainRetireAndReceive : Prop :=
  ∀ (s : State) (p : Fin 10) (h : Fin 2) (lane : Fin 8) (v : W32), s.safe = true →
    let x := getPort s p
    let page := portPage p
    let half := if x.split then lane.val / 4 else 0
    let off := x.retired.contains lane.val = true ∨ (x.split = false ∧ x.fallback = some (1 - lane.val / 4))
    let counts (t : State) (r : Nat) := getReg t page r = satAdd (regWidth page r) (getReg s page r) 1
    let retired (l : Nat) (t : State) := (getPort t p).retired = x.retired ++ [l] ∧ t.flash.lanes = s.flash.lanes ++ [(p.val, l)] ∧ t.mem = s.mem
    let recent := inWindowCount s (unitLane p lane) 600 + 1
    let unlocked := (getFlags s page).unlocked = true
    let sent (t : State) (k : Nat) (fs : List Nat) := t = { s with outbox := s.outbox ++ [(.wire p h, 0, { kind := k, fields := fs, data := [] })]
                                                                   regs := t.regs, ports := t.ports } ∧ CountsOn s t page Reg.portTxFrames 1
    let up := portUp s p h = true
    (off → Answers (.laneRetrain p lane) s (fun t => t = s)) ∧
    (¬ off → recent < 9 → Answers (.laneRetrain p lane) s (fun t => counts t Reg.portRetrains ∧ t.mem = s.mem ∧
      t.flt.events = s.flt.events ++ [(unitLane p lane, clockSec s)] ∧ linkOf t p half = (if linkOf s p half = .up then .training else linkOf s p half))) ∧
    (¬ off → 9 ≤ recent → Answers (.laneRetrain p lane) s (fun t => counts t Reg.portRetrains ∧ retired lane t)) ∧
    (¬ unlocked → Answers (.portLaneRetire p v) s (fun t => ErrorOnly s t page errExpertDenied) ∧
      Answers (.portLoopback p v) s (fun t => ErrorOnly s t page errExpertDenied)) ∧
    (unlocked → v.getLsbD 8 = true → x.retired.contains (v.toNat % 8) = false → Answers (.portLaneRetire p v) s (retired (v.toNat % 8))) ∧
    (unlocked → (v.getLsbD 8 = false ∨ x.retired.contains (v.toNat % 8) = true) → Answers (.portLaneRetire p v) s (fun t => t = s)) ∧
    (unlocked → v.getLsbD 0 = true → Answers (.portLoopback p v) s (fun t => getReg t page Reg.portLoopback = 1 ∧
      ∀ k < 2, linkOf t p k = if linkOf s p k = .outOfService then .outOfService else .down)) ∧
    (unlocked → v.getLsbD 0 = false → (getReg s page Reg.portLoopback).testBit 0 = true → outOfService x 0 = false → Answers (.portLoopback p v) s (fun t =>
      getReg t page Reg.portLoopback = 0 ∧ linkOf t p 0 = .training ∧ t.mem = s.mem)) ∧
    (linkTrains s p h = true → Answers (.linkUp p h) s (fun t => linkOf t p h = .up ∧ (getPort t p).downSince = none ∧ t.mem = s.mem ∧
      ∀ n c, x.downSince = some (n, c) → n < s.clockNs → getReg t page Reg.portDownNs = satAdd (regWidth page Reg.portDownNs) (getReg s page Reg.portDownNs) (s.clockNs - n))) ∧
    (linkTrains s p h = false → Answers (.linkUp p h) s (fun t => t = s)) ∧
    (portInLaunch s p = true → Answers (.portCfgWrite p v) s (fun t => ErrorOnly s t page 4)) ∧
    (portInLaunch s p = false → v.toNat % 4 = getReg s page Reg.portCfg → Answers (.portCfgWrite p v) s (fun t => t = s)) ∧
    (portInLaunch s p = false → v.toNat % 4 ≠ getReg s page Reg.portCfg → Answers (.portCfgWrite p v) s (fun t =>
      getReg t page Reg.portCfg = v.toNat % 4 ∧ (getPort t p).split = v.getLsbD 0 ∧ linkOf t p 0 ≠ .up ∧ (∀ y ∈ t.hostSessions, y.port ≠ p.val) ∧ t.mem = s.mem)) ∧
    (∀ ip : BitVec 128, let mine := up ∧ ip.toNat = portAddr s p h
      (mine → isV4 ip.toNat = true → Answers (.arpRequest p h ip) s (fun t => sent t 0xF0 [ip.toNat, halfReg s p h Reg.portMac])) ∧
      (mine → isV4 ip.toNat = false → Answers (.neighbourSolicitation p h ip) s (fun t => sent t 0xF1 [ip.toNat, halfReg s p h Reg.portMac])) ∧
      (¬ mine → Answers (.arpRequest p h ip) s (fun t => t = s) ∧ Answers (.neighbourSolicitation p h ip) s (fun t => t = s))) ∧
    (let mine := x.echoes.countP (fun e => e.2 == clockSec s && e.1 == h.val)
     (up → mine < 100 → Answers (.icmpEcho p h) s (fun t => sent t 0xF2 [])) ∧
     ((¬ up ∨ 100 ≤ mine) → Answers (.icmpEcho p h) s (fun t => t = s))) ∧
    (∀ f : RxFrame, let d := f.header
      let got := Answers (.frameReceive p h f) s
      let ok := up ∧ f.fcsGood = true ∧ frameOk s p h f = true
      let good := ok ∧ f.kind = .vyvex ∧ headerGood d f.payload.length = true
      let whole := good ∧ crc32c f.payload = headField d 0x20 4 ∧ f.residueGood = true
      let mode := headField d 0 1 / 4 % 4
      let kind := headField d 1 1
      let seq := headField d 0x0C 4
      (¬ up → got (fun t => t = s)) ∧
      (up → f.fcsGood = false → got (fun t => t = { s with regs := t.regs } ∧ counts t Reg.portRxFrames ∧ counts t Reg.portFcsErrors)) ∧
      (up → f.fcsGood = true → frameOk s p h f = false → got (fun t => t = { s with regs := t.regs } ∧ counts t Reg.portRxFrames ∧ counts t Reg.portRxDropped)) ∧
      (ok → f.kind ≠ .vyvex → got (fun t => t = { s with regs := t.regs } ∧ CountsOn s t page Reg.portRxFrames 1)) ∧
      (ok → f.kind = .vyvex → headerGood d f.payload.length = false → got (fun t => t = { s with regs := t.regs } ∧ counts t Reg.portRxFrames ∧
        getReg t mgmtPage Reg.vyvDropped = satAdd (regWidth mgmtPage Reg.vyvDropped) (getReg s mgmtPage Reg.vyvDropped) 1)) ∧
      (good → crc32c f.payload ≠ headField d 0x20 4 → mode ≠ 1 → got (fun t => t = { s with regs := t.regs } ∧ counts t Reg.portRxFrames ∧
        counts t Reg.portPchkErrors ∧ Flagged s t page 2)) ∧
      (∀ y, whole → mode = 0 → hostSess s (headField d 8 4) = some y → kind ≠ 4 → seq = y.rxNext → y.rxSeen = [] → got (fun t =>
        (hostSess t (headField d 8 4)).map (fun z => (z.rxNext, z.rxSeen, z.appNext)) = some ((seq + 1) % 2 ^ 32, [], y.appNext) ∧ t.mem = s.mem)) ∧
      (∀ y, whole → mode = 1 → nearByNumber s p h (headField d 8 4) = some y → kind ≠ 1 → seq = y.rxNext → got (fun t =>
        (nearSess t y.module).map (fun z => z.rxNext) = some ((seq + 1) % 2 ^ 32) ∧ t.mem = s.mem)) ∧
      (∀ y, whole → mode = 1 → nearByNumber s p h (headField d 8 4) = some y → kind ≠ 1 → seq ≠ y.rxNext →
        nearSess s y.module = some y → got (fun t =>
        (getReg t (portPage y.port) Reg.pageErr).testBit 3 = true)))

/-- R245, R314, R345–R348, R350, R351, R358: OPEN of an admitted host opens a session, answered OPEN_ACK, or is refused by CLOSE; OPEN of a lower-indexed peer
opens its near session; OPEN_ACK brings up the one this module opened; CLOSE ends a session; ACK forgets what it names. A frame that times out is
sent again with twice the timeout, until the session is lost. Idle and credit timers send an ACK. A lost near session sets SESSION_LOST, breaks the
barriers that name the module, and refuses an open seal whose context used it. -/
def Obligations.SessionsOpenCloseAndAcknowledge : Prop :=
  ∀ (s : State) (m : SessHead) (p : Fin 256) (ev : Bool) (w : Word) (v : W32), s.safe = true →
    let n := m.session.toNat
    let page := portPage m.port
    let q := (m.seq.toNat + 1) % 2 ^ 32
    let serves := portUp s m.port m.half = true ∧ (getFlags s page).draining = false
    let host := m.near = none
    let near := m.near = some p
    let admitted := serves ∧ m.port.val < 2 ∧ hostAllowed s m.addr.toNat = true
    let opened (x : HostSession) := x.session = n ∧ x.port = m.port.val ∧ x.half = m.half.val ∧ x.addr = m.addr.toNat ∧ x.rxNext = q ∧ x.appNext = q ∧ x.rxSeen = []
    let answered (u t : State) (d : Dest) (seq : Nat) (o : OutMsg) := t.outbox = u.outbox ++ [(d, seq, o)]
    let refused (t : State) := ∃ r, t = { s with free := s.free + 1, outbox := s.outbox ++ [(.host n, 0, { kind := 3, fields := [r], data := [] })] }
    let peers := inSite s = true ∧ p.val < selfModule s ∧ peerValid s p = true ∧ 2 ≤ m.port.val ∧ (peerCfg s p).testBit (m.port.val - 2) = true
    let lost (x : NearSession) (t : State) := (getReg t (portPage x.port) Reg.pageErr).testBit 3 = true ∧ (selfModule s ≤ p.val ∨ nearSess t p = none) ∧
      (∀ w ∈ t.tly.sent, w.module ≠ p.val) ∧ t.mem = s.mem ∧
      (∀ i < 64, (getSlot s i).owner.isSome = true → (getSlot s i).modules.testBit p = true → (getSlot t i).broken = true) ∧
      ((∃ c ∈ x.users, s.uc.owner = none ∨ s.uc.owner = some c) → s.uc.sealSt = .open_ → t.uc.sealSt = .refused) ∧
      (MayEmit s evSessionLost (portPage x.port) → ∃ e ∈ t.events, e.code = evSessionLost ∧ e.page = portPage x.port)
    let acks (x : NearSession) (t : State) := nearSess t p = some { x with txNext := (x.txNext + 1) % 2 ^ 32, rxLimitSent := x.rxLimit } ∧
      answered s t (.peer p) x.txNext { kind := 4, fields := [0, x.rxNext, x.rxLimit], data := [] } ∧
      t = { s with nearSessions := t.nearSessions, outbox := t.outbox, regs := t.regs }
    (host → (¬ serves ∨ 2 ≤ m.port.val) → Answers (.openMsg m ev) s (fun t => t = s)) ∧
    (host → serves → m.port.val < 2 → hostAllowed s m.addr.toNat = false → Answers (.openMsg m ev) s (fun t => ErrorOnly s t page 5)) ∧
    (host → admitted → hostSess s n = none → s.hostSessions.length < 8 → Answers (.openMsg m ev) s (fun t => (∃ x, hostSess t n = some x ∧ opened x) ∧
      t.sink = (if ev then some n else s.sink) ∧ t.mem = s.mem ∧ (ev = false → s.hostHeld = [] → answered s t (.host n) 0 { kind := 2, fields := [], data := [] }))) ∧
    (host → admitted → hostSess s n = none → 8 ≤ s.hostSessions.length → Answers (.openMsg m ev) s refused) ∧
    (∀ x, host → admitted → hostSess s n = some x → x.addr ≠ m.addr.toNat → Answers (.openMsg m ev) s refused) ∧
    (∀ x, host → admitted → hostSess s n = some x → x.addr = m.addr.toNat → Answers (.openMsg m ev) s (fun t =>
      t = { s with outbox := t.outbox, regs := t.regs } ∧ ∃ sack, answered s t (.host n) x.txNext { kind := 4, fields := [sack, x.rxNext], data := [] })) ∧
    (near → serves → peers → nearSess s p = none → 1 ≤ m.credit.toNat → m.credit.toNat < 2 ^ 15 → Answers (.openMsg m ev) s (fun t =>
      ∃ x, nearSess t p = some x ∧ x.up = true ∧ x.session = n ∧ x.port = m.port.val ∧ x.half = m.half.val ∧ x.rxNext = q ∧ x.limit = m.credit.toNat ∧
        x.txNext = 1 ∧ answered s t (.peer p) 0 { kind := 2, fields := [], data := [] })) ∧
    (near → (¬ serves ∨ ¬ peers) → Answers (.openMsg m ev) s (fun t => t = s)) ∧
    (∀ x, near → nearSess s p = some x → x.up = false → x.session = n → x.waiting = [] → Answers (.openAck m) s (fun t =>
      t = { s with nearSessions := t.nearSessions } ∧ nearSess t p = some { x with up := true, limit := m.credit.toNat })) ∧
    ((host ∨ (near ∧ nearSess s p = none) ∨ ∃ x, near ∧ nearSess s p = some x ∧ (x.up = true ∨ x.session ≠ n)) → Answers (.openAck m) s (fun t => t = s)) ∧
    (host → Answers (.closeMsg m v) s (fun t => hostSess t n = none ∧ (∀ k, k ≠ n → hostSess t k = hostSess s k) ∧ t.mem = s.mem ∧
      (∀ x, hostSess s n = some x → s.sink = some n → t.sink = none) ∧ (hostSess s n = none → t = s))) ∧
    (∀ x, near → nearSess s p = some x → x.session = n → selfModule s ≥ p.val → Answers (.closeMsg m v) s (fun t =>
      t = { s with nearSessions := t.nearSessions } ∧ nearSess t p = none ∧ ∀ k, k ≠ p.val → nearSess t k = nearSess s k)) ∧
    (∀ x, near → nearSess s p = some x → x.session ≠ n → Answers (.closeMsg m v) s (fun t => t = s)) ∧
    (∀ x, host → hostSess s n = some x → x.waiting = [] → s.sink ≠ some n → Answers (.ack m w) s (fun t =>
      t = { s with hostSessions := t.hostSessions, events := t.events } ∧
      hostSess t n = some { x with unacked := x.unacked.filter (fun u => !seqAcked u.seq m.ack.toNat w.toNat) } ∧
      ∀ e, e ∈ t.events ↔ e ∈ s.events ∧ ∀ k, e.sentIn = some (n, k) → seqAcked k m.ack.toNat w.toNat = false)) ∧
    (∀ x, near → nearSess s p = some x → x.up = true → x.waiting = [] → Answers (.ack m w) s (fun t => t = { s with nearSessions := t.nearSessions } ∧
      nearSess t p = some { x with unacked := x.unacked.filter (fun u => !seqBelow u.seq m.ack.toNat), limit := m.credit.toNat })) ∧
    (near → nearUp s p = false → Answers (.ack m w) s (fun t => t = s)) ∧
    (∀ x u, hostSess s n = some x → x.unacked.find? (fun u => u.seq == v.toNat) = some u → let limit := Nat.max 1 (getReg s mgmtPage Reg.vyvHostRetries % 256)
      (u.resends < limit → Answers (.hostResendTimeout n v) s (fun t => answered s t (.host n) u.seq u.msg ∧
        t = { s with outbox := t.outbox, hostSessions := t.hostSessions, regs := t.regs } ∧ hostSess t n = some { x with unacked := x.unacked.map (fun y =>
          if y.seq = u.seq then { y with resends := y.resends + 1, timeout := 2 * y.timeout } else y) })) ∧
      (limit ≤ u.resends → Answers (.hostResendTimeout n v) s (fun t => hostSess t n = none ∧ Flagged s t (portPage x.port) 3))) ∧
    (hostSess s n = none → Answers (.hostResendTimeout n v) s (fun t => t = s)) ∧
    (∀ x, nearSess s p = some x → x.up = true → Answers (.nearIdleAck p) s (acks x) ∧
      (x.rxLimit ≠ x.rxLimitSent → Answers (.creditAckTimer p) s (acks x)) ∧ (x.rxLimit = x.rxLimitSent → Answers (.creditAckTimer p) s (fun t => t = s))) ∧
    (nearUp s p = false → Answers (.nearIdleAck p) s (fun t => t = s) ∧ Answers (.creditAckTimer p) s (fun t => t = s) ∧
      Answers (.memberDrained p) s (fun t => t = s)) ∧
    (∀ x, nearSess s p = some x → Answers (.sessionLost p) s (lost x) ∧ (x.up = true → Answers (.memberDrained p) s (lost x))) ∧
    (nearSess s p = none → Answers (.sessionLost p) s (fun t => t = s))

/-- R345, R352, R356, R309: a message of a host session that is next in order takes effect and is answered on its session; any other is ignored. A page
message outside the register window is answered WINDOW, one of a wrong count ACCESS; a read answers the registers, a write writes them. A bulk
message of a bad length or range is answered RANGE; a read answers the bytes, a write stores them and signals its tally. A merge of a member waits
for its target frame, is dropped when its attempt is over, and names an unmapped target with TALLY_ERROR. -/
def Obligations.MessagesReadWriteAndMerge : Prop :=
  ∀ (s : State) (m : SessHead) (addr : Word) (wide : Bool) (count : BitVec 8) (tag : W32) (x : HostSession), s.safe = true →
    let n := m.session.toNat
    let q := m.seq.toNat
    let a := addr.toNat
    let inTurn (x : HostSession) := (q = x.appNext ∨ seqBelow x.appNext q = true) ∧ seqBelow q x.rxNext = true
    let due := m.near = none ∧ hostSess s n = some x ∧ inTurn x ∧ x.unacked.length < 256
    let replied (t : State) (kind : Nat) (fs : List Nat) (bs : List Byte) :=
      t.outbox = s.outbox ++ [(.host n, x.txNext, { kind := kind, fields := fs, data := bs })] ∧
      (hostSess t n).map (fun y => y.appNext) = some ((q + 1) % 2 ^ 32) ∧ (hostSess t n).map (fun y => y.unacked.length) = some (x.unacked.length + 1)
    let alone (t : State) := t = { s with hostSessions := t.hostSessions, outbox := t.outbox, regs := t.regs }
    let only (t : State) := t = { s with hostSessions := t.hostSessions, answer := t.answer }
    let inWindow := pageBase ≤ a ∧ a < pageBase + pageWindow
    let limit := regAddr faultPage Reg.fltReplayLimit
    (m.near = none → (hostSess s n = none ∨ ∃ y, hostSess s n = some y ∧ ¬ inTurn y) →
      Answers (.pageRead m addr wide count tag) s (fun t => t = s) ∧ (∀ vs, Answers (.pageWrite m addr wide vs tag) s (fun t => t = s)) ∧
      (∀ l, Answers (.bulkRead m addr l tag) s (fun t => t = s)) ∧ (∀ bs vid bad, Answers (.bulkWrite m addr bs vid tag bad) s (fun t => t = s)) ∧
      (∀ o st bs l, Answers (.bulkData m tag o st bs l) s (fun t => t = s)) ∧ (∀ st, Answers (.bulkDone m tag st) s (fun t => t = s))) ∧
    (due → ¬ inWindow → Answers (.pageRead m addr wide count tag) s (fun t => alone t ∧ replied t 0x12 [tag.toNat, 2] []) ∧
      ∀ vs, Answers (.pageWrite m addr wide vs tag) s (fun t => alone t ∧ replied t 0x12 [tag.toNat, 2] [])) ∧
    (due → inWindow → (count = 0 ∨ 64 < count.toNat) → Answers (.pageRead m addr wide count tag) s (fun t => alone t ∧ replied t 0x12 [tag.toNat, 1] [])) ∧
    (∀ vs : List Word, due → inWindow → (vs = [] ∨ 64 < vs.length) →
      Answers (.pageWrite m addr wide vs tag) s (fun t => alone t ∧ replied t 0x12 [tag.toNat, 1] [])) ∧
    (due → a = limit → wide = false → count = 1 → Answers (.pageRead m addr wide count tag) s (fun t => alone t ∧
      replied t 0x12 [tag.toNat, 0] (bytesLE 4 (getReg s faultPage Reg.fltReplayLimit % 2 ^ 32)))) ∧
    (due → inWindow → pagePresent s ((a - pageBase) / 0x1000) = false → count = 1 → Answers (.pageRead m addr wide count tag) s (fun t => alone t ∧
      replied t 0x12 [tag.toNat, 1] (List.replicate (if wide then 8 else 4) 0) ∧ Flagged s t mgmtPage errOutOfMap)) ∧
    (∀ v : Word, due → a = limit → wide = false → Answers (.pageWrite m addr wide [v] tag) s (fun t => alone t ∧ replied t 0x12 [tag.toNat, 0] [] ∧
      getReg t faultPage Reg.fltReplayLimit = v.toNat % 256)) ∧
    (∀ (v : Word) page off d, due → accessAt s a wide = .reg page off d → d.acc = .rwx → (getFlags s page).unlocked = false → off ≠ Reg.pwrReset →
      Answers (.pageWrite m addr wide [v] tag) s (fun t => alone t ∧ replied t 0x12 [tag.toNat, 1] [] ∧ Flagged s t page errExpertDenied)) ∧
    (∀ l : W32, due → (l.toNat < 64 ∨ 2 ^ 24 < l.toNat ∨ l.toNat % 64 ≠ 0 ∨ bulkRangeOk s a l.toNat = false) →
      Answers (.bulkRead m addr l tag) s (fun t => alone t ∧ replied t 0x1A [tag.toNat, 0, 1] [])) ∧
    (∀ l : W32, due → 64 ≤ l.toNat → l.toNat % 64 = 0 → l.toNat ≤ Nat.max 64 (dataLimit s m.port m.half 12) → bulkRangeOk s a l.toNat = true →
      poisoned s a l.toNat = false → (deviceRangeOk a l.toNat = true → armedUnits s armsRead a l.toNat = []) → Answers (.bulkRead m addr l tag) s (fun t => alone t ∧
        replied t 0x1A [tag.toNat, 0, 0, 1] (memRead s.mem a l.toNat))) ∧
    (∀ bs vid bad, due → (bs.length < 64 ∨ 8192 < bs.length ∨ bs.length % 64 ≠ 0 ∨ bulkRangeOk s a bs.length = false) →
      Answers (.bulkWrite m addr bs vid tag bad) s (fun t => alone t ∧ replied t 0x1B [tag.toNat, 1] [])) ∧
    (∀ bs vid, due → 64 ≤ bs.length → bs.length ≤ 8192 → bs.length % 64 = 0 → bulkRangeOk s a bs.length = true →
      (deviceRangeOk a bs.length = true → (injectedWrite s a bs.length).1 = false) →
      (∀ v : BitVec 12, vid = some v → (getEntry s m.ctx v.toNat).kind = .local_) → Answers (.bulkWrite m addr bs vid tag []) s (fun t =>
        replied t 0x1B [tag.toNat, 0] [] ∧ MemWritten s t a bs ∧ t.hampers = s.hampers ∧
        ∀ v : BitVec 12, vid = some v → ∃ e ∈ t.tly.msgs, e.op = .signal ∧ e.phys = (getEntry s m.ctx v.toNat).target ∧ e.n = 1)) ∧
    (∀ o st bs l, due → Answers (.bulkData m tag o st bs l) s (fun t => only t ∧
      t.answer = bytesLE 4 tag.toNat ++ bytesLE 4 o.toNat ++ bytesLE 4 st.toNat ++ [BitVec.ofNat 8 (bit l)] ++ bs)) ∧
    (∀ st, due → Answers (.bulkDone m tag st) s (fun t => only t ∧ t.answer = bytesLE 4 tag.toNat ++ bytesLE 4 st.toNat)) ∧
    (∀ (h : MsgHead) (p : Fin 256) (dst tally : W32) (slots : List (BitVec 128)), h.sender = some p →
      let lh := dst.toNat / 2 ^ 16 % 64
      let old := p.val ∈ domainOthers s ∧ h.step = s.uc.step ∧ h.attempt.toNat < s.flt.attempt
      let known := nearUp s p = true ∧ (ctxMask s h.ctx).testBit lh = true
      (nearUp s p = false → Answers (.merge h dst tally slots) s (fun t => t = s)) ∧
      (nearUp s p = true → (ctxMask s h.ctx).testBit lh = false → Answers (.merge h dst tally slots) s (fun t => t.merges = s.merges ∧
        Flagged s t tallyPage 0)) ∧
      (known → old → Answers (.merge h dst tally slots) s (fun t => t = { s with regs := t.regs, nearSessions := t.nearSessions } ∧
        CountsOn s t faultPage Reg.fltStaleDrops 1)) ∧
      (known → ¬ old → lh < 48 → Answers (.merge h dst tally slots) s (fun t => ∃ y : MergeMsg,
        t = { s with merges := s.merges ++ [y], nearSessions := t.nearSessions } ∧ y.dstLh.val = lh ∧ y.dstFrame.val = dst.toNat % 4 % 3 ∧
        y.dstRow = dst.toNat / 2 ^ 8 % 2 ^ 7 ∧ y.ctx = h.ctx.val ∧ y.from_ = some p.val ∧
        y.tally = (if tally.toNat.testBit 15 then some (tally.toNat % 4096) else none) ∧
        ∀ k b, (k, b) ∈ y.slots ↔ k < 128 ∧ (slots[k]?).map (fun v => unpackSlot v.toNat) = some b ∧ b.occupied = true)))

namespace Sys2Proof.Machine

/-- A command record b waits in the ring, and no command runs: the command tally k holds a unit, and no rambler is drained (R370, R436). -/
def RecordWaits (s : State) (k : Nat) (b : List Byte) : Prop :=
  s.rmb.cmd = none ∧ rmbSlots s ≠ 0 ∧ pageOff s (ramblerPage 0) = false ∧ pageOff s (ramblerPage 1) = false ∧ commandTally s = some k ∧
  b = cmdBytes s (cmdAddr s)

/-- The record was taken: a unit of the command tally k is consumed and the ring goes on (R370). -/
def RecordTaken (s t : State) (k : Nat) : Prop :=
  getTally t k = { getTally s k with count := (getTally s k).count - 1 } ∧ t.rmb.slot = (s.rmb.slot + 1) % rmbSlots s

end Sys2Proof.Machine

/-- R370–R373, R389, R395, R397, R401: the record that waits in the ring is taken by the row of its operation. A malformed one, or one of another step,
fails with MALFORMED; a RESUME goes on with the stopped command; a COMPOSE or APPLY already done at its step is done at once. A COMPOSE writes its
body to the outbox, or fails with OUTBOX_FULL; an APPLY applies every complete round in order, or fails with CONFLICT; a JOIN asks for the
snapshot, installs it, and ends when every round before the member's first is applied. The end of a command writes STATUS and CURSOR and signals
its tally. -/
def Obligations.RamblerCommandsRunAndReport : Prop :=
  ∀ (s : State) (ck : RmbChecks) (k : Nat) (b : List Byte), s.safe = true →
    let c := cmdOf (cmdAddr s) (rmbCtx s) b
    let gs := xSegs s (rmbDesc s)
    let row := if c.op = 2 then Instr.apply ck else if c.op = 3 then .join ck else .compose ck
    let resume := fieldN b 1 1 % 2 = 1
    let sound := RecordWaits s k b ∧ cmdOk b = true ∧ c.step = s.uc.step.toNat
    let fresh := sound ∧ ¬ resume
    let ends (d : RmbCmd) (st re : Nat) (t : State) := RecordTaken s t k ∧ t.rmb.cmd = some { d with status := st, reason := re }
    let f := firstRound s (selfSite s)
    let quiet := ck.stop = none ∧ ck.retried = [] ∧ getReg s (ramblerPage 0) Reg.rmbInject = 0 ∧ getReg s (ramblerPage 1) Reg.rmbInject = 0 ∧ NoPoison s
    (RecordWaits s k b → (cmdOk b = false ∨ c.step ≠ s.uc.step.toNat) → Answers row s (fun t => ends c 3 1 t ∧ t.mem = s.mem ∧
      (getReg t leadPage Reg.pageErr).testBit 0 = true)) ∧
    (∀ q, sound → resume → s.rmb.paused = some q → q.op = c.op → q.step = c.step → Answers row s (fun t => RecordTaken s t k ∧
      t.rmb.cmd = some { q with addr := c.addr, tally := c.tally } ∧ t.rmb.paused = none ∧ t.mem = s.mem)) ∧
    ((s.rmb.cmd ≠ none ∨ rmbSlots s = 0 ∨ commandTally s = none) → Answers (.compose ck) s (fun t => t = s) ∧ Answers (.apply ck) s (fun t => t = s)) ∧
    (∀ r, fresh → c.op = 1 → s.rmb.latest = some (r, some c.step) → Answers row s (fun t => ends { c with round := some r } 1 0 t ∧ t.mem = s.mem)) ∧
    (let starts := fresh ∧ (∀ r, s.rmb.latest ≠ some (r, some c.step))
     let able := c.op = 1 ∧ composeLater s c.step = true ∧ xDescOk s (rmbDesc s) = true ∧ memberValid s (selfSite s) = true
     let r := nextRound s
     let steps := Nat.max 1 ((s.rmb.base.map (fun x => c.step - x)).getD 1)
     let body := (gs.zipIdx).flatMap (fun x => segBody x.1 x.2 (r % 2 ^ 32) (selfSite s) c.step steps (composeSeg s x.1).sent)
     (starts → c.op ≠ 2 → c.op ≠ 3 → ¬ able → Answers row s (fun t => ends c 3 1 t ∧ t.mem = s.mem)) ∧
     (starts → able → outboxPlace (pruneOutbox s) body.length = none → Answers row s (fun t => ends c 3 2 t ∧ t.mem = s.mem)) ∧
     (∀ off, starts → able → quiet → outboxPlace (pruneOutbox s) body.length = some off → deviceRangeOk off body.length = true →
       Answers row s (fun t => memRead t.mem off body.length = body ∧ ∃ d : Composed,
         ends { c with cursor := endCursor gs, round := some r, done := some d } 1 0 t ∧ d.round = r ∧ d.step = c.step ∧ d.steps = steps ∧ d.off = off ∧
         d.len = body.length ∧ d.hash = sha256 body))) ∧
    (∀ n, fresh → c.op = 2 → s.rmb.lastApply = some (c.step, n) → Answers row s (fun t => ends { c with rounds := n } 1 0 t ∧ t.mem = s.mem)) ∧
    (let starts := fresh ∧ c.op = 2 ∧ ∀ n, s.rmb.lastApply ≠ some (c.step, n)
     let rs := completeFrom s (roundBound s) (oldestRound s)
     let open_ := ∀ r ∈ s.rmb.conflicts, oldestRound s < r
     (starts → xDescOk s (rmbDesc s) = false → Answers row s (fun t => ends c 3 1 t ∧ t.mem = s.mem)) ∧
     (starts → xDescOk s (rmbDesc s) = true → rmbReplay s = false → ¬ open_ → Answers row s (fun t => ends c 3 8 t ∧ t.mem = s.mem)) ∧
     (starts → xDescOk s (rmbDesc s) = true → rmbReplay s = false → open_ → rs = [] → Answers row s (fun t => ends c 1 0 t ∧ t.mem = s.mem)) ∧
     (∀ x xs, starts → xDescOk s (rmbDesc s) = true → rmbReplay s = false → open_ → rs = x :: xs → quiet → Answers row s (fun t =>
       ends { c with rounds := rs.length, cursor := endCursor gs } 1 0 t ∧ t.rmb.applied = some (oldestRound s + xs.length)))) ∧
    (let round := fieldN b 0x20 4
     let able := xDescOk s (rmbDesc s) = true ∧ c.peer < 16 ∧ memberValid s c.peer = true ∧ c.peer ≠ selfSite s ∧ memberValid s (selfSite s) = true ∧ round = f
     (fresh → c.op = 3 → ¬ able → Answers row s (fun t => ends c 3 1 t ∧ t.mem = s.mem)) ∧
     (fresh → c.op = 3 → able → Answers row s (fun t => RecordTaken s t k ∧ t.mem = s.mem ∧ t.rmb.snap = none ∧
       t.rmb.cmd = some { c with phase := 1, round := some round }))) ∧
    (∀ d, s.rmb.cmd = some d → d.op = 3 → d.status = 0 → let a := oldestRound s
      (∀ y, d.phase = 1 → s.rmb.snap = some y → snapOk s (y.drop 8) (fieldN y 0 8) f = false → Answers (.join ck) s (fun t =>
        t.rmb.cmd = some { d with status := 3, reason := 5 } ∧ t.rmb.snap = none ∧ t.mem = s.mem)) ∧
      (∀ y, d.phase = 1 → s.rmb.snap = some y → snapOk s (y.drop 8) (fieldN y 0 8) f = true → Answers (.join ck) s (fun t =>
        t.rmb.cmd = some { d with phase := 2, from_ := fieldN y 0 8 } ∧ t.rmb.snap = none ∧ t.rmb.applied = some (fieldN y 0 8))) ∧
      (d.phase ≠ 1 → joinGone s = true → Answers (.join ck) s (fun t => t.rmb.cmd = some { d with status := 3, reason := 4 } ∧ t.mem = s.mem)) ∧
      (d.phase ≠ 1 → f ≤ a → Answers (.join ck) s (fun t => t.rmb.cmd = some { d with status := 1, reason := 0 } ∧ t.mem = s.mem ∧
        t.rmb.latest = some (f - 1, none) ∧ t.rmb.applied = some (f - 1) ∧ t.rmb.base = some d.step))) ∧
    ((s.rmb.cmd = none ∨ ∃ d, s.rmb.cmd = some d ∧ d.status = 0) → Answers .ramblerCommandDone s (fun t => t = s)) ∧
    (∀ d, s.rmb.cmd = some d → d.status ≠ 0 → deviceRangeOk d.addr 64 = true →
      let word := bytesLE 4 (d.status + 256 * (d.rounds % 256) + 65536 * d.reason) ++ bytesLE 8 d.cursor
      (∀ v, d.tally = some v → (getEntry s d.ctx v).kind = .local_) → Answers .ramblerCommandDone s (fun t => t.rmb.cmd = none ∧
        memRead t.mem (d.addr + 0x14) 12 = word ∧ (d.done = none → d.op ≠ 1 → MemWritten s t (d.addr + 0x14) word) ∧
        t.rmb.lastApply = (if d.op = 2 ∧ d.status = 1 then some (d.step, d.rounds) else s.rmb.lastApply) ∧
        (∀ r, d.op = 1 → d.status = 1 → d.round = some r → memRead t.mem (d.addr + 0x20) 4 = bytesLE 4 r) ∧
        (∀ e, d.done = some e → d.status = 1 → t.rmb.latest = some (e.round, some e.step) ∧ t.rmb.base = some e.step) ∧
        ∀ v, d.tally = some v → ∃ m ∈ t.tly.msgs, m.op = .signal ∧ m.phys = (getEntry s d.ctx v).target ∧ m.n = 1))

namespace Sys2Proof.Machine

/-- An encrypted message that is accepted (R388), from a peer that was reachable. -/
def FarGood (s : State) (m : FarHead) : Prop :=
  (getPeer s m.site).session = some m.session.toNat ∧ m.good = true ∧ reachable s m.site = true ∧
  ∃ k, (getPeer s m.site).keys.find? (fun k => k.epoch == m.epoch.toNat) = some k ∧ m.counter.toNat ∉ k.seen ∧ k.high ≤ m.counter.toNat + 4096

/-- An encrypted frame of a kind leaves for a peer on a route, with the next counter (R385). -/
def FarSent (s t : State) (j r kind : Nat) : Prop :=
  ∃ m : OutMsg, t.outbox = s.outbox ++ [(.far j r, s.rmb.count, m)] ∧ m.kind = kind ∧ t.rmb.count = s.rmb.count + 1

/-- The module may encrypt: it has a transmit key with counter values left (R387, R406). -/
def MayEncrypt (s : State) : Prop := s.rmb.key.isSome = true ∧ s.rmb.count < 2 ^ 28

end Sys2Proof.Machine

/-- R366, R367, R379–R384, R386, R388, R396–R398: an encrypted message whose key is not held, whose tag fails, whose counter is repeated or whose epoch is
erased is counted by its cause and ignored. A shard is stored until its message has k; a body that passes is archived, and one that fails is
counted. RECEIPT ends a message, NEED and the resend timer send new parity, or the message anew. REQUESTs are answered with the snapshot or the
archived bodies, HEARTBEAT takes the peer's rounds and its table, and a silent route goes down. -/
def Obligations.FarMessagesAndTimersTakeEffect : Prop :=
  ∀ (s : State) (m : FarHead) (sh : ShardMsg) (hb : HeartbeatMsg) (n : Word) (held first last : Nat), s.safe = true →
    let j := m.site.val
    let p := getPeer s j
    let page := ramblerPage (routePort s j m.route)
    let rows : List Instr := [.shard m sh, .receipt m n, .need m n held, .heartbeat m hb, .requestSnapshot m, .requestArchive m first last, .farClose m]
    let e := m.epoch.toNat
    let c := m.counter.toNat
    let counts (t : State) (pg off k : Nat) := getReg t pg off = satAdd (regWidth pg off) (getReg s pg off) k
    let rejected (off : Nat) (t : State) := t = { s with regs := t.regs } ∧ CountsOn s t page off 1
    let seen (t : State) := counts t page Reg.rmbShardsRx 1 ∧ (m.route.val, s.clockNs) ∈ (getPeer t j).routes
    let good := FarGood s m
    let r0 := (upRoutes s j).headD 0
    let out := outMsg s j n.toNat
    let inn := s.rmb.ins.find? (fun y => y.site == j && y.msg == sh.msg)
    let shardOk := sh.k.val ≠ 0 ∧ (sh.index.val < 32 → sh.index.val < sh.k.val)
    let whole := rsDecode 1 [(sh.index.val, sh.data)] |>.take (sh.total - sh.off)
    let sentBody (stream origin round : Nat) (bs : List Byte) (t : State) := ∃ o : FarMsg, t.rmb.out = s.rmb.out ++ [o] ∧ o.site = j ∧ o.msg = s.rmb.nextMsg ∧
      o.stream = stream ∧ o.origin = origin ∧ o.round = round ∧ o.off = 0 ∧ o.total = bs.length ∧ o.data = bs ∧ seen t ∧ t.mem = s.mem
    (p.session ≠ some m.session.toNat → ∀ i ∈ rows, Answers i s (rejected Reg.rmbKeyUnknown)) ∧
    (p.session = some m.session.toNat → (∀ k ∈ p.keys, k.epoch < e) → ∀ i ∈ rows, Answers i s (rejected Reg.rmbKeyUnknown)) ∧
    (p.session = some m.session.toNat → (∀ k ∈ p.keys, k.epoch ≠ e) → (∃ k ∈ p.keys, e < k.epoch) → ∀ i ∈ rows, Answers i s (rejected Reg.rmbStaleEpoch)) ∧
    (∀ k, p.session = some m.session.toNat → p.keys.find? (fun k => k.epoch == e) = some k →
      (m.good = false → ∀ i ∈ rows, Answers i s (fun t => t = { s with regs := t.regs } ∧ counts t page Reg.rmbAuthFails 1 ∧ Flagged s t page 3)) ∧
      (m.good = true → (c ∈ k.seen ∨ c + 4096 < k.high) → ∀ i ∈ rows, Answers i s (rejected Reg.rmbReplayed))) ∧
    (good → shardOk → inn = none → 1 < sh.k.val → shardInWindow s sh = true → Answers (.shard m sh) s (fun t => seen t ∧ t.mem = s.mem ∧ t.rmb.arrived = s.rmb.arrived ∧
      ∃ y, t.rmb.ins.find? (fun y => y.site == j && y.msg == sh.msg) = some y ∧ y.shards = [(sh.index.val, sh.data)] ∧ y.k = sh.k.val ∧ y.decoded = false)) ∧
    (good → shardOk → inn = none → shardInWindow s sh = false → Answers (.shard m sh) s (fun t => seen t ∧ t.rmb.ins = s.rmb.ins ∧ t.outbox = s.outbox)) ∧
    (∀ y, good → shardOk → inn = some y → y.k = sh.k.val → y.decoded = true → MayEncrypt s → Answers (.shard m sh) s (fun t =>
      seen t ∧ t.rmb.ins = s.rmb.ins ∧ FarSent s t j m.route 0x55)) ∧
    (let single := good ∧ shardOk ∧ inn = none ∧ sh.k.val = 1 ∧ shardInWindow s sh = true ∧ sh.stream.val = 0 ∧ sh.off = 0 ∧ whole.length = sh.total ∧
       s.rmb.bodies.find? (fun b => b.site == j && b.stream == 0 && b.origin == sh.origin.val && b.round == sh.round && b.total == sh.total) = none
     let o := sh.origin.val
     let at_ := archivePlace s sh.round o
     (single → sh.bodyGood = true → findArrived s sh.round o = none → archiveTakes s sh.round = true → whole.length ≤ at_.2 →
       deviceRangeOk at_.1 whole.length = true → Answers (.shard m sh) s (fun t => seen t ∧ MemWritten s t at_.1 whole ∧
         findArrived t sh.round o = some { round := sh.round, site := o, addr := at_.1, len := whole.length, hash := sha256 whole })) ∧
     (∀ b, single → sh.bodyGood = true → findArrived s sh.round o = some b → b.hash ≠ sha256 whole → Answers (.shard m sh) s (fun t => seen t ∧ t.mem = s.mem ∧
       t.rmb.arrived = s.rmb.arrived ∧ sh.round ∈ t.rmb.conflicts ∧ (getReg t leadPage Reg.pageErr).testBit 6 = true)) ∧
     (single → sh.bodyGood = false → Answers (.shard m sh) s (fun t => t.rmb.arrived = s.rmb.arrived ∧ t.mem = s.mem ∧
       counts t leadPage Reg.rmbResidueFails 1))) ∧
    (good → Answers (.receipt m n) s (fun t => seen t ∧ t.mem = s.mem ∧ t.rmb.out = s.rmb.out.filter (fun o => !(o.site == j && o.msg == n.toNat)))) ∧
    (good → out = none → Answers (.need m n held) s (fun t => seen t ∧ t.rmb.out = s.rmb.out ∧ t.outbox = s.outbox)) ∧
    (∀ o, good → out = some o → let k := Nat.min (o.k - held + 1) (16 - o.parity)
      (o.parity < 16 → Answers (.need m n held) s (fun t => seen t ∧ t.mem = s.mem ∧ outMsg t j n.toNat = some { o with parity := o.parity + k } ∧
        counts t leadPage Reg.rmbParitySent k)) ∧
      (16 ≤ o.parity → Answers (.need m n held) s (fun t => seen t ∧ t.mem = s.mem ∧ counts t leadPage Reg.rmbReissues 1 ∧
        t.rmb.nextMsg = (s.rmb.nextMsg + 1) % 2 ^ 32 ∧ { o with msg := s.rmb.nextMsg, parity := parity0 s } ∈ t.rmb.out))) ∧
    (∀ o, out = some o → canSend s j = true → let k := Nat.min 2 (16 - o.parity)
      o.parity < 16 → Answers (.resendTimer m.site n) s (fun t => t.mem = s.mem ∧ outMsg t j n.toNat = some { o with parity := o.parity + k } ∧
        counts t leadPage Reg.rmbParitySent k)) ∧
    ((out = none ∨ canSend s j = false) → Answers (.resendTimer m.site n) s (fun t => t = s)) ∧
    (good → hb.table.toNat = tableCrc s → Answers (.heartbeat m hb) s (fun t => seen t ∧ (getPeer t j).tableOk = true ∧ (getPeer t j).composed = hb.composed ∧
      (getPeer t j).complete = hb.complete ∧ (getPeer t j).applied = hb.applied ∧ t.mem = s.mem)) ∧
    (good → hb.table.toNat ≠ tableCrc s → Answers (.heartbeat m hb) s (fun t => seen t ∧ (getPeer t j).tableOk = false ∧ Flagged s t leadPage 6 ∧
      reachable t j = false ∧ t.mem = s.mem)) ∧
    (good → getReg s leadPage Reg.rmbSnapAddr = 0 → Answers (.requestSnapshot m) s (fun t => seen t ∧ t.rmb.out = s.rmb.out ∧ t.outbox = s.outbox)) ∧
    (good → getReg s leadPage Reg.rmbSnapAddr ≠ 0 → (servedSnapshot s).length ≤ 32 * shardLen s →
      Answers (.requestSnapshot m) s (sentBody 1 (selfSite s) 0 (servedSnapshot s))) ∧
    (let bs := s.rmb.arrived.filter (fun b => b.round == first)
     (∀ b, good → last = first → bs = [b] → b.len ≤ 32 * shardLen s → Answers (.requestArchive m first last) s
       (sentBody 2 b.site first (memRead s.mem b.addr b.len))) ∧
     (good → last = first → bs = [] → first < oldestRound s → Answers (.requestArchive m first last) s (sentBody 2 (selfSite s) first [])) ∧
     (good → last = first → bs = [] → oldestRound s ≤ first → Answers (.requestArchive m first last) s (fun t => seen t ∧ t.rmb.out = s.rmb.out))) ∧
    (∀ x : InMsg, s.rmb.ins.find? (fun y => y.site == j && y.msg == n.toNat) = some x → x.decoded = false → x.shards ≠ [] → upRoutes s j ≠ [] →
      p.session.isSome = true → MayEncrypt s → Answers (.needTimer m.site n) s (fun t => FarSent s t j r0 0x56 ∧ t.rmb.ins = s.rmb.ins)) ∧
    ((∀ x : InMsg, s.rmb.ins.find? (fun y => y.site == j && y.msg == n.toNat) = some x → x.decoded = true ∨ x.shards = []) →
      Answers (.needTimer m.site n) s (fun t => t = s)) ∧
    (sessionPeers s = [] → Answers .heartbeatTimer s (fun t => t = s)) ∧
    (∀ r, sessionPeers s = [j] → validRoutes s j = [r] → MayEncrypt s → Answers .heartbeatTimer s (fun t => FarSent s t j r 0x57 ∧ t.rmb.peers = s.rmb.peers)) ∧
    (let wait := 3 * Nat.max 1 (getReg s leadPage Reg.rmbTimers % 256) * 1000000
     (∀ a, p.routes.find? (fun x => x.1 == m.route.val) = some (m.route.val, a) →
       (a + wait ≤ s.clockNs → Answers (.routeTimeout m.site m.route) s (fun t => t = { s with rmb := { s.rmb with peers := t.rmb.peers } } ∧
         getPeer t j = { p with routes := p.routes.filter (fun x => x.1 != m.route.val) } ∧ ∀ k, k ≠ j → getPeer t k = getPeer s k)) ∧
       (s.clockNs < a + wait → Answers (.routeTimeout m.site m.route) s (fun t => t = s))))

/-- R384, R387, R388, R416–R420: a FAR_HELLO that passes its checks is answered, and one that fails is counted; a FAR_HELLO_ACK establishes the session; a
KEY is held and acknowledged, or discarded with KEY_TRANSPORT; a KEY_ACK is recorded under its epoch; FAR_CLOSE ends the session and erases its keys.
The next epoch's key is drawn at the threshold, an epoch that ends gives way to the next, an unacknowledged key is sent again, and older keys are
erased 120 s after a newer epoch was accepted. -/
def Obligations.FarSessionsAndKeysTakeEffect : Prop :=
  ∀ (s : State) (m : FarHead) (b : List Byte) (die : Fin 2) (ep v : W32), s.safe = true →
    let j := m.site.val
    let p := getPeer s j
    let n := m.session.toNat
    let self := selfSite s
    let page := ramblerPage (routePort s j m.route)
    let f (off k : Nat) := natOfBE ((b.drop off).take k)
    let group := f 8 8
    let chain := b.drop 0x1D0
    let na := (b.drop 0x10).take 32
    let timeOk (nb na : Nat) := timeChecked s = false ∨ (nb ≤ s.sc.count + 60000000000 ∧ s.sc.count ≤ na + 60000000000)
    let checked (key : List Byte) := (∃ nb na, Config.chainSays chain = some (key, group, j, nb, na) ∧ timeOk nb na) ∧ pathOk s chain = true ∧
      ownGroup s = some group ∧ f 0 1 = j ∧ f 1 1 = self ∧ memberValid s j = true ∧ f 2 2 = chain.length
    let failed (t : State) := t = { s with regs := t.regs } ∧ Flagged s t securePage 2 ∧
      getReg t securePage Reg.secHandshakeFails = satAdd (regWidth securePage Reg.secHandshakeFails) (getReg s securePage Reg.secHandshakeFails) 1
    let framed (t : State) (k r kind : Nat) := ∃ o : OutMsg, t.outbox = s.outbox ++ [(.far k r, 0, o)] ∧ o.kind = kind
    let calm := ¬ (p.hellos.1 = clockSec s ∧ 4 ≤ p.hellos.2)
    ((s.sec.entropyOk = false ∨ ¬ calm) → Answers (.farHello m b) s (fun t => t = s)) ∧
    (s.sec.entropyOk = true → calm → Answers (.farHello m b) s (fun t => ((∀ k, ¬ checked k) → failed t) ∧
      ∀ k, checked k → framed t j m.route 0x51 ∧ (getPeer t j).hellos = (clockSec s, if p.hellos.1 = clockSec s then p.hellos.2 + 1 else 1) ∧
        ∃ nb, (getPeer t j).pending = some { session := n, hash := transcript n j self group na nb chain s.sec.chain, peerKey := k, initiator := false })) ∧
    (p.hello = none → Answers (.farHelloAck m b) s failed) ∧
    (∀ num ra, p.hello = some (num, ra) → Answers (.farHelloAck m b) s (fun t =>
      let tr := transcript num self j group ra na s.sec.chain chain
      let ok (k : List Byte) := checked k ∧ num = n ∧ (b.drop 0x30).take 32 = ra ∧ Config.verify k tr ((b.drop 0x50).take 384) = true
      ((∀ k, ¬ ok k) → failed t) ∧
      ∀ k, ok k → getPeer t j = { p with session := some num, trans := some { session := num, hash := tr, peerKey := k, initiator := true }, pending := none
                                         hello := none, keys := [], newer := none, acked := [], ackSeen := [] } ∧ (s.sec.entropyOk = true → t.rmb.key.isSome = true))) ∧
    (let due := (farPeers s).filter (fun k => decide (self < k) && (getPeer s k).session.isNone)
     ((s.sec.entropyOk = false ∨ due = []) → Answers .farHelloTimer s (fun t => t = s)) ∧
     (s.sec.entropyOk = true → due = [j] → validRoutes s j ≠ [] → Answers .farHelloTimer s (fun t => (ownGroup s = none → t = s) ∧
       (ownGroup s ≠ none → (getPeer t j).hello.isSome = true ∧ ∃ r ∈ validRoutes s j, framed t j r 0x50)))) ∧
    (let e := natOfBE (b.take 4)
     let opens := p.pending.any (fun x => x.session == n) = true ∧ e = 0
     let top := (p.keys.map (·.epoch)).foldl Nat.max 0
     let held (t : State) (k : List Byte) := (getPeer t j).session = some n ∧ ∃ x, (getPeer t j).keys.find? (fun x => x.epoch == e) = some x ∧ x.key = k ∧ x.wrapped = b ∧ x.high = 0
     (∀ tr, p.pending = some tr → tr.session = n → e = 0 → Answers (.key m b) s (fun t =>
       (openKey s tr b = none → ErrorOnly s t leadPage 9) ∧ ∀ k, openKey s tr b = some k → held t k ∧ (getPeer t j).pending = none ∧ (getPeer t j).trans = some tr)) ∧
     (¬ opens → p.session ≠ some n → Answers (.key m b) s (fun t => t = s)) ∧
     (∀ x, ¬ opens → p.session = some n → p.keys.find? (fun x => x.epoch == e) = some x →
       (x.wrapped = b → Answers (.key m b) s (fun t => FarSent s t j m.route 0x53)) ∧ (x.wrapped ≠ b → Answers (.key m b) s (fun t => ErrorOnly s t leadPage 9))) ∧
     (∀ tr, ¬ opens → p.session = some n → p.trans = some tr → p.keys.find? (fun x => x.epoch == e) = none → e = (if p.keys = [] then 0 else top + 1) →
       Answers (.key m b) s (fun t => (openKey s tr b = none → ErrorOnly s t leadPage 9) ∧ ∀ k, openKey s tr b = some k → held t k ∧ FarSent s t j m.route 0x53)) ∧
     (¬ opens → p.session = some n → p.keys.find? (fun x => x.epoch == e) = none → e ≠ (if p.keys = [] then 0 else top + 1) → Answers (.key m b) s (fun t => t = s))) ∧
    (let e := ep.toNat
     let own := (s.rmb.key.isSome = true ∧ e = s.rmb.epoch) ∨ (s.rmb.nextKey.isSome = true ∧ e = s.rmb.epoch + 1)
     let c := m.counter.toNat
     let repeated := (e, c) ∈ p.ackSeen ∨ ∃ x ∈ p.ackSeen, x.1 = e ∧ c + 4096 < x.2
     ((p.session ≠ some n ∨ ¬ own) → Answers (.keyAck m ep) s (fun t => t = { s with regs := t.regs } ∧ CountsOn s t page Reg.rmbKeyUnknown 1)) ∧
     (p.session = some n → own → m.good = false → Answers (.keyAck m ep) s (fun t => t = { s with regs := t.regs } ∧ Flagged s t page 3 ∧
       getReg t page Reg.rmbAuthFails = satAdd (regWidth page Reg.rmbAuthFails) (getReg s page Reg.rmbAuthFails) 1)) ∧
     (p.session = some n → own → m.good = true → repeated → Answers (.keyAck m ep) s (fun t => t = { s with regs := t.regs } ∧
       CountsOn s t page Reg.rmbReplayed 1)) ∧
     (p.session = some n → own → m.good = true → ¬ repeated → Answers (.keyAck m ep) s (fun t => e ∈ (getPeer t j).acked ∧
       (m.route.val, s.clockNs) ∈ (getPeer t j).routes ∧ t.mem = s.mem ∧ (getPeer t j).session = some n))) ∧
    (FarGood s m → Answers (.farClose m) s (fun t => (getPeer t j).session = none ∧ (getPeer t j).keys = [] ∧ (getPeer t j).trans = none ∧ t.mem = s.mem)) ∧
    (let due := epochReached s (2 ^ 28 - 2 ^ 24) 3540 = true ∧ s.rmb.nextKey = none ∧ s.sec.entropyOk = true
     (due → Answers .rekeyThreshold s (fun t => (∃ k, t.rmb.nextKey = some k ∧ k.length = 32) ∧ t.rmb.key = s.rmb.key ∧ t.rmb.epoch = s.rmb.epoch ∧
       t.rmb.count = s.rmb.count)) ∧
     (¬ due → Answers .rekeyThreshold s (fun t => t = s))) ∧
    (epochReached s (2 ^ 28) 3600 = true → Answers .epochEnd s (fun t => t = { s with rmb := { s.rmb with
      epoch := (s.rmb.epoch + 1) % 2 ^ 32, count := 0, key := s.rmb.nextKey, nextKey := none, epochNs := none } })) ∧
    (epochReached s (2 ^ 28) 3600 = false → Answers .epochEnd s (fun t => t = s)) ∧
    (sessionPeers s = [] → Answers .keyRepeat s (fun t => t = s)) ∧
    (sessionPeers s = [j] → s.rmb.key.isSome = true → s.rmb.nextKey = none →
      (s.rmb.epoch ∈ p.acked → Answers .keyRepeat s (fun t => t = s)) ∧
      (s.rmb.epoch ∉ p.acked → p.trans.isSome = true → validRoutes s j ≠ [] → Answers .keyRepeat s (fun t => ∃ r ∈ validRoutes s j, framed t j r 0x52))) ∧
    (∀ a, p.newer = some a → a + 120000000000 ≤ s.clockNs → Answers (.keyErase m.site) s (fun t => t = { s with rmb := { s.rmb with peers := t.rmb.peers } } ∧
      getPeer t j = { p with keys := p.keys.filter (fun k => k.epoch == (p.keys.map (·.epoch)).foldl Nat.max 0), newer := none } ∧
      ∀ k, k ≠ j → getPeer t k = getPeer s k)) ∧
    ((∀ a, p.newer = some a → s.clockNs < a + 120000000000) → Answers (.keyErase m.site) s (fun t => t = s)) ∧
    ((getFlags s (ramblerPage die)).unlocked = false → Answers (.rmbRekey die v) s (fun t => ErrorOnly s t (ramblerPage die) errExpertDenied)) ∧
    ((getFlags s (ramblerPage die)).unlocked = true → (v.getLsbD 0 = false ∨ die ≠ 0) → Answers (.rmbRekey die v) s (fun t => t = s)) ∧
    ((getFlags s (ramblerPage die)).unlocked = true → v.getLsbD 0 = true → die = 0 → Answers (.rmbRekey die v) s (fun t =>
      t.rmb.epoch = (s.rmb.epoch + 1) % 2 ^ 32 ∧ t.rmb.count = 0 ∧ t.rmb.nextKey = none ∧ (∀ k, s.rmb.nextKey = some k → t.rmb.key = some k) ∧
      (s.sec.entropyOk = true → t.rmb.key.isSome = true) ∧ t.mem = s.mem))

/-- R406, R408–R412, R414, R416, R417, R422, R423: a report or a firmware stage begins, or is refused with BUSY; at its end the report stands at
SEC_REPORT_ADDR and a verified image in the slot that does not run, or the status shows the code of the first check that fails. SVN commits and key
revocations act on the fuses in expert level; chains and anchors are installed and erased while no far session exists. A failed health test stops
the entropy source until it passes again. -/
def Obligations.SecureCommandsTakeEffect : Prop :=
  ∀ (s : State) (cert ok : Bool) (v : W32) (slot : Fin 4), s.safe = true →
    let x := s.sec
    let a := getReg s securePage Reg.secStageAddr
    let n := getReg s securePage Reg.secStageLen
    let unlocked := (getFlags s securePage).unlocked = true
    let done (y : Secure) (t : State) := t = { s with sec := { y with state := 2, code := 0 }, flash := t.flash }
    let refused (y : Secure) (c : Nat) (t : State) := t = { s with sec := { y with state := 3, code := c }, regs := t.regs, flash := t.flash } ∧
      (getReg t securePage Reg.pageErr).testBit 0 = true
    let denied (t : State) := ErrorOnly s t securePage errExpertDenied
    let far := farSessionExists s = true
    let wrote (t : State) := t.flash = { s.flash with writes := s.flash.writes + 1 }
    (x.op = none → Answers (.report cert) s (fun t => t = { s with sec := { x with op := some (.report cert), state := 1, code := 0 } }) ∧
      Answers .fwStage s (fun t => t = { s with sec := { x with op := some .fwStage, state := 1, code := 0 } })) ∧
    (x.op ≠ none → Answers (.report cert) s (refused x 1) ∧ Answers .fwStage s (refused x 1)) ∧
    (x.op = none → Answers (.secureCommandDone ok) s (fun t => t = s)) ∧
    (x.op = some (.report cert) → let addr := getReg s securePage Reg.secReportAddr
      let bs := reportBytes s cert
      (x.entropyOk = false → Answers (.secureCommandDone ok) s (fun t => t = s)) ∧
      (x.entropyOk = true → Answers (.secureCommandDone ok) s (fun t =>
        (addr % 4096 = 0 ∧ lpRangeOk addr bs.length = true → MemWritten s t addr bs ∧ t.sec = { x with op := none, outLen := bs.length, state := 2, code := 0 }) ∧
        (¬ (addr % 4096 = 0 ∧ lpRangeOk addr bs.length = true) → refused { x with op := none } 9 t)))) ∧
    (x.op = some .fwStage → let y : Secure := { x with op := none }
      let other := 1 - x.boot
      (deviceRangeOk a n = false → Answers (.secureCommandDone ok) s (refused y 9)) ∧
      (deviceRangeOk a n = true → n < 0x400 → Answers (.secureCommandDone ok) s (refused y 2)) ∧
      (deviceRangeOk a n = true → x.boot < 2 → Answers (.secureCommandDone ok) s (fun t =>
        (∀ c, fwVerify y (memRead s.mem a n) = .error c → refused y c t) ∧
        ∀ fw, fwVerify y (memRead s.mem a n) = .ok fw → wrote t ∧ t.mem = s.mem ∧
          (ok = false → t.sec.slots[other]? = some none ∧ t.sec.code = 10) ∧
          (ok = true → t.sec.state = 2 ∧ t.sec.code = 0 ∧ ∃ o, t.sec.slots[other]? = some (some { fw with order := o }) ∧
            ∀ k : Fin 2, k.val ≠ other → t.sec.slots[k] = x.slots[k])))) ∧
    (¬ unlocked → Answers (.secSvnCommit v ok) s denied ∧ Answers (.secKeyRevoke v ok) s denied ∧ Answers .sitecertInstall s denied ∧
      Answers .sitecertErase s denied ∧ Answers (.anchorInstall slot) s denied ∧ Answers (.anchorErase slot) s denied) ∧
    (unlocked → let same := v.toNat % 256 = x.running.svn
      (¬ same → Answers (.secSvnCommit v ok) s (refused x 4)) ∧
      (same → ok = true → Answers (.secSvnCommit v ok) s (done { x with svnFuses := Nat.max x.svnFuses x.running.svn })) ∧
      (same → ok = false → Answers (.secSvnCommit v ok) s (fun t => refused x 11 t ∧ (getReg t securePage Reg.pageErr).testBit 3 = true))) ∧
    (unlocked → let k := v.toNat % 4
      let held := k = x.running.keySlot ∨ x.programmed.filter (fun i => !x.revoked.contains i) = [k]
      (v.getLsbD 8 = false → Answers (.secKeyRevoke v ok) s (fun t => t = s)) ∧
      (v.getLsbD 8 = true → held → Answers (.secKeyRevoke v ok) s (refused x 5)) ∧
      (v.getLsbD 8 = true → ¬ held → ok = true → Answers (.secKeyRevoke v ok) s (fun t => (∃ r, done { x with revoked := r } t) ∧
        ∀ i, i ∈ t.sec.revoked ↔ i ∈ x.revoked ∨ i = k)) ∧
      (v.getLsbD 8 = true → ¬ held → ok = false → Answers (.secKeyRevoke v ok) s (refused x 11))) ∧
    (unlocked → far → Answers .sitecertInstall s (refused x 1) ∧ Answers .sitecertErase s (refused x 1) ∧ Answers (.anchorInstall slot) s (refused x 1) ∧
      Answers (.anchorErase slot) s (refused x 1)) ∧
    (unlocked → ¬ far → deviceRangeOk a n = false → Answers .sitecertInstall s (refused x 9) ∧ Answers (.anchorInstall slot) s (refused x 9)) ∧
    (unlocked → ¬ far → deviceRangeOk a n = true → (n = 0 ∨ 4096 < n) → Answers .sitecertInstall s (refused x 2)) ∧
    (unlocked → ¬ far → deviceRangeOk a n = true → 1 ≤ n → n ≤ 4096 → Answers .sitecertInstall s (fun t =>
      let chain := memRead s.mem a n
      let attests (key : List Byte) (site nb na : Nat) := ∃ g, Config.chainSays chain = some (key, g, site, nb, na)
      let timely (nb na : Nat) := timeChecked s = false ∨ (nb ≤ s.sc.count + 60000000000 ∧ s.sc.count ≤ na + 60000000000)
      (Config.chainSays chain = none → refused x 6 t) ∧
      (∀ key site nb na, attests key site nb na →
        (key ≠ ownModulus s → refused x 7 t) ∧
        (key = ownModulus s → (site ≠ selfSite s ∨ pathOk s chain = false) → refused x 6 t) ∧
        (key = ownModulus s → site = selfSite s → pathOk s chain = true → ¬ timely nb na → refused x 8 t) ∧
        (key = ownModulus s → site = selfSite s → pathOk s chain = true → timely nb na → t.sec = { x with chain := chain, state := 2, code := 0 } ∧ wrote t)))) ∧
    (unlocked → ¬ far → Answers .sitecertErase s (fun t => done { x with chain := [] } t ∧ wrote t)) ∧
    (unlocked → ¬ far → deviceRangeOk a n = true → n ≠ 384 → Answers (.anchorInstall slot) s (refused x 2)) ∧
    (unlocked → ¬ far → deviceRangeOk a n = true → n = 384 → Answers (.anchorInstall slot) s (fun t => wrote t ∧
      done { x with anchors := (slot.val, memRead s.mem a n) :: x.anchors.filter (fun y => y.1 != slot.val) } t)) ∧
    (unlocked → ¬ far → Answers (.anchorErase slot) s (fun t => wrote t ∧ done { x with anchors := x.anchors.filter (fun y => y.1 != slot.val) } t)) ∧
    Answers .entropy s (fun t => t = { s with sec := { x with entropyOk := false }, regs := t.regs } ∧ Flagged s t securePage 1 ∧
      getReg t securePage Reg.secEntropyFails = satAdd (regWidth securePage Reg.secEntropyFails) (getReg s securePage Reg.secEntropyFails) 1) ∧
    Answers .entropyOk s (fun t => t = { s with sec := { x with entropyOk := true } })
namespace Sys2Proof.Machine

/-- A start from cold: nothing of a run is left, and what the part, its fuses and its flash hold is kept (R444). -/
def Cold (s t : State) : Prop :=
  t.part = s.part ∧ t.mem = [] ∧ t.ctxs = Vector.replicate 16 .empty ∧ t.hostSessions = [] ∧ t.nearSessions = [] ∧ t.events = [] ∧
  t.dies = Vector.replicate 4 0 ∧ t.sc.count = 0 ∧ t.dmas = [] ∧ t.merges = [] ∧ t.flash.rows = s.flash.rows ∧ t.flash.lanes = s.flash.lanes ∧
  t.flash.faults = s.flash.faults ∧ t.flash.regs = s.flash.regs ∧ t.sec.chain = s.sec.chain ∧ t.sec.slots = s.sec.slots ∧
  t.sec.svnFuses = s.sec.svnFuses

/-- The retirement records of the flash are in force: lanes, spare rows and pseudo-channels (R267, R339). -/
def RecordsInForce (s t : State) : Prop :=
  (∀ p : Fin 10, (getPort t p).retired = (s.flash.lanes.filter (fun x => x.1 == p.val)).map (·.2)) ∧
  (∀ c : Fin 16, (getCtl t (true, c.val)).spares = (s.flash.rows.filter (fun x => x.1 == c.val)).map (·.2) ∧
    (getCtl t (true, c.val)).pcs = (s.flash.pcs.filter (fun x => x.1 == c.val)).map (·.2))

/-- The boot ROM's outcome: the chosen image runs, or BOOT_FAIL stands at step 4 (R409). -/
def Booted (s t : State) (kind : Nat) (slotOk : Bool) : Prop :=
  match (if slotOk then bootChoice s.sec else none) with
  | none => t.power.phase = .bootFail ∧ t.power.bootStep = 4
  | some (i, f) => t.power.phase = .starting kind false ∧ t.sec.boot = i ∧ t.sec.running = f

end Sys2Proof.Machine

/-- R439–R447, R453, R455, R481: power-on and module reset start the module anew with the flash's records in force, memory at its reset reading
(log entry 4); a rail that misses its power-good or an image that does not verify stops the start. READY ends a start or a warm reset and is
emitted with its KIND. A warm reset stops contexts, the sweep and the rambler's command, and keeps memory, sessions and the beats. A power loss and
a thermal trip turn the rails off; after a fault or a trip the release of MRST_N starts again and clears the latch. -/
def Obligations.StartsAndResetsFollowTheirSteps : Prop :=
  ∀ (s : State) (o : StartOutcome) (up : BitVec 10), s.safe = true →
    let p := s.power
    (p.phase ≠ .off → Answers (.powerOn o) s (fun t => t = s)) ∧
    (∀ g, p.phase = .off → o.railFail = some g → Answers (.powerOn o) s (fun t => Cold s t ∧ t.power.phase = .powerFault g.val ∧
      t.power.faultGroup = g.val + 1 ∧ t.power.bootStep = 2)) ∧
    (p.phase = .off → o.railFail = none → o.badPcs = [] → o.badUnits = [] → Answers (.powerOn o) s (fun t =>
      Cold s t ∧ RecordsInForce s t ∧ Booted s t 0 o.slotOk ∧ t.flt.replace = s.flash.flag.isSome)) ∧
    (∀ c q k, p.phase = .off → o.railFail = none → o.slotOk = true → bootChoice s.sec ≠ none → o.badPcs = [(c, q)] → o.badUnits = [] →
      (∀ x ∈ s.flash.pcs, x.1 ≠ c.val ∨ x.2.1 ≠ q.val) → k < 8 → (∀ x ∈ s.flash.pcs, x.2.2 ≠ k) → (∀ j, j < k → ∃ x ∈ s.flash.pcs, x.1 < 16 ∧ x.2.2 = j) →
      Answers (.powerOn o) s (fun t => Booted s t 0 true ∧ t.flash.pcs = s.flash.pcs ++ [(c.val, q.val, k)] ∧
        (getCtl t (true, c.val)).pcs = (s.flash.pcs.filter (fun x => x.1 == c.val)).map (·.2) ++ [(q.val, k)])) ∧
    (∀ u : BitVec 16, p.phase = .off → o.railFail = none → o.slotOk = true → bootChoice s.sec ≠ none → o.badPcs = [] → o.badUnits = [u] → u.toNat < 48 →
      Answers (.powerOn o) s (fun t => Booted s t 0 true ∧ t.flt.replace = true ∧ t.flash.flag = some (u.toNat, 1) ∧
        ∀ b, b < 9 → (getFlags t (0x100 + 0x10 * u.toNat + b)).off = true ∧ (getFlags t (0x100 + 0x10 * u.toNat + b)).fault = true)) ∧
    (railsUp s = true → Answers .moduleReset s (fun t => Cold s t ∧ RecordsInForce s t ∧ t.flash = s.flash ∧ t.power.phase = .starting 1 true)) ∧
    (railsUp s = false → Answers .moduleReset s (fun t => t = s)) ∧
    (∀ k, p.phase = .starting k true → Answers .mrstNRelease s (fun t => t = { s with sec := t.sec, power := t.power } ∧ Booted s t k true)) ∧
    (((∃ g, p.phase = .powerFault g) ∨ p.phase = .tripped) → Answers .mrstNRelease s (fun t => Cold s t ∧ RecordsInForce s t ∧ Booted s t 0 true ∧
      latched t = decide (bootChoice s.sec = none))) ∧
    ((latched s = false ∨ p.phase = .bootFail) → (∀ k, p.phase ≠ .starting k true) → Answers .mrstNRelease s (fun t => t = s)) ∧
    (∀ k, p.phase = .starting k false → MayEmit s evReady mgmtPage → Answers (.ready up) s (fun t => t.power.phase = .running ∧ t.power.bootKind = k ∧
      t.power.readySent = true ∧ t.power.tripBefore = s.flash.trip ∧ t.flash = { s.flash with trip := false } ∧ t.mem = s.mem ∧ t.ctxs = s.ctxs ∧ Emitted s t evReady mgmtPage ∧
      ∀ q : Fin 10, ∀ h : Fin 2, linkOf t q h = if up.getLsbD q.val && linkOf s q h == .training && linkTrains s q h then .up else linkOf s q h)) ∧
    (p.phase = .warm → warmQuiet s = true → Answers (.ready up) s (fun t => t.power.phase = .running ∧ t.power.readySent = true ∧ t.power.mv = p.mv ∧
      t.mem = s.mem ∧ (∀ g, (getFlags t g).unlocked = false) ∧ (∀ lh : Fin 48, (getH t lh).core.run = .idle) ∧
      t.uc.sealSt = (if s.uc.sealSt = .sealed then .sealed else .open_) ∧ t.uc.held = [] ∧ (s.uc.sealSt ≠ .sealed → t.uc.reqs = []) ∧
      t.nearSessions.map (·.module) = s.nearSessions.map (·.module) ∧ t.ctxs = s.ctxs)) ∧
    (p.phase = .warm → warmQuiet s = false → Answers (.ready up) s (fun t => t = s)) ∧
    (p.phase ≠ .warm → (∀ k, p.phase ≠ .starting k false) → Answers (.ready up) s (fun t => t = s)) ∧
    (p.phase ≠ .running → Answers .warmReset s (fun t => t = s)) ∧
    (p.phase = .running → Answers .warmReset s (fun t => t.power.phase = .warm ∧ t.power.readySent = false ∧ t.power.bootKind = 2 ∧ t.power.mv = p.mv ∧
      t.power.resetNs = s.clockNs ∧ t.dies = s.dies ∧ t.sc = s.sc ∧ t.uc.heldSweep = none ∧ t.uc.sweepState ≠ .running ∧ t.flt.restart = none ∧ t.rmb.cmd = none ∧
      (s.uc.sweepState ≠ .running → s.rmb.cmd = none → t.mem = s.mem) ∧
      ∀ c : Fin 16, (getCtx t c).image = (getCtx s c).image ∧ match (getCtx s c).state with
        | .empty => (getCtx t c).state = .empty
        | .preempted => (getCtx t c).state = .preempted
        | .held => (getCtx t c).state = .loaded ∧ (getCtx t c).launch = none
        | .stopping | .restoring => (getCtx t c).code = 12 ∧ (getCtx t c).state ≠ .stopping ∧ (getCtx t c).state ≠ .restoring
        | _ => (getCtx t c).state ≠ .running ∧ (getCtx t c).state ≠ .held)) ∧
    Answers .powerLoss s (fun t => Cold s t ∧ t.flash = s.flash ∧ t.power.phase = .off ∧ latched t = false ∧ pinPgood t = false) ∧
    (railsUp s = true → Answers .thermalTrip s (fun t => Cold s t ∧ t.power.phase = .tripped ∧ t.flash.trip = true ∧ pinThermtripN t = false ∧ pinPgood t = false)) ∧
    (railsUp s = false → Answers .thermalTrip s (fun t => t = s))
namespace Sys2Proof.Machine

/-- Domains ds that may move go down together by the largest step of at most n mV that keeps each at its floor (R449, R452, R454). -/
def Lowered (s t : State) (ds : List Nat) (n : Nat) : Prop :=
  ∃ k, k ≤ n ∧ (∀ d ∈ movable s ds, k ≤ mvOf s d - floorOf s d) ∧ (k = n ∨ ∃ d ∈ movable s ds, k = mvOf s d - floorOf s d) ∧
    ∀ d, mvOf t d = if d ∈ movable s ds then mvOf s d - k else mvOf s d

/-- Domains ds1 and ds2 that may move go up, each list together, by the largest step of at most n mV that keeps each below its ceiling (R452). -/
def Raised (s t : State) (ds : List Nat) (n : Nat) : Prop :=
  ∃ k, k ≤ n ∧ (∀ d ∈ movable s ds, k ≤ ceilOf s d - mvOf s d) ∧ (k = n ∨ ∃ d ∈ movable s ds, k = ceilOf s d - mvOf s d) ∧
    ∀ d ∈ ds, mvOf t d = if d ∈ movable s ds then mvOf s d + k else mvOf s d

/-- Beat advance halts, and every managed domain stands at its floor (R452). -/
def AtFloors (s t : State) : Prop := (∀ d, d < 8 → mvOf t d = floorOf s d) ∧
  getReg t powerPage Reg.pwrHalts = satAdd (regWidth powerPage Reg.pwrHalts) (getReg s powerPage Reg.pwrHalts) 1

end Sys2Proof.Machine

/-- R449, R450, R452–R454, R456: a sample enters P1 and the counters and moves the clocks by 10 µs (log entry 53); above the hard limit, or above 2,600 W
for 10 ms, it halts beat advance at the floors; above the budget every tenth sample lowers the CORE domains, and then the MEM domains, by 5 mV; 1 ms
below 98 % raises them. INPUT limits the budget to 2,000 W. A junction above its throttle temperature lowers the CORE domains by 10 mV, one above
105 °C halts. PWR_VOLT_FORCE sets a domain while no launch runs. -/
def Obligations.PowerManagerActsOnItsInputs : Prop :=
  ∀ (s : State) (rq : Requester) (mW mV tj : Nat) (die : Fin 4) (v : W32) (addr : Addr) (w : Word), s.safe = true →
    let p := s.power
    let up := railsUp s = true
    let sample := Answers (.powerSample mW mV) s
    let q : Power := { p with samples := (mW :: p.samples).take 100 }
    let hot := if p1Above q 100 2600 then p.hot + 1 else 0
    let managed := (p.phase = .running ∨ p.phase = .warm) ∧ powerHalted s = false
    let exceeds := 1000 * (getReg s powerPage Reg.pwrHardW % 65536) < mW ∨ 1000 ≤ hot
    let b := budgetOf s
    let capped := p1Above q 100 b = true
    let below := p.throttled = false ∧ 100 * (p1Frac q).1 < 98 * b * 1000 * (p1Frac q).2
    let at_ := throttleAt s
    let tooHot := at_ < tj ∨ (p.throttled = true ∧ tj = at_)
    let temp := Answers (.throttle tj die) s
    let d := domSel s
    let mv := v.toNat % 1024
    let on := v.getLsbD 15 = true
    (¬ up → sample (fun t => t = s) ∧ temp (fun t => t = s) ∧ Answers .input s (fun t => t = s) ∧ Answers .inputAbove40V s (fun t => t = s)) ∧
    (up → sample (fun t => t.clockNs = s.clockNs + 10000 ∧ t.power.samples = q.samples ∧ t.power.inputMv = mV ∧ t.power.hot = hot ∧
      t.power.energy = p.energy + mW ∧ getReg t powerPage Reg.pwrEnergy = Nat.min (t.power.energy / 100000) (2 ^ 64 - 1) ∧
      (powerHalted s = true → getReg t powerPage Reg.pwrHaltNs = satAdd (regWidth powerPage Reg.pwrHaltNs) (getReg s powerPage Reg.pwrHaltNs) 10000) ∧
      (p.throttled = true → getReg t powerPage Reg.pwrThrottleNs = satAdd (regWidth powerPage Reg.pwrThrottleNs) (getReg s powerPage Reg.pwrThrottleNs) 10000) ∧
      t = { s with power := t.power, regs := t.regs, sc := t.sc, ctxs := t.ctxs, clockNs := t.clockNs, tly := t.tly })) ∧
    (up → managed → exceeds → sample (fun t => t.power.halts = { p.halts with power := true } ∧ t.power.haltFrom = s.clockNs + 10000 ∧ AtFloors s t ∧
      (getReg t powerPage Reg.pageErr).testBit 0 = true)) ∧
    (up → managed → ¬ exceeds → capped → sample (fun t => t.power.exceeds = p.exceeds + 1 ∧ t.power.halts = p.halts ∧ t.tly = s.tly ∧
      (p.exceeds % 10 ≠ 0 → t.power.mv = p.mv) ∧
      (p.exceeds % 10 = 0 → coresAtFloor s = false → Lowered s t coreDoms 5) ∧
      (p.exceeds % 10 = 0 → coresAtFloor s = true → Lowered s t memDoms 5))) ∧
    (up → managed → ¬ exceeds → ¬ capped → ¬ below → sample (fun t => t.power.under = 0 ∧ t.power.exceeds = 0 ∧ t.power.mv = p.mv ∧ t.power.halts = p.halts)) ∧
    (up → managed → ¬ exceeds → ¬ capped → below → p.under + 1 < 100 → sample (fun t => t.power.under = p.under + 1 ∧ t.power.mv = p.mv ∧ t.power.halts = p.halts)) ∧
    (up → managed → ¬ exceeds → ¬ capped → below → ¬ p.under + 1 < 100 → sample (fun t => t.power.under = 0 ∧ Raised s t coreDoms 5 ∧ Raised s t memDoms 5 ∧
      t.power.halts = p.halts)) ∧
    (up → (p.phase = .running ∨ p.phase = .warm) → powerHalted s = true → sample (fun t => t.power.mv = p.mv ∧ t.power.halts.thermal = p.halts.thermal ∧
      (t.power.halts.power = true ↔ p.halts.power = true ∧ (p1Above q 95 b = true ∨ s.clockNs + 10000 < p.haltFrom + 50000)))) ∧
    (up → Answers .input s (fun t => t = { s with power := { p with inputLow := true }, regs := t.regs } ∧ Flagged s t powerPage 3 ∧
      KeepsRegs s t [regKey powerPage Reg.pageErr, regKey powerPage Reg.pageErrCount] ∧ budgetOf t ≤ 2000)) ∧
    (up → Answers .inputAbove40V s (fun t => t = { s with power := { p with inputLow := false } } ∧ budgetOf t = getReg s powerPage Reg.pwrBudget % 65536)) ∧
    (up → (tj ≤ 105 ∨ p.halts.thermal = true) → temp (fun t => t = { s with power := t.power, regs := t.regs } ∧ t.power.tj = tj ∧
      t.power.tjDie = die.val ∧ (t.power.throttled = true ↔ tooHot) ∧ t.power.halts = p.halts ∧ (tooHot → Lowered s t coreDoms 10) ∧
      (¬ tooHot → t.power.mv = p.mv) ∧ (tooHot → p.throttled = false → Flagged s t powerPage 1) ∧
      (¬ (tooHot ∧ p.throttled = false) → t.regs = s.regs))) ∧
    (up → 105 < tj → p.halts.thermal = false → temp (fun t => t.power.halts = { p.halts with thermal := true } ∧ AtFloors s t ∧
      (getReg t powerPage Reg.pageErr).testBit 2 = true ∧ t.power.tj = tj)) ∧
    (p.halts.thermal = true → tj < 100 → Answers (.thermalHaltResume tj) s (fun t => t = { s with power := { p with
      tj := tj, halts := { p.halts with thermal := false }, throttled := p.throttled && decide (at_ ≤ tj) } })) ∧
    ((p.halts.thermal = false ∨ 100 ≤ tj) → Answers (.thermalHaltResume tj) s (fun t => t = s)) ∧
    (let unlocked := (getFlags s powerPage).unlocked = true
     let refused := anyLaunch s = true ∨ 8 ≤ d ∨ (on ∧ (mv < 680 ∨ 900 < mv))
     (¬ unlocked → Answers (.pwrVoltForce v) s (fun t => ErrorOnly s t powerPage errExpertDenied)) ∧
     (unlocked → refused → Answers (.pwrVoltForce v) s (fun t => ErrorOnly s t powerPage 4)) ∧
     (unlocked → ¬ refused → Answers (.pwrVoltForce v) s (fun t => t = { s with power := t.power, regs := t.regs } ∧
       getReg t powerPage Reg.pwrVoltForce = (v.toNat % 65536 &&& 0x83FF) ∧ KeepsRegs s t [regKey powerPage Reg.pwrVoltForce] ∧
       t.power = { p with forced := p.forced.setIfInBounds d (if v.getLsbD 15 then some mv else none)
                          mv := if v.getLsbD 15 then p.mv.setIfInBounds d mv else p.mv }))) ∧
    (let n := w.toNat % 65536
     addr.toNat = regAddr powerPage Reg.pwrBudget →
      (1200 ≤ n → n ≤ 2600 → Answers (.registerWrite rq addr false w) s (fun t => SetsOnly s t powerPage Reg.pwrBudget n)) ∧
      (n < 1200 ∨ 2600 < n → Answers (.registerWrite rq addr false w) s (fun t => ErrorOnly s t powerPage 4)))
namespace Sys2Proof.Machine

/-- A LINEAR11 word reads as num/den: a mantissa below 1,024 times a power of two, exact to one unit of it, within the format's range (R478; the
choice of the exponent is log entry 54). -/
def ReadsAs (w num den : Nat) : Prop :=
  let m := w % 2048
  let e := (w / 2048 + 16) % 32
  w < 65536 ∧ (num < 1024 * 2 ^ 15 * den → m < 1024 ∧ m * den * 2 ^ e ≤ num * 2 ^ 16 ∧ num * 2 ^ 16 < (m + 1) * den * 2 ^ e)

/-- A command of the management bus answers n bytes, least significant first, and changes nothing else but the draw of free values. -/
def BusAnswers (i : Instr) (s : State) (n draws : Nat) (post : Nat → Prop) : Prop :=
  Answers i s (fun t => t = { s with answer := t.answer, free := s.free + draws } ∧ t.answer.length = n ∧ post (natOfLE t.answer))

end Sys2Proof.Machine

/-- R478, R479: the management bus answers the input voltage, current and power and the temperatures in LINEAR11, temperatures zero while the rails
are down; the bits of MFR_MODULE_STATE show the rails, the start, READY and the latches, and SMB_ALERT_N is low while one of bits 7:4 is set; the
other commands answer what stopped the last start, the identity, the texts and ELAPSED_MS. The coolant readings and the status bits are free values
(log entry 3). -/
def Obligations.ManagementBusAnswers : Prop :=
  ∀ (s : State), s.safe = true →
    let p := s.power
    let rails := railsUp s = true
    let booting := ∃ k, p.phase = .starting k false
    let word (i : Instr) (num den : Nat) := BusAnswers i s 2 0 (fun w => ReadsAs w num den)
    let text (i : Instr) (k : Nat) := Answers i s (fun t => t = { s with answer := Config.mfrText s.part.serial k })
    (word .readVin p.inputMv 1000 ∧ word .readIin (p.samples.headD 0) (Nat.max 1 p.inputMv) ∧
      word .readPin p.samples.sum (1000 * Nat.max 1 p.samples.length)) ∧
    (rails → word .readTemperature1 p.tj 1 ∧ BusAnswers .readTemperature2 s 2 1 (fun w => ∃ c, c < 256 ∧ ReadsAs w c 1) ∧
      BusAnswers .mfrCoolant s 2 2 (fun _ => True)) ∧
    (¬ rails → word .readTemperature1 0 1 ∧ word .readTemperature2 0 1 ∧ BusAnswers .mfrCoolant s 2 0 (fun w => w = 0)) ∧
    (BusAnswers .statusByte s 1 1 (fun _ => True) ∧ BusAnswers .statusWord s 2 1 (fun _ => True)) ∧
    (text .mfrId 0 ∧ text .mfrModel 1 ∧ text .mfrSerial 2) ∧
    Answers .mfrModuleState s (fun t => t = { s with answer := t.answer, free := t.free } ∧ t.answer.length = 1 ∧
      let b := natOfLE t.answer
      (b.testBit 0 = true ↔ rails) ∧ (b.testBit 1 = true ↔ booting) ∧ (b.testBit 2 = true ↔ p.readySent = true) ∧
      (¬ (booting ∧ p.memtest = true) → b.testBit 3 = false ∧ t.free = s.free) ∧
      (b.testBit 4 = true ↔ p.phase = .bootFail) ∧ (b.testBit 5 = true ↔ ∃ g, p.phase = .powerFault g) ∧
      (b.testBit 6 = true ↔ p.phase = .tripped) ∧ (b.testBit 7 = true ↔ s.flt.replace = true ∨ s.flash.flag.isSome = true) ∧
      (pinSmbAlertN s = false ↔ b / 16 ≠ 0)) ∧
    BusAnswers .mfrFaultInfo s 2 0 (fun w => w = (p.faultGroup + 256 * p.bootStep) % 65536) ∧
    Answers .mfrDeviceId s (fun t => t = { s with answer := t.answer } ∧ t.answer.length = 8 ∧ natOfBE t.answer = deviceId s) ∧
    BusAnswers .mfrBootMs s 4 0 (fun w => w = p.elapsedMs % 2 ^ 32)
end

