-- ==== Sys2Proof/Laws/Sparse.lean ====
section
/-!
SUPPORT. Laws/Sparse.lean: the sparse tables. A read after a write gives the value written, a write leaves every other key
alone, and every operation keeps the canonical form; the same for memory, byte by byte.
-/
namespace Sys2Proof.Machine

theorem risingFrom_mono {α : Type} {l : List (Nat × α)} {a b : Nat} (h : risingFrom b l = true) (hab : a ≤ b) :
    risingFrom a l = true := by
  cases l with
  | nil => rfl
  | cons x t => simp only [risingFrom, Bool.and_eq_true, decide_eq_true_eq] at h ⊢; exact ⟨by omega, h.2⟩

theorem sparseWfFrom_rising {α : Type} [DecidableEq α] {d : α} {l : List (Nat × α)} {a : Nat} (h : sparseWfFrom d a l = true) :
    risingFrom a l = true := by
  induction l generalizing a with
  | nil => rfl
  | cons x t ih =>
    simp only [sparseWfFrom, risingFrom, Bool.and_eq_true, decide_eq_true_eq] at h ⊢
    exact ⟨h.1.1, ih h.2⟩

theorem sparseGet_below {α : Type} {d : α} {l : List (Nat × α)} {a n : Nat} (h : risingFrom a l = true) (hn : n < a) :
    sparseGet d l n = d := by
  cases l with
  | nil => rfl
  | cons x t =>
    simp only [risingFrom, Bool.and_eq_true, decide_eq_true_eq] at h
    have h1 := h.1
    simp only [sparseGet]
    rw [if_neg (by omega), if_pos (by omega)]

theorem sparseGet_set_self {α : Type} [DecidableEq α] (d : α) {l : List (Nat × α)} {a : Nat} (h : risingFrom a l = true) (n : Nat) (v : α) :
    sparseGet d (sparseSet d l n v) n = v := by
  induction l generalizing a with
  | nil => by_cases hv : v = d <;> simp [sparseSet, sparseGet, hv]
  | cons x t ih =>
    obtain ⟨k, w⟩ := x
    simp only [risingFrom, Bool.and_eq_true, decide_eq_true_eq] at h
    unfold sparseSet
    split
    · rename_i hk
      split
      · rename_i hv; rw [hv]; exact sparseGet_below h.2 (by omega)
      · simp [sparseGet]
    · rename_i hk
      split
      · rename_i hlt
        split
        · rename_i hv; rw [hv]; simp only [sparseGet]; rw [if_neg hk, if_pos hlt]
        · simp [sparseGet]
      · rename_i hlt
        simp only [sparseGet]; rw [if_neg hk, if_neg hlt]; exact ih h.2

theorem sparseGet_set_ne {α : Type} [DecidableEq α] (d e : α) {l : List (Nat × α)} {a : Nat} (h : risingFrom a l = true) {n m : Nat} (v : α)
    (hm : m ≠ n) : sparseGet e (sparseSet d l n v) m = sparseGet e l m := by
  induction l generalizing a with
  | nil => by_cases hv : v = d <;> simp [sparseSet, sparseGet, hv, hm]
  | cons x t ih =>
    obtain ⟨k, w⟩ := x
    simp only [risingFrom, Bool.and_eq_true, decide_eq_true_eq] at h
    unfold sparseSet
    split
    · rename_i hk
      subst hk
      split
      · simp only [sparseGet]; rw [if_neg hm]
        split
        · rename_i hlt; exact sparseGet_below h.2 (by omega)
        · rfl
      · simp only [sparseGet]; rw [if_neg hm, if_neg hm]
    · rename_i hk
      split
      · rename_i hlt
        split
        · rfl
        · simp only [sparseGet]; rw [if_neg hm]
          split
          · rename_i h2; rw [if_neg (by omega), if_pos (by omega)]
          · rfl
      · simp only [sparseGet]; rw [ih h.2]

theorem sparseSet_rising {α : Type} [DecidableEq α] (d : α) {l : List (Nat × α)} {a : Nat} (h : risingFrom a l = true) {n : Nat} (hn : a ≤ n)
    (v : α) : risingFrom a (sparseSet d l n v) = true := by
  induction l generalizing a with
  | nil => by_cases hv : v = d <;> simp [sparseSet, risingFrom, hv, hn]
  | cons x t ih =>
    obtain ⟨k, w⟩ := x
    simp only [risingFrom, Bool.and_eq_true, decide_eq_true_eq] at h
    unfold sparseSet
    split
    · rename_i hk; subst hk
      split
      · exact risingFrom_mono h.2 (by omega)
      · simpa [risingFrom, hn] using h.2
    · split
      · split
        · simpa [risingFrom, h.1] using h.2
        · rename_i hk hlt hv
          simp only [risingFrom, Bool.and_eq_true, decide_eq_true_eq]
          exact ⟨hn, by omega, h.2⟩
      · simp only [risingFrom, Bool.and_eq_true, decide_eq_true_eq]
        exact ⟨h.1, ih h.2 (by omega)⟩

theorem sparseSet_wfFrom {α : Type} [DecidableEq α] (d : α) {l : List (Nat × α)} {a : Nat} (h : sparseWfFrom d a l = true) {n : Nat} (hn : a ≤ n)
    (v : α) : sparseWfFrom d a (sparseSet d l n v) = true := by
  induction l generalizing a with
  | nil => by_cases hv : v = d <;> simp [sparseSet, sparseWfFrom, hv, hn]
  | cons x t ih =>
    obtain ⟨k, w⟩ := x
    simp only [sparseWfFrom, Bool.and_eq_true, decide_eq_true_eq] at h
    have mono : ∀ {b c : Nat} {l : List (Nat × α)}, sparseWfFrom d c l = true → b ≤ c → sparseWfFrom d b l = true := by
      intro b c l hl hbc
      cases l with
      | nil => rfl
      | cons y u => simp only [sparseWfFrom, Bool.and_eq_true, decide_eq_true_eq] at hl ⊢; exact ⟨⟨by omega, hl.1.2⟩, hl.2⟩
    unfold sparseSet
    split
    · rename_i hk; subst hk
      split
      · exact mono h.2 (by omega)
      · rename_i hv; simp only [sparseWfFrom, Bool.and_eq_true, decide_eq_true_eq]; exact ⟨⟨hn, hv⟩, h.2⟩
    · split
      · split
        · simp only [sparseWfFrom, Bool.and_eq_true, decide_eq_true_eq]; exact h
        · rename_i hk hlt hv
          simp only [sparseWfFrom, Bool.and_eq_true, decide_eq_true_eq]
          exact ⟨⟨hn, hv⟩, ⟨by omega, h.1.2⟩, h.2⟩
      · simp only [sparseWfFrom, Bool.and_eq_true, decide_eq_true_eq]
        exact ⟨h.1, ih h.2 (by omega)⟩

theorem sparseSet_wf {α : Type} [DecidableEq α] (d : α) {l : List (Nat × α)} (h : sparseWf d l = true) (n : Nat) (v : α) :
    sparseWf d (sparseSet d l n v) = true := sparseSet_wfFrom d h (Nat.zero_le _) v

theorem sparseSet_rising0 {α : Type} [DecidableEq α] (d : α) {l : List (Nat × α)} (h : rising l = true) (n : Nat) (v : α) :
    rising (sparseSet d l n v) = true := sparseSet_rising d h (Nat.zero_le _) v

/-- A filter keeps the canonical form. -/
theorem filter_wfFrom {α : Type} [DecidableEq α] (d : α) (p : Nat × α → Bool) {l : List (Nat × α)} {a : Nat} (h : sparseWfFrom d a l = true) :
    sparseWfFrom d a (l.filter p) = true := by
  induction l generalizing a with
  | nil => rfl
  | cons x t ih =>
    obtain ⟨k, w⟩ := x
    have mono : ∀ {b c : Nat} {l : List (Nat × α)}, sparseWfFrom d c l = true → b ≤ c → sparseWfFrom d b l = true := by
      intro b c l hl hbc
      cases l with
      | nil => rfl
      | cons y u => simp only [sparseWfFrom, Bool.and_eq_true, decide_eq_true_eq] at hl ⊢; exact ⟨⟨by omega, hl.1.2⟩, hl.2⟩
    simp only [sparseWfFrom, Bool.and_eq_true, decide_eq_true_eq] at h
    rw [List.filter_cons]
    split
    · simp only [sparseWfFrom, Bool.and_eq_true, decide_eq_true_eq]; exact ⟨h.1, ih h.2⟩
    · exact ih (mono h.2 (by omega))

/-- A filter keeps the order of the keys. -/
theorem filter_rising {α : Type} (p : Nat × α → Bool) {l : List (Nat × α)} {a : Nat} (h : risingFrom a l = true) :
    risingFrom a (l.filter p) = true := by
  induction l generalizing a with
  | nil => rfl
  | cons x t ih =>
    simp only [risingFrom, Bool.and_eq_true, decide_eq_true_eq] at h
    rw [List.filter_cons]
    split
    · simp only [risingFrom, Bool.and_eq_true, decide_eq_true_eq]; exact ⟨h.1, ih h.2⟩
    · exact risingFrom_mono (ih h.2) (by omega)

/-! ## Memory -/

theorem memGet_put_self {m : List (Nat × Byte)} (h : Memory.wf m = true) (a : Nat) (b : Byte) : memGet (memPut m a b) a = b :=
  sparseGet_set_self 0 (sparseWfFrom_rising h) a b

theorem memGet_put_ne {m : List (Nat × Byte)} (h : Memory.wf m = true) {a x : Nat} (b : Byte) (hx : x ≠ a) :
    memGet (memPut m a b) x = memGet m x := sparseGet_set_ne 0 0 (sparseWfFrom_rising h) b hx

theorem memPut_wf {m : List (Nat × Byte)} (h : Memory.wf m = true) (a : Nat) (b : Byte) : Memory.wf (memPut m a b) = true :=
  sparseSet_wf 0 h a b

theorem memWrite_wf {m : List (Nat × Byte)} (h : Memory.wf m = true) (a : Nat) (bs : List Byte) : Memory.wf (memWrite m a bs) = true := by
  induction bs generalizing m a with
  | nil => exact h
  | cons b bs ih => exact ih (memPut_wf h a b) (a + 1)

/-- A write leaves every byte outside the written range alone. -/
theorem memGet_write_out {m : List (Nat × Byte)} (h : Memory.wf m = true) (a : Nat) (bs : List Byte) {x : Nat}
    (hx : x < a ∨ a + bs.length ≤ x) : memGet (memWrite m a bs) x = memGet m x := by
  induction bs generalizing m a with
  | nil => rfl
  | cons b bs ih =>
    simp only [List.length_cons] at hx
    rw [memWrite, ih (memPut_wf h a b) (a + 1) (by omega), memGet_put_ne h b (by omega)]

/-- A read of a written byte gives the byte written. -/
theorem memGet_write_in {m : List (Nat × Byte)} (h : Memory.wf m = true) (a : Nat) (bs : List Byte) {i : Nat} (hi : i < bs.length) :
    memGet (memWrite m a bs) (a + i) = bs[i] := by
  induction bs generalizing m a i with
  | nil => exact absurd hi (Nat.not_lt_zero _)
  | cons b bs ih =>
    cases i with
    | zero => rw [memWrite, memGet_write_out (memPut_wf h a b) (a + 1) bs (by omega)]; exact memGet_put_self h a b
    | succ i =>
      have := ih (memPut_wf h a b) (a + 1) (i := i) (by simpa using hi)
      rw [memWrite, show a + (i + 1) = a + 1 + i by omega, this, List.getElem_cons_succ]

theorem memRead_length (m : List (Nat × Byte)) (a n : Nat) : (memRead m a n).length = n := by
  induction n generalizing a with
  | zero => rfl
  | succ n ih => simp [memRead, ih]

theorem memRead_getElem (m : List (Nat × Byte)) (a n i : Nat) (h : i < (memRead m a n).length) : (memRead m a n)[i] = memGet m (a + i) := by
  induction n generalizing a i with
  | zero => exact absurd h (Nat.not_lt_zero _)
  | succ n ih =>
    cases i with
    | zero => rfl
    | succ i =>
      simp only [memRead, List.getElem_cons_succ]
      rw [ih (a + 1) i (by simpa [memRead] using h), show a + 1 + i = a + (i + 1) by omega]

/-- Reading a range back after writing it gives what was written. -/
theorem memRead_write {m : List (Nat × Byte)} (h : Memory.wf m = true) (a : Nat) (bs : List Byte) :
    memRead (memWrite m a bs) a bs.length = bs := by
  apply List.ext_getElem (memRead_length _ _ _)
  intro i h1 h2
  rw [memRead_getElem]; exact memGet_write_in h a bs h2

theorem memClear_wf {m : List (Nat × Byte)} (h : Memory.wf m = true) (a n : Nat) : Memory.wf (memClear m a n) = true :=
  filter_wfFrom 0 _ h

theorem memUnslice_wf {m : List (Nat × Byte)} (h : Memory.wf m = true) (a n : Nat) (sl : List (Nat × Byte)) :
    Memory.wf (memUnslice m a n sl) = true := by
  unfold memUnslice
  have h' := memClear_wf h a n
  generalize memClear m a n = m' at h'
  induction sl generalizing m' with
  | nil => exact h'
  | cons c t ih => exact ih _ (memPut_wf h' _ _)

end Sys2Proof.Machine
end

