-- ==== Sys2Proof/Laws/State.lean ====
section
/-!
SUPPORT. Laws/State.lean: what each named update of the state leaves alone, one lemma per field, and what it sets. The other updates
(modH, modCore, modFrame, modCtx) are these applied to a part read first.
-/
namespace Sys2Proof.Machine

variable (s : State)

@[simp] theorem setReg_pending (bank off v : Nat) : (setReg s bank off v).pending = s.pending := rfl
@[simp] theorem setReg_free (bank off v : Nat) : (setReg s bank off v).free = s.free := rfl
@[simp] theorem setReg_part (bank off v : Nat) : (setReg s bank off v).part = s.part := rfl
@[simp] theorem setReg_flash (bank off v : Nat) : (setReg s bank off v).flash = s.flash := rfl
@[simp] theorem setReg_mem (bank off v : Nat) : (setReg s bank off v).mem = s.mem := rfl
@[simp] theorem setReg_pages (bank off v : Nat) : (setReg s bank off v).pages = s.pages := rfl
@[simp] theorem setReg_wheels (bank off v : Nat) : (setReg s bank off v).wheels = s.wheels := rfl
@[simp] theorem setReg_hazards (bank off v : Nat) : (setReg s bank off v).hazards = s.hazards := rfl
@[simp] theorem setReg_dies (bank off v : Nat) : (setReg s bank off v).dies = s.dies := rfl
@[simp] theorem setReg_hampers (bank off v : Nat) : (setReg s bank off v).hampers = s.hampers := rfl
@[simp] theorem setReg_stores (bank off v : Nat) : (setReg s bank off v).stores = s.stores := rfl
@[simp] theorem setReg_ustore (bank off v : Nat) : (setReg s bank off v).ustore = s.ustore := rfl
@[simp] theorem setReg_units (bank off v : Nat) : (setReg s bank off v).units = s.units := rfl
@[simp] theorem setReg_uc (bank off v : Nat) : (setReg s bank off v).uc = s.uc := rfl
@[simp] theorem setReg_ledger (bank off v : Nat) : (setReg s bank off v).ledger = s.ledger := rfl
@[simp] theorem setReg_tly (bank off v : Nat) : (setReg s bank off v).tly = s.tly := rfl
@[simp] theorem setReg_dmas (bank off v : Nat) : (setReg s bank off v).dmas = s.dmas := rfl
@[simp] theorem setReg_merges (bank off v : Nat) : (setReg s bank off v).merges = s.merges := rfl
@[simp] theorem setReg_ctxs (bank off v : Nat) : (setReg s bank off v).ctxs = s.ctxs := rfl
@[simp] theorem setReg_images (bank off v : Nat) : (setReg s bank off v).images = s.images := rfl
@[simp] theorem setReg_loader (bank off v : Nat) : (setReg s bank off v).loader = s.loader := rfl
@[simp] theorem setReg_flt (bank off v : Nat) : (setReg s bank off v).flt = s.flt := rfl
@[simp] theorem setReg_hbm (bank off v : Nat) : (setReg s bank off v).hbm = s.hbm := rfl
@[simp] theorem setReg_lpc (bank off v : Nat) : (setReg s bank off v).lpc = s.lpc := rfl
@[simp] theorem setReg_arbs (bank off v : Nat) : (setReg s bank off v).arbs = s.arbs := rfl
@[simp] theorem setReg_ports (bank off v : Nat) : (setReg s bank off v).ports = s.ports := rfl
@[simp] theorem setReg_hostSessions (bank off v : Nat) : (setReg s bank off v).hostSessions = s.hostSessions := rfl
@[simp] theorem setReg_nearSessions (bank off v : Nat) : (setReg s bank off v).nearSessions = s.nearSessions := rfl
@[simp] theorem setReg_sink (bank off v : Nat) : (setReg s bank off v).sink = s.sink := rfl
@[simp] theorem setReg_events (bank off v : Nat) : (setReg s bank off v).events = s.events := rfl
@[simp] theorem setReg_evseq (bank off v : Nat) : (setReg s bank off v).evseq = s.evseq := rfl
@[simp] theorem setReg_outbox (bank off v : Nat) : (setReg s bank off v).outbox = s.outbox := rfl
@[simp] theorem setReg_answer (bank off v : Nat) : (setReg s bank off v).answer = s.answer := rfl
@[simp] theorem setReg_hostHeld (bank off v : Nat) : (setReg s bank off v).hostHeld = s.hostHeld := rfl
@[simp] theorem setReg_sc (bank off v : Nat) : (setReg s bank off v).sc = s.sc := rfl
@[simp] theorem setReg_rmb (bank off v : Nat) : (setReg s bank off v).rmb = s.rmb := rfl
@[simp] theorem setReg_sec (bank off v : Nat) : (setReg s bank off v).sec = s.sec := rfl
@[simp] theorem setReg_clockNs (bank off v : Nat) : (setReg s bank off v).clockNs = s.clockNs := rfl
@[simp] theorem setReg_power (bank off v : Nat) : (setReg s bank off v).power = s.power := rfl

@[simp] theorem setFlags_pending (page : Nat) (f : PageFlags) : (setFlags s page f).pending = s.pending := rfl
@[simp] theorem setFlags_free (page : Nat) (f : PageFlags) : (setFlags s page f).free = s.free := rfl
@[simp] theorem setFlags_part (page : Nat) (f : PageFlags) : (setFlags s page f).part = s.part := rfl
@[simp] theorem setFlags_flash (page : Nat) (f : PageFlags) : (setFlags s page f).flash = s.flash := rfl
@[simp] theorem setFlags_mem (page : Nat) (f : PageFlags) : (setFlags s page f).mem = s.mem := rfl
@[simp] theorem setFlags_regs (page : Nat) (f : PageFlags) : (setFlags s page f).regs = s.regs := rfl
@[simp] theorem setFlags_wheels (page : Nat) (f : PageFlags) : (setFlags s page f).wheels = s.wheels := rfl
@[simp] theorem setFlags_hazards (page : Nat) (f : PageFlags) : (setFlags s page f).hazards = s.hazards := rfl
@[simp] theorem setFlags_dies (page : Nat) (f : PageFlags) : (setFlags s page f).dies = s.dies := rfl
@[simp] theorem setFlags_hampers (page : Nat) (f : PageFlags) : (setFlags s page f).hampers = s.hampers := rfl
@[simp] theorem setFlags_stores (page : Nat) (f : PageFlags) : (setFlags s page f).stores = s.stores := rfl
@[simp] theorem setFlags_ustore (page : Nat) (f : PageFlags) : (setFlags s page f).ustore = s.ustore := rfl
@[simp] theorem setFlags_units (page : Nat) (f : PageFlags) : (setFlags s page f).units = s.units := rfl
@[simp] theorem setFlags_uc (page : Nat) (f : PageFlags) : (setFlags s page f).uc = s.uc := rfl
@[simp] theorem setFlags_ledger (page : Nat) (f : PageFlags) : (setFlags s page f).ledger = s.ledger := rfl
@[simp] theorem setFlags_tly (page : Nat) (f : PageFlags) : (setFlags s page f).tly = s.tly := rfl
@[simp] theorem setFlags_dmas (page : Nat) (f : PageFlags) : (setFlags s page f).dmas = s.dmas := rfl
@[simp] theorem setFlags_merges (page : Nat) (f : PageFlags) : (setFlags s page f).merges = s.merges := rfl
@[simp] theorem setFlags_ctxs (page : Nat) (f : PageFlags) : (setFlags s page f).ctxs = s.ctxs := rfl
@[simp] theorem setFlags_images (page : Nat) (f : PageFlags) : (setFlags s page f).images = s.images := rfl
@[simp] theorem setFlags_loader (page : Nat) (f : PageFlags) : (setFlags s page f).loader = s.loader := rfl
@[simp] theorem setFlags_flt (page : Nat) (f : PageFlags) : (setFlags s page f).flt = s.flt := rfl
@[simp] theorem setFlags_hbm (page : Nat) (f : PageFlags) : (setFlags s page f).hbm = s.hbm := rfl
@[simp] theorem setFlags_lpc (page : Nat) (f : PageFlags) : (setFlags s page f).lpc = s.lpc := rfl
@[simp] theorem setFlags_arbs (page : Nat) (f : PageFlags) : (setFlags s page f).arbs = s.arbs := rfl
@[simp] theorem setFlags_ports (page : Nat) (f : PageFlags) : (setFlags s page f).ports = s.ports := rfl
@[simp] theorem setFlags_hostSessions (page : Nat) (f : PageFlags) : (setFlags s page f).hostSessions = s.hostSessions := rfl
@[simp] theorem setFlags_nearSessions (page : Nat) (f : PageFlags) : (setFlags s page f).nearSessions = s.nearSessions := rfl
@[simp] theorem setFlags_sink (page : Nat) (f : PageFlags) : (setFlags s page f).sink = s.sink := rfl
@[simp] theorem setFlags_events (page : Nat) (f : PageFlags) : (setFlags s page f).events = s.events := rfl
@[simp] theorem setFlags_evseq (page : Nat) (f : PageFlags) : (setFlags s page f).evseq = s.evseq := rfl
@[simp] theorem setFlags_outbox (page : Nat) (f : PageFlags) : (setFlags s page f).outbox = s.outbox := rfl
@[simp] theorem setFlags_answer (page : Nat) (f : PageFlags) : (setFlags s page f).answer = s.answer := rfl
@[simp] theorem setFlags_hostHeld (page : Nat) (f : PageFlags) : (setFlags s page f).hostHeld = s.hostHeld := rfl
@[simp] theorem setFlags_sc (page : Nat) (f : PageFlags) : (setFlags s page f).sc = s.sc := rfl
@[simp] theorem setFlags_rmb (page : Nat) (f : PageFlags) : (setFlags s page f).rmb = s.rmb := rfl
@[simp] theorem setFlags_sec (page : Nat) (f : PageFlags) : (setFlags s page f).sec = s.sec := rfl
@[simp] theorem setFlags_clockNs (page : Nat) (f : PageFlags) : (setFlags s page f).clockNs = s.clockNs := rfl
@[simp] theorem setFlags_power (page : Nat) (f : PageFlags) : (setFlags s page f).power = s.power := rfl

@[simp] theorem setH_pending (lh : Nat) (h : Hamper) : (setH s lh h).pending = s.pending := rfl
@[simp] theorem setH_free (lh : Nat) (h : Hamper) : (setH s lh h).free = s.free := rfl
@[simp] theorem setH_part (lh : Nat) (h : Hamper) : (setH s lh h).part = s.part := rfl
@[simp] theorem setH_flash (lh : Nat) (h : Hamper) : (setH s lh h).flash = s.flash := rfl
@[simp] theorem setH_mem (lh : Nat) (h : Hamper) : (setH s lh h).mem = s.mem := rfl
@[simp] theorem setH_regs (lh : Nat) (h : Hamper) : (setH s lh h).regs = s.regs := rfl
@[simp] theorem setH_pages (lh : Nat) (h : Hamper) : (setH s lh h).pages = s.pages := rfl
@[simp] theorem setH_wheels (lh : Nat) (h : Hamper) : (setH s lh h).wheels = s.wheels := rfl
@[simp] theorem setH_hazards (lh : Nat) (h : Hamper) : (setH s lh h).hazards = s.hazards := rfl
@[simp] theorem setH_dies (lh : Nat) (h : Hamper) : (setH s lh h).dies = s.dies := rfl
@[simp] theorem setH_stores (lh : Nat) (h : Hamper) : (setH s lh h).stores = s.stores := rfl
@[simp] theorem setH_ustore (lh : Nat) (h : Hamper) : (setH s lh h).ustore = s.ustore := rfl
@[simp] theorem setH_units (lh : Nat) (h : Hamper) : (setH s lh h).units = s.units := rfl
@[simp] theorem setH_uc (lh : Nat) (h : Hamper) : (setH s lh h).uc = s.uc := rfl
@[simp] theorem setH_ledger (lh : Nat) (h : Hamper) : (setH s lh h).ledger = s.ledger := rfl
@[simp] theorem setH_tly (lh : Nat) (h : Hamper) : (setH s lh h).tly = s.tly := rfl
@[simp] theorem setH_dmas (lh : Nat) (h : Hamper) : (setH s lh h).dmas = s.dmas := rfl
@[simp] theorem setH_merges (lh : Nat) (h : Hamper) : (setH s lh h).merges = s.merges := rfl
@[simp] theorem setH_ctxs (lh : Nat) (h : Hamper) : (setH s lh h).ctxs = s.ctxs := rfl
@[simp] theorem setH_images (lh : Nat) (h : Hamper) : (setH s lh h).images = s.images := rfl
@[simp] theorem setH_loader (lh : Nat) (h : Hamper) : (setH s lh h).loader = s.loader := rfl
@[simp] theorem setH_flt (lh : Nat) (h : Hamper) : (setH s lh h).flt = s.flt := rfl
@[simp] theorem setH_hbm (lh : Nat) (h : Hamper) : (setH s lh h).hbm = s.hbm := rfl
@[simp] theorem setH_lpc (lh : Nat) (h : Hamper) : (setH s lh h).lpc = s.lpc := rfl
@[simp] theorem setH_arbs (lh : Nat) (h : Hamper) : (setH s lh h).arbs = s.arbs := rfl
@[simp] theorem setH_ports (lh : Nat) (h : Hamper) : (setH s lh h).ports = s.ports := rfl
@[simp] theorem setH_hostSessions (lh : Nat) (h : Hamper) : (setH s lh h).hostSessions = s.hostSessions := rfl
@[simp] theorem setH_nearSessions (lh : Nat) (h : Hamper) : (setH s lh h).nearSessions = s.nearSessions := rfl
@[simp] theorem setH_sink (lh : Nat) (h : Hamper) : (setH s lh h).sink = s.sink := rfl
@[simp] theorem setH_events (lh : Nat) (h : Hamper) : (setH s lh h).events = s.events := rfl
@[simp] theorem setH_evseq (lh : Nat) (h : Hamper) : (setH s lh h).evseq = s.evseq := rfl
@[simp] theorem setH_outbox (lh : Nat) (h : Hamper) : (setH s lh h).outbox = s.outbox := rfl
@[simp] theorem setH_answer (lh : Nat) (h : Hamper) : (setH s lh h).answer = s.answer := rfl
@[simp] theorem setH_hostHeld (lh : Nat) (h : Hamper) : (setH s lh h).hostHeld = s.hostHeld := rfl
@[simp] theorem setH_sc (lh : Nat) (h : Hamper) : (setH s lh h).sc = s.sc := rfl
@[simp] theorem setH_rmb (lh : Nat) (h : Hamper) : (setH s lh h).rmb = s.rmb := rfl
@[simp] theorem setH_sec (lh : Nat) (h : Hamper) : (setH s lh h).sec = s.sec := rfl
@[simp] theorem setH_clockNs (lh : Nat) (h : Hamper) : (setH s lh h).clockNs = s.clockNs := rfl
@[simp] theorem setH_power (lh : Nat) (h : Hamper) : (setH s lh h).power = s.power := rfl

@[simp] theorem setCtx_pending (c : Nat) (x : Context) : (setCtx s c x).pending = s.pending := rfl
@[simp] theorem setCtx_free (c : Nat) (x : Context) : (setCtx s c x).free = s.free := rfl
@[simp] theorem setCtx_part (c : Nat) (x : Context) : (setCtx s c x).part = s.part := rfl
@[simp] theorem setCtx_flash (c : Nat) (x : Context) : (setCtx s c x).flash = s.flash := rfl
@[simp] theorem setCtx_mem (c : Nat) (x : Context) : (setCtx s c x).mem = s.mem := rfl
@[simp] theorem setCtx_regs (c : Nat) (x : Context) : (setCtx s c x).regs = s.regs := rfl
@[simp] theorem setCtx_pages (c : Nat) (x : Context) : (setCtx s c x).pages = s.pages := rfl
@[simp] theorem setCtx_wheels (c : Nat) (x : Context) : (setCtx s c x).wheels = s.wheels := rfl
@[simp] theorem setCtx_hazards (c : Nat) (x : Context) : (setCtx s c x).hazards = s.hazards := rfl
@[simp] theorem setCtx_dies (c : Nat) (x : Context) : (setCtx s c x).dies = s.dies := rfl
@[simp] theorem setCtx_hampers (c : Nat) (x : Context) : (setCtx s c x).hampers = s.hampers := rfl
@[simp] theorem setCtx_stores (c : Nat) (x : Context) : (setCtx s c x).stores = s.stores := rfl
@[simp] theorem setCtx_ustore (c : Nat) (x : Context) : (setCtx s c x).ustore = s.ustore := rfl
@[simp] theorem setCtx_units (c : Nat) (x : Context) : (setCtx s c x).units = s.units := rfl
@[simp] theorem setCtx_uc (c : Nat) (x : Context) : (setCtx s c x).uc = s.uc := rfl
@[simp] theorem setCtx_ledger (c : Nat) (x : Context) : (setCtx s c x).ledger = s.ledger := rfl
@[simp] theorem setCtx_tly (c : Nat) (x : Context) : (setCtx s c x).tly = s.tly := rfl
@[simp] theorem setCtx_dmas (c : Nat) (x : Context) : (setCtx s c x).dmas = s.dmas := rfl
@[simp] theorem setCtx_merges (c : Nat) (x : Context) : (setCtx s c x).merges = s.merges := rfl
@[simp] theorem setCtx_images (c : Nat) (x : Context) : (setCtx s c x).images = s.images := rfl
@[simp] theorem setCtx_loader (c : Nat) (x : Context) : (setCtx s c x).loader = s.loader := rfl
@[simp] theorem setCtx_flt (c : Nat) (x : Context) : (setCtx s c x).flt = s.flt := rfl
@[simp] theorem setCtx_hbm (c : Nat) (x : Context) : (setCtx s c x).hbm = s.hbm := rfl
@[simp] theorem setCtx_lpc (c : Nat) (x : Context) : (setCtx s c x).lpc = s.lpc := rfl
@[simp] theorem setCtx_arbs (c : Nat) (x : Context) : (setCtx s c x).arbs = s.arbs := rfl
@[simp] theorem setCtx_ports (c : Nat) (x : Context) : (setCtx s c x).ports = s.ports := rfl
@[simp] theorem setCtx_hostSessions (c : Nat) (x : Context) : (setCtx s c x).hostSessions = s.hostSessions := rfl
@[simp] theorem setCtx_nearSessions (c : Nat) (x : Context) : (setCtx s c x).nearSessions = s.nearSessions := rfl
@[simp] theorem setCtx_sink (c : Nat) (x : Context) : (setCtx s c x).sink = s.sink := rfl
@[simp] theorem setCtx_events (c : Nat) (x : Context) : (setCtx s c x).events = s.events := rfl
@[simp] theorem setCtx_evseq (c : Nat) (x : Context) : (setCtx s c x).evseq = s.evseq := rfl
@[simp] theorem setCtx_outbox (c : Nat) (x : Context) : (setCtx s c x).outbox = s.outbox := rfl
@[simp] theorem setCtx_answer (c : Nat) (x : Context) : (setCtx s c x).answer = s.answer := rfl
@[simp] theorem setCtx_hostHeld (c : Nat) (x : Context) : (setCtx s c x).hostHeld = s.hostHeld := rfl
@[simp] theorem setCtx_sc (c : Nat) (x : Context) : (setCtx s c x).sc = s.sc := rfl
@[simp] theorem setCtx_rmb (c : Nat) (x : Context) : (setCtx s c x).rmb = s.rmb := rfl
@[simp] theorem setCtx_sec (c : Nat) (x : Context) : (setCtx s c x).sec = s.sec := rfl
@[simp] theorem setCtx_clockNs (c : Nat) (x : Context) : (setCtx s c x).clockNs = s.clockNs := rfl
@[simp] theorem setCtx_power (c : Nat) (x : Context) : (setCtx s c x).power = s.power := rfl

@[simp] theorem modH_eq (lh : Nat) (f : Hamper → Hamper) : modH s lh f = setH s lh (f (getH s lh)) := rfl
@[simp] theorem modCore_eq (lh : Nat) (f : Core → Core) :
    modCore s lh f = setH s lh { getH s lh with core := f (getH s lh).core } := rfl
@[simp] theorem modCtx_eq (c : Nat) (f : Context → Context) : modCtx s c f = setCtx s c (f (getCtx s c)) := rfl

@[simp] theorem getH_setReg (bank off v lh : Nat) : getH (setReg s bank off v) lh = getH s lh := rfl
@[simp] theorem getH_setFlags (page lh : Nat) (f : PageFlags) : getH (setFlags s page f) lh = getH s lh := rfl
@[simp] theorem getH_setCtx (c lh : Nat) (x : Context) : getH (setCtx s c x) lh = getH s lh := rfl
@[simp] theorem getCtx_setReg (bank off v c : Nat) : getCtx (setReg s bank off v) c = getCtx s c := rfl
@[simp] theorem getCtx_setFlags (page c : Nat) (f : PageFlags) : getCtx (setFlags s page f) c = getCtx s c := rfl
@[simp] theorem getCtx_setH (lh c : Nat) (h : Hamper) : getCtx (setH s lh h) c = getCtx s c := rfl
@[simp] theorem getReg_setFlags (page bank off : Nat) (f : PageFlags) : getReg (setFlags s page f) bank off = getReg s bank off := rfl
@[simp] theorem getReg_setH (lh bank off : Nat) (h : Hamper) : getReg (setH s lh h) bank off = getReg s bank off := rfl
@[simp] theorem getReg_setCtx (c bank off : Nat) (x : Context) : getReg (setCtx s c x) bank off = getReg s bank off := rfl
@[simp] theorem getFlags_setReg (bank off v page : Nat) : getFlags (setReg s bank off v) page = getFlags s page := rfl
@[simp] theorem getFlags_setH (lh page : Nat) (h : Hamper) : getFlags (setH s lh h) page = getFlags s page := rfl
@[simp] theorem getFlags_setCtx (c page : Nat) (x : Context) : getFlags (setCtx s c x) page = getFlags s page := rfl
@[simp] theorem beatOf_setReg (bank off v lh : Nat) : beatOf (setReg s bank off v) lh = beatOf s lh := rfl
@[simp] theorem beatOf_setH (l lh : Nat) (h : Hamper) : beatOf (setH s l h) lh = beatOf s lh := rfl

/-- A hamper written is the hamper read. -/
theorem getH_setH {lh : Nat} (h : Hamper) (hl : lh < 48) : getH (setH s lh h) lh = h := by
  simp [getH, setH, hl]

@[simp] theorem getH_setH_fin (lh : Fin 48) (h : Hamper) : getH (setH s lh h) lh = h := getH_setH s h lh.isLt

/-- Writing a hamper leaves the others alone. -/
theorem getH_setH_ne {lh l : Nat} (h : Hamper) (hl : l ≠ lh) : getH (setH s lh h) l = getH s l := by
  simp only [getH, setH]
  rw [Vector.getElem?_setIfInBounds_ne (Ne.symm hl)]

@[simp] theorem setH_setH (lh : Nat) (h k : Hamper) : setH (setH s lh h) lh k = setH s lh k := by
  simp [setH, Vector.setIfInBounds]

/-- A context written is the context read. -/
@[simp] theorem getCtx_setCtx_fin (c : Fin 16) (x : Context) : getCtx (setCtx s c x) c = x := by
  simp [getCtx, setCtx]

theorem getCtx_setCtx_ne {c d : Nat} (x : Context) (h : d ≠ c) : getCtx (setCtx s c x) d = getCtx s d := by
  simp only [getCtx, setCtx]
  rw [Vector.getElem?_setIfInBounds_ne (Ne.symm h)]

/-- A register written is the register read. -/
theorem getReg_setReg_self (h : rising s.regs = true) (bank off v : Nat) : getReg (setReg s bank off v) bank off = v :=
  sparseGet_set_self _ h _ _

/-- Writing a register leaves the others alone. -/
theorem getReg_setReg_ne (h : rising s.regs = true) {bank off b o : Nat} (v : Nat) (hk : regKey b o ≠ regKey bank off) :
    getReg (setReg s bank off v) b o = getReg s b o :=
  sparseGet_set_ne _ _ h v hk

theorem setReg_rising (h : rising s.regs = true) (bank off v : Nat) : rising (setReg s bank off v).regs = true :=
  sparseSet_rising0 _ h _ _

/-- The flags of a page written are the flags read. -/
theorem getFlags_setFlags_self (h : rising s.pages = true) (page : Nat) (f : PageFlags) : getFlags (setFlags s page f) page = f :=
  sparseGet_set_self _ h _ _

theorem getFlags_setFlags_ne (h : rising s.pages = true) {page k : Nat} (f : PageFlags) (hk : k ≠ page) :
    getFlags (setFlags s page f) k = getFlags s k := sparseGet_set_ne _ _ h f hk

/-- The tables of a safe state. -/
theorem safe_tables {s : State} (h : s.safe = true) : Memory.wf s.mem = true ∧ rising s.regs = true ∧ rising s.flash.regs = true ∧
    rising s.pages = true ∧ beatsClose s.dies = true := by
  simp only [State.safe, State.wf, Bool.and_eq_true] at h
  exact ⟨h.1.1.1.1.1.1.1, h.1.1.1.1.1.1.2, h.1.1.1.1.1.2, sparseWfFrom_rising h.1.1.1.1.2, h.2⟩

end Sys2Proof.Machine
end

