-- ==== Sys2Proof/Laws/Core.lean ====
section
/-!
SUPPORT. Laws/Core.lean: what the shared operations of the control core can do: an instruction that may issue is counted and moves the core
on, one that may not issue changes nothing, and one that meets a pending result is held (R151, R153).
-/
namespace Sys2Proof.Machine

theorem regKey_ne {b o b' o' : Nat} (ho : o < 0x1000) (ho' : o' < 0x1000) (h : (b, o) ≠ (b', o')) : regKey b o ≠ regKey b' o' := by
  unfold regKey
  intro he
  apply h
  have : b = b' ∧ o = o' := by omega
  rw [this.1, this.2]

/-- Counting on in a register leaves the other fields alone. -/
theorem countReg_fields (s : State) (bank off n : Nat) : countReg s bank off n = { s with regs := (countReg s bank off n).regs } := by
  unfold countReg
  split <;> rfl

theorem getH_countReg (s : State) (bank off n lh : Nat) : getH (countReg s bank off n) lh = getH s lh := by
  rw [countReg_fields]; rfl

theorem beatOf_countReg (s : State) (bank off n lh : Nat) : beatOf (countReg s bank off n) lh = beatOf s lh := by
  rw [countReg_fields]; rfl

theorem countReg_rising {s : State} (h : rising s.regs = true) (bank off n : Nat) : rising (countReg s bank off n).regs = true := by
  unfold countReg
  split
  · exact h
  · exact setReg_rising s h _ _ _

theorem getReg_countReg_self {s : State} (h : rising s.regs = true) (bank off : Nat) {n : Nat} (hn : n ≠ 0) :
    getReg (countReg s bank off n) bank off = satAdd (regWidth bank off) (getReg s bank off) n := by
  unfold countReg
  rw [if_neg hn, getReg_setReg_self s h]

theorem getReg_countReg_ne {s : State} (h : rising s.regs = true) {bank off b o : Nat} (n : Nat) (hk : regKey b o ≠ regKey bank off) :
    getReg (countReg s bank off n) b o = getReg s b o := by
  unfold countReg
  split
  · rfl
  · exact getReg_setReg_ne s h _ hk

/-- An instruction that may issue: it is counted, the core moves on, and its effect follows (R151). -/
theorem issue_ready {s : State} {lh : Nat} {named : List (Fin 32)} (f : State → State) (hc : canIssue s lh = true)
    (hn : ∀ r ∈ named, isPending (getH s lh).core r = false) :
    issue s lh named f = f (modCore (countLh s lh 0 Reg.hamIssued 1) lh (advance (beatOf s lh))) := by
  have h1 : named.any (isPending (getH s lh).core) = false := by
    rw [List.any_eq_false]; intro r hr; rw [hn r hr]; exact Bool.false_ne_true
  unfold issue
  rw [hc, h1]; rfl

/-- An instruction whose beat it is not changes nothing (R151). -/
theorem issue_notNow {s : State} {lh : Nat} {named : List (Fin 32)} (f : State → State) (hc : canIssue s lh = false) :
    issue s lh named f = s := by
  unfold issue
  rw [hc]; rfl

/-- An instruction that meets a pending result is held for the beat (R153). -/
theorem issue_held {s : State} {lh : Nat} {named : List (Fin 32)} (f : State → State) (hc : canIssue s lh = true)
    (hn : named.any (isPending (getH s lh).core) = true) :
    issue s lh named f = modCore s lh (fun c => { c with interlocked := true }) := by
  unfold issue
  rw [hc, hn]; rfl

/-- The state in which the effect of an issued instruction runs. -/
theorem issueCore_ready {s : State} {lh : Fin 48} {named : List (Fin 32)} (f : Core → Core) (hc : canIssue s lh = true)
    (hn : ∀ r ∈ named, isPending (getH s lh).core r = false) :
    issueCore s lh named f =
      setH (countLh s lh 0 Reg.hamIssued 1) lh { getH s lh with core := f (advance (beatOf s lh) (getH s lh).core) } := by
  unfold issueCore
  rw [issue_ready _ hc hn]
  simp [countLh, getH_countReg]

/-- Reading a scalar register after writing one (R149). -/
theorem sreg_setSreg (c : Core) (rd r : Fin 32) (v : Word) :
    sreg (setSreg c rd v) r = if r = 0 then 0 else if r = rd then v else sreg c r := by
  unfold sreg setSreg
  by_cases hr : r = 0
  · simp [hr]
  · by_cases hd : rd = 0
    · have : r ≠ rd := fun h => hr (h.trans hd)
      simp [hr, hd]
    · by_cases h : r = rd
      · subst h; simp [hr]
      · have h2 : rd.val ≠ r.val := fun e => h (Fin.ext e.symm)
        simp [hr, hd, h, h2]

@[simp] theorem sreg_advance (t : Nat) (c : Core) (r : Fin 32) : sreg (advance t c) r = sreg c r := rfl

/-- Writing a scalar register changes the registers alone. -/
theorem setSreg_core (c : Core) (rd : Fin 32) (v : Word) : setSreg c rd v = { c with sregs := (setSreg c rd v).sregs } := by
  unfold setSreg
  split <;> rfl

end Sys2Proof.Machine
end

