-- ==== Sys2Proof/Laws/Kept.lean ====
section
/-!
SUPPORT. Laws/Kept.lean: what every operation of the module keeps: the queue of waiting commands, the part (fuse map, grade, serial
number), the canonical forms of the tables, and the beats of the dies (BEAT_ADVANCE and the cold resets apart). One lemma per operation follows in
Laws/Kept*.lean; here are the lemmas on updates of the state, folds and the primitive operations.
-/
namespace Sys2Proof.Machine

/-- A state with queue q, part p, canonical tables and beats that D describes. -/
def Kept (q : List Instr) (p : Part) (D : Vector Nat 4 → Prop) (s : State) : Prop :=
  s.pending = q ∧ s.part = p ∧ s.wf = true ∧ D s.dies

theorem wf_iff (s : State) : s.wf = true ↔
    Memory.wf s.mem = true ∧ rising s.regs = true ∧ rising s.flash.regs = true ∧ sparseWf PageFlags.reset s.pages = true ∧
    sparseWf 0 s.wheels = true ∧ rising s.tly.tallies = true ∧ rising s.tly.table = true := by
  simp only [State.wf, Bool.and_eq_true, and_assoc]

variable {q : List Instr} {p : Part} {D : Vector Nat 4 → Prop}

theorem Kept.mem_wf {s : State} (h : Kept q p D s) : Memory.wf s.mem = true := ((wf_iff s).1 h.2.2.1).1
theorem Kept.regs_rising {s : State} (h : Kept q p D s) : rising s.regs = true := ((wf_iff s).1 h.2.2.1).2.1
theorem Kept.flash_rising {s : State} (h : Kept q p D s) : rising s.flash.regs = true := ((wf_iff s).1 h.2.2.1).2.2.1
theorem Kept.pages_wf {s : State} (h : Kept q p D s) : sparseWf PageFlags.reset s.pages = true := ((wf_iff s).1 h.2.2.1).2.2.2.1
theorem Kept.wheels_wf {s : State} (h : Kept q p D s) : sparseWf 0 s.wheels = true := ((wf_iff s).1 h.2.2.1).2.2.2.2.1
theorem Kept.tallies_rising {s : State} (h : Kept q p D s) : rising s.tly.tallies = true := ((wf_iff s).1 h.2.2.1).2.2.2.2.2.1
theorem Kept.table_rising {s : State} (h : Kept q p D s) : rising s.tly.table = true := ((wf_iff s).1 h.2.2.1).2.2.2.2.2.2
theorem Kept.beats {s : State} (h : Kept q p D s) : D s.dies := h.2.2.2

/-- A state whose queue, part, tables and beats are good is kept. -/
theorem kept_of {D' : Vector Nat 4 → Prop} {s t : State} (h : Kept q p D s) (h1 : t.pending = s.pending) (h2 : t.part = s.part)
    (h3 : Memory.wf t.mem = true) (h4 : rising t.regs = true) (h5 : rising t.flash.regs = true)
    (h6 : sparseWf PageFlags.reset t.pages = true) (h7 : sparseWf 0 t.wheels = true)
    (h9 : rising t.tly.tallies = true ∧ rising t.tly.table = true) (h8 : D' t.dies) : Kept q p D' t :=
  ⟨h1.trans h.1, h2.trans h.2.1, (wf_iff t).2 ⟨h3, h4, h5, h6, h7, h9⟩, h8⟩

theorem Kept.tly_rising {s : State} (h : Kept q p D s) : rising s.tly.tallies = true ∧ rising s.tly.table = true :=
  ⟨h.tallies_rising, h.table_rising⟩

/-- An update of any other fields of the state. -/
theorem kept_upd {s : State} {fr hz ha st us un uc le dm me cx im lo fl hb lp ar po hs ns sk ev es ob an hh sc rm se ck pw}
    (h : Kept q p D s) :
    Kept q p D (State.mk s.pending fr s.part s.flash s.mem s.regs s.pages s.wheels hz s.dies ha st us un uc le s.tly dm me cx im lo fl hb lp ar po
      hs ns sk ev es ob an hh sc rm se ck pw) := h

/-- An update of the tally unit that leaves its tables, and of any other fields. -/
theorem kept_updTly {s : State} {fr hz ha st us un uc le sl ms se tk ln dm me cx im lo fl hb lp ar po hs ns sk ev es ob an hh sc rm sc' ck pw}
    (h : Kept q p D s) :
    Kept q p D (State.mk s.pending fr s.part s.flash s.mem s.regs s.pages s.wheels hz s.dies ha st us un uc le
      ⟨s.tly.tallies, sl, s.tly.table, ms, se, tk, ln⟩ dm me cx im lo fl hb lp ar po hs ns sk ev es ob an hh sc rm sc' ck pw) := h

/-- An update of flash that leaves its registers. -/
theorem kept_flash {s : State} {rows pcs lanes faults tracks flag trip writes} (h : Kept q p D s) :
    Kept q p D { s with flash := ⟨rows, pcs, lanes, faults, tracks, flag, trip, s.flash.regs, writes⟩ } := h

/-- An update of memory through one of its operations. -/
theorem kept_mem {s : State} {m : List (Nat × Byte)} (h : Kept q p D s) (hm : Memory.wf m = true) : Kept q p D { s with mem := m } :=
  kept_of h rfl rfl hm h.regs_rising h.flash_rising h.pages_wf h.wheels_wf h.tly_rising h.beats

theorem kept_ite {c : Prop} [Decidable c] {a b : State} (ha : Kept q p D a) (hb : Kept q p D b) : Kept q p D (if c then a else b) := by
  split
  · exact ha
  · exact hb

theorem kept_dite {c : Prop} [Decidable c] {a : c → State} {b : ¬c → State} (ha : ∀ x, Kept q p D (a x)) (hb : ∀ x, Kept q p D (b x)) :
    Kept q p D (if x : c then a x else b x) := by
  split
  · exact ha _
  · exact hb _

theorem kept_foldl {β : Type} {f : State → β → State} {l : List β} {s : State} (h : Kept q p D s)
    (hf : ∀ t x, Kept q p D t → Kept q p D (f t x)) : Kept q p D (l.foldl f s) := by
  induction l generalizing s with
  | nil => exact h
  | cons x l ih => exact ih (hf s x h)

/-- What an operation that may find no next state gives. -/
def KeptSome (q : List Instr) (p : Part) (D : Vector Nat 4 → Prop) (o : Option State) : Prop := ∀ t, o = some t → Kept q p D t

theorem keptSome_some {s : State} (h : Kept q p D s) : KeptSome q p D (some s) := fun _ ht => Option.some.inj ht ▸ h

theorem keptSome_none : KeptSome q p D none := fun _ ht => nomatch ht

theorem keptSome_ite {c : Prop} [Decidable c] {a b : Option State} (ha : KeptSome q p D a) (hb : KeptSome q p D b) :
    KeptSome q p D (if c then a else b) := by
  split
  · exact ha
  · exact hb

/-- A fold over a pair whose first part is a state. -/
theorem kept_foldl_fst {β γ : Type} {f : State × γ → β → State × γ} {l : List β} {x : State × γ} (h : Kept q p D x.1)
    (hf : ∀ y b, Kept q p D y.1 → Kept q p D (f y b).1) : Kept q p D (l.foldl f x).1 := by
  induction l generalizing x with
  | nil => exact h
  | cons b l ih => exact ih (hf x b h)

end Sys2Proof.Machine
end

