-- ==== Sys2Proof/Laws/KeptOps.lean ====
section
/-!
SUPPORT. Laws/KeptOps.lean: every operation of Machine/Ops.lean keeps the queue, the part, the canonical tables and the beats (Laws/Kept.lean).
-/
namespace Sys2Proof.Machine

variable {q : List Instr} {p : Part} {D : Vector Nat 4 → Prop}

theorem draw_kept {s : State} (h : Kept q p D s) : Kept q p D (draw s).2 := h

theorem drawBytes_kept {n : Nat} {s : State} (h : Kept q p D s) : Kept q p D (drawBytes n s).2 := h

theorem setReg_kept {s : State} {bank off v : Nat} (h : Kept q p D s) : Kept q p D (setReg s bank off v) :=
  kept_of h rfl rfl h.mem_wf (sparseSet_rising0 _ h.regs_rising _ _) h.flash_rising h.pages_wf h.wheels_wf h.tly_rising h.beats

theorem countReg_kept {s : State} {bank : Nat} {off : Nat} {n : Nat} (h : Kept q p D s) : Kept q p D (countReg s bank off n) := by
  unfold countReg
  exact (kept_ite h (setReg_kept h))

theorem countLh_kept {s : State} {lh : Nat} {sub : Nat} {off : Nat} {n : Nat} (h : Kept q p D s) : Kept q p D (countLh s lh sub off n) := by
  unfold countLh
  exact (countReg_kept h)

theorem setFlags_kept {s : State} {page : Nat} {f : PageFlags} (h : Kept q p D s) : Kept q p D (setFlags s page f) :=
  kept_of h rfl rfl h.mem_wf h.regs_rising h.flash_rising (sparseSet_wf _ h.pages_wf _ _) h.wheels_wf h.tly_rising h.beats

theorem setH_kept {s : State} {lh : Nat} {a2 : Hamper} (h : Kept q p D s) : Kept q p D (setH s lh a2) := by
  unfold setH
  exact (kept_upd h)

theorem modH_kept {s : State} {lh : Nat} {f : Hamper → Hamper} (h : Kept q p D s) : Kept q p D (modH s lh f) := by
  unfold modH
  exact (setH_kept h)

theorem modCore_kept {s : State} {lh : Nat} {f : Core → Core} (h : Kept q p D s) : Kept q p D (modCore s lh f) := by
  unfold modCore
  exact (modH_kept h)

theorem modFrame_kept {s : State} {lh : Nat} {f : Nat} {g : Frame → Frame} (h : Kept q p D s) : Kept q p D (modFrame s lh f g) := by
  unfold modFrame
  exact (modH_kept h)

theorem setCtx_kept {s : State} {c : Nat} {a2 : Context} (h : Kept q p D s) : Kept q p D (setCtx s c a2) := by
  unfold setCtx
  exact (kept_upd h)

theorem modCtx_kept {s : State} {c : Nat} {f : Context → Context} (h : Kept q p D s) : Kept q p D (modCtx s c f) := by
  unfold modCtx
  exact (setCtx_kept h)

end Sys2Proof.Machine
end

