-- ==== Sys2Proof/Laws/KeptFlags.lean ====
section
/-!
SUPPORT. Laws/KeptFlags.lean: every operation of Machine/Flags.lean keeps the queue, the part, the canonical tables and the beats (Laws/Kept.lean).
-/
namespace Sys2Proof.Machine

variable {q : List Instr} {p : Part} {D : Vector Nat 4 → Prop}

theorem setErr_kept {s : State} {page : Nat} {b : Nat} (h : Kept q p D s) : Kept q p D (setErr s page b) := by
  unfold setErr
  exact (countReg_kept (setReg_kept h))

theorem setErrIf_kept {c : Bool} {s : State} {page : Nat} {b : Nat} (h : Kept q p D s) : Kept q p D (setErrIf c s page b) := by
  unfold setErrIf
  exact (kept_ite (setErr_kept h) h)

theorem setErrLh_kept {s : State} {lh : Nat} {sub : Nat} {b : Nat} (h : Kept q p D s) : Kept q p D (setErrLh s lh sub b) := by
  unfold setErrLh
  exact (setErr_kept h)

theorem expertOnly_kept {s : State} {page : Nat} {f : State → State} (h : Kept q p D s) (hf : ∀ t, Kept q p D t → Kept q p D (f t)) : Kept q p D (expertOnly s page f) := by
  unfold expertOnly
  exact (kept_ite (hf _ h) (setErr_kept h))

theorem clearErr_kept {s : State} {page : Nat} {v : Nat} (h : Kept q p D s) : Kept q p D (clearErr s page v) := by
  unfold clearErr
  exact (setReg_kept h)

theorem setHostSess_kept {s : State} {a1 : HostSession} (h : Kept q p D s) : Kept q p D (setHostSess s a1) := by
  unfold setHostSess
  exact (kept_upd h)

theorem hostPush_kept {s : State} {a1 : HostSession} {m : OutMsg} (h : Kept q p D s) : Kept q p D (hostPush s a1 m) := by
  unfold hostPush
  exact (kept_ite (countReg_kept (kept_upd (setHostSess_kept h))) (setHostSess_kept h))

theorem hostSend_kept {s : State} {session : Nat} {m : OutMsg} (h : Kept q p D s) : Kept q p D (hostSend s session m) := by
  unfold hostSend
  split
  · exact (hostPush_kept h)
  · exact h

theorem setNearSess_kept {s : State} {a1 : NearSession} (h : Kept q p D s) : Kept q p D (setNearSess s a1) := by
  unfold setNearSess
  exact (kept_upd h)

theorem nearPush_kept {s : State} {a1 : NearSession} {m : OutMsg} (h : Kept q p D s) : Kept q p D (nearPush s a1 m) := by
  unfold nearPush
  exact (kept_ite (countReg_kept (kept_upd (setNearSess_kept h))) (setNearSess_kept h))

theorem nearSend_kept {s : State} {module : Nat} {ctx : Nat} {m : OutMsg} (h : Kept q p D s) : Kept q p D (nearSend s module ctx m) := by
  unfold nearSend
  split
  · exact (kept_ite (nearPush_kept h) h)
  · exact h

theorem nearDrain_kept {n : Nat} {s : State} {module : Nat} (h : Kept q p D s) : Kept q p D (nearDrain n s module) := by
  induction n generalizing s with
  | zero => exact h
  | succ n ih =>
    unfold nearDrain
    split
    · split
      · refine kept_ite (ih ?_) h
        split
        · exact setNearSess_kept (nearPush_kept h)
        · exact nearPush_kept h
      · exact h
    · exact h

theorem hostDrain_kept {n : Nat} {s : State} {session : Nat} (h : Kept q p D s) : Kept q p D (hostDrain n s session) := by
  induction n generalizing s with
  | zero => exact h
  | succ n ih =>
    unfold hostDrain
    split
    · split
      · exact kept_ite (ih (hostPush_kept h)) h
      · exact h
    · exact h

theorem sendEvent_kept {s : State} {e : Event} (h : Kept q p D s) : Kept q p D (sendEvent s e) := by
  unfold sendEvent
  split
  · exact h
  · exact (kept_ite (kept_upd (hostPush_kept h)) h)

theorem sendEvents_kept {s : State} (h : Kept q p D s) : Kept q p D (sendEvents s) := by
  unfold sendEvents
  exact (kept_foldl h (fun _ _ h1 => (kept_ite (sendEvent_kept h1) h1)))

theorem emit_kept {s : State} {code : Nat} {page : Nat} {data : List Byte} (h : Kept q p D s) : Kept q p D (emit s code page data) := by
  unfold emit
  exact (kept_ite h (kept_ite (countReg_kept (kept_upd h)) (sendEvent_kept (kept_upd (kept_upd h)))))

end Sys2Proof.Machine
end

