-- ==== Sys2Proof/Laws/KeptSweepOps.lean ====
section
/-!
SUPPORT. Laws/KeptSweepOps.lean: every operation of Machine/SweepOps.lean keeps the queue, the part, the canonical tables and the beats (Laws/Kept.lean).
-/
namespace Sys2Proof.Machine

variable {q : List Instr} {p : Part} {D : Vector Nat 4 → Prop}

theorem setUnit_kept {s : State} {u : Nat} {a2 : UpdUnit} (h : Kept q p D s) : Kept q p D (setUnit s u a2) := by
  unfold setUnit
  exact (kept_upd h)

theorem writeRecord_kept {s : State} {u : Nat} {state : Nat} (h : Kept q p D s) : Kept q p D (writeRecord s u state) := by
  unfold writeRecord
  split
  · exact h
  · exact (setUnit_kept (kept_mem h (memWrite_wf (Kept.mem_wf h) _ _)))

theorem writeHeader_kept {s : State} {state : Nat} (h : Kept q p D s) : Kept q p D (writeHeader s state) := by
  unfold writeHeader
  split
  · exact h
  · exact (kept_mem h (memWrite_wf (Kept.mem_wf h) _ _))

theorem stopUnit_kept {s : State} {u : Nat} (h : Kept q p D s) : Kept q p D (stopUnit s u) := by
  unfold stopUnit
  exact (kept_ite (setUnit_kept (writeRecord_kept h)) h)

theorem sweepPartial_kept {s : State} (h : Kept q p D s) : Kept q p D (sweepPartial s) := by
  unfold sweepPartial
  exact (kept_upd (writeHeader_kept h))

theorem stopSweep_kept {s : State} (h : Kept q p D s) : Kept q p D (stopSweep s) := by
  unfold stopSweep
  exact (kept_ite (sweepPartial_kept (kept_foldl h (fun _ _ h1 => (stopUnit_kept h1)))) h)

end Sys2Proof.Machine
end

