-- ==== Sys2Proof/Laws/KeptTally.lean ====
section
/-!
SUPPORT. Laws/KeptTally.lean: every operation of Machine/Tally.lean keeps the queue, the part, the canonical tables and the beats (Laws/Kept.lean).
-/
namespace Sys2Proof.Machine

variable {q : List Instr} {p : Part} {D : Vector Nat 4 → Prop}

theorem setTally_kept {s : State} {n : Nat} {t : Tally} (h : Kept q p D s) : Kept q p D (setTally s n t) :=
  kept_of h rfl rfl h.mem_wf h.regs_rising h.flash_rising h.pages_wf h.wheels_wf ⟨sparseSet_rising0 _ h.tallies_rising _ _, h.table_rising⟩ h.beats

theorem setSlot_kept {s : State} {i : Nat} {b : BarSlot} (h : Kept q p D s) : Kept q p D (setSlot s i b) := by
  unfold setSlot
  exact (kept_updTly h)

theorem tallyErr_kept {s : State} {b : Nat} {ctx : Nat} {vid : Nat} {module : Nat} {cause : Nat} {slot : Nat} (h : Kept q p D s) : Kept q p D (tallyErr s b ctx vid module cause slot) := by
  unfold tallyErr
  exact (emit_kept (setReg_kept (setErr_kept h)))

theorem toHost_kept {s : State} {m : OutMsg} (h : Kept q p D s) : Kept q p D (toHost s m) := by
  unfold toHost
  split
  · exact (hostPush_kept h)
  · exact (by
  split
  · exact (hostPush_kept h)
  · exact (kept_upd h))

theorem release_kept {s : State} {w : Waiter} {abandoned : Bool} {count : Nat} (h : Kept q p D s) : Kept q p D (release s w abandoned count) := by
  unfold release
  try dsimp only
  split
  · exact (modCore_kept (countReg_kept h))
  · exact (emit_kept (countReg_kept h))
  · exact (nearSend_kept (countReg_kept h))

theorem releaseAll_kept {s : State} {ws : List Waiter} {abandoned : Bool} {count : Nat} (h : Kept q p D s) : Kept q p D (releaseAll s ws abandoned count) := by
  unfold releaseAll
  exact (kept_foldl h (fun _ _ h1 => (release_kept h1)))

theorem serve_kept {s : State} {a1 : Nat} (h : Kept q p D s) : Kept q p D (serve s a1) := by
  unfold serve
  exact (kept_foldl (releaseAll_kept (setTally_kept h)) (fun _ _ h1 => (release_kept h1)))

theorem signalAt_kept {s : State} {a1 : Nat} {n : Nat} {ctx : Nat} {vid : Nat} {module : Nat} (h : Kept q p D s) : Kept q p D (signalAt s a1 n ctx vid module) := by
  unfold signalAt
  exact (serve_kept (setTally_kept (kept_ite (tallyErr_kept (countReg_kept h)) (countReg_kept h))))

theorem observeAt_kept {s : State} {a1 : Nat} {w : Waiter} (h : Kept q p D s) : Kept q p D (observeAt s a1 w) := by
  unfold observeAt
  exact (kept_ite (release_kept h) (setTally_kept h))

theorem consumeAt_kept {s : State} {a1 : Nat} {w : Waiter} (h : Kept q p D s) : Kept q p D (consumeAt s a1 w) := by
  unfold consumeAt
  exact (kept_ite (release_kept h) (kept_ite (release_kept (setTally_kept h)) (setTally_kept h)))

theorem loseSignal_kept {s : State} {ctx : Nat} {vid : Nat} {module : Nat} (h : Kept q p D s) : Kept q p D (loseSignal s ctx vid module) := by
  unfold loseSignal
  exact (tallyErr_kept (countReg_kept h))

theorem enqueue_kept {s : State} {m : TallyMsg} (h : Kept q p D s) : Kept q p D (enqueue s m) := by
  unfold enqueue
  exact (kept_updTly h)

theorem sendSignal_kept {s : State} {lh : Option Lh} {agent : Nat} {ctx : Nat} {vid : Nat} {n : Nat} {beat : Nat} (h : Kept q p D s) : Kept q p D (sendSignal s lh agent ctx vid n beat) := by
  unfold sendSignal
  try dsimp only
  split
  · exact (enqueue_kept h)
  · exact (kept_ite (nearSend_kept h) (loseSignal_kept h))
  · exact (toHost_kept h)
  · exact (tallyErr_kept h)

theorem abandonSlot_kept {s : State} {i : Nat} (h : Kept q p D s) : Kept q p D (abandonSlot s i) := by
  unfold abandonSlot
  exact (releaseAll_kept (setSlot_kept h))

theorem breakSlot_kept {s : State} {i : Nat} (h : Kept q p D s) : Kept q p D (breakSlot s i) := by
  unfold breakSlot
  exact (emit_kept (setSlot_kept (abandonSlot_kept h)))

theorem serveSlot_kept {n : Nat} {s : State} {i : Nat} (h : Kept q p D s) : Kept q p D (serveSlot n s i) := by
  induction n generalizing s with
  | zero => exact h
  | succ n ih =>
    unfold serveSlot
    exact kept_ite h (kept_ite (ih (releaseAll_kept (setSlot_kept (kept_ite (kept_foldl (setSlot_kept h) (fun _ _ h1 => nearSend_kept h1)) h))))
      (kept_ite (kept_foldl (setSlot_kept h) (fun _ _ h1 => nearSend_kept h1)) h))

theorem recordArrival_kept {s : State} {i party ctx vid : Nat} (h : Kept q p D s) : Kept q p D (recordArrival s i party ctx vid).1 := by
  unfold recordArrival
  simp only [apply_ite Prod.fst]
  exact kept_ite h (kept_ite (tallyErr_kept h) (kept_ite (setSlot_kept h) (kept_ite (setSlot_kept h) (tallyErr_kept h))))

theorem arriveCore_kept {s : State} {i : Nat} {lh : Lh} {dst : Fin 32} {wait : Bool} {ctx : Nat} {vid : Nat} (h : Kept q p D s) : Kept q p D (arriveCore s i lh dst wait ctx vid) := by
  unfold arriveCore
  try dsimp only
  split
  · exact (kept_ite (release_kept (recordArrival_kept h)) (modCore_kept (recordArrival_kept h)))
  · exact (serveSlot_kept (kept_ite (setSlot_kept (recordArrival_kept h)) (modCore_kept (recordArrival_kept h))))

theorem arriveHost_kept {s : State} {i : Nat} {ctx : Nat} {vid : Nat} (h : Kept q p D s) : Kept q p D (arriveHost s i ctx vid) := by
  unfold arriveHost
  exact (serveSlot_kept (recordArrival_kept h))

theorem arrivePeer_kept {s : State} {i : Nat} {module : Nat} {g : Nat} {ctx : Nat} {vid : Nat} (h : Kept q p D s) : Kept q p D (arrivePeer s i module g ctx vid) := by
  unfold arrivePeer
  exact (kept_ite h (kept_ite (serveSlot_kept (setSlot_kept h)) (kept_ite (kept_ite (breakSlot_kept (tallyErr_kept h)) (setSlot_kept h)) (breakSlot_kept (tallyErr_kept h)))))

theorem abandonTally_kept {s : State} {a1 : Nat} (h : Kept q p D s) : Kept q p D (abandonTally s a1) := by
  unfold abandonTally
  exact (releaseAll_kept (setTally_kept h))

theorem resetTally_kept {s : State} {a1 : Nat} (h : Kept q p D s) : Kept q p D (resetTally s a1) := by
  unfold resetTally
  exact (setTally_kept (abandonTally_kept h))

theorem resetSlot_kept {s : State} {i : Nat} (h : Kept q p D s) : Kept q p D (resetSlot s i) := by
  unfold resetSlot
  exact (setSlot_kept (abandonSlot_kept h))

theorem clearSlot_kept {s : State} {i : Nat} (h : Kept q p D s) : Kept q p D (clearSlot s i) := by
  unfold clearSlot
  exact (setSlot_kept (abandonSlot_kept h))

theorem tellAbandon_kept {s : State} {i : Nat} (h : Kept q p D s) : Kept q p D (tellAbandon s i) := by
  unfold tellAbandon
  exact (kept_ite h (kept_foldl h (fun _ _ h1 => (nearSend_kept h1))))

theorem dropSignals_kept {s : State} {c : Nat} (h : Kept q p D s) : Kept q p D (dropSignals s c) := by
  unfold dropSignals
  exact (countReg_kept (kept_updTly h))

theorem forgetSent_kept {s : State} {lh : Nat} (h : Kept q p D s) : Kept q p D (forgetSent s lh) := by
  unfold forgetSent
  exact (kept_updTly h)

theorem foldl_rising {α β : Type} {f : List (Nat × α) → β → List (Nat × α)} {l : List β} {m : List (Nat × α)}
    (h : rising m = true) (hf : ∀ m x, rising m = true → rising (f m x) = true) : rising (l.foldl f m) = true := by
  induction l generalizing m with
  | nil => exact h
  | cons x l ih => exact ih (hf m x h)

theorem withdrawWaits_kept {s : State} {lh : Nat} (h : Kept q p D s) : Kept q p D (withdrawWaits s lh) :=
  kept_of h rfl rfl h.mem_wf h.regs_rising h.flash_rising h.pages_wf h.wheels_wf
    ⟨foldl_rising h.tallies_rising (fun _ _ h1 => sparseSet_rising0 _ h1 _ _), h.table_rising⟩ h.beats

theorem loseModule_kept {s : State} {module : Nat} {lost : Nat} (h : Kept q p D s) : Kept q p D (loseModule s module lost) := by
  unfold loseModule
  exact (kept_foldl (kept_ite (tallyErr_kept (countReg_kept (kept_foldl (kept_updTly h) (fun _ _ h1 => (modCore_kept (countReg_kept h1)))))) (countReg_kept (kept_foldl (kept_updTly h) (fun _ _ h1 => (modCore_kept (countReg_kept h1)))))) (fun _ _ h1 => (kept_ite (breakSlot_kept h1) h1)))

end Sys2Proof.Machine
end

