-- ==== Sys2Proof/Laws/KeptFaults.lean ====
section
/-!
SUPPORT. Laws/KeptFaults.lean: every operation of Machine/Faults.lean keeps the queue, the part, the canonical tables and the beats (Laws/Kept.lean).
-/
namespace Sys2Proof.Machine

variable {q : List Instr} {p : Part} {D : Vector Nat 4 → Prop}

theorem stopIssue_kept {s : State} {lh : Nat} (h : Kept q p D s) : Kept q p D (stopIssue s lh) := by
  unfold stopIssue
  exact (modH_kept (forgetSent_kept h))

theorem stopContext_kept {s : State} {c : Nat} (h : Kept q p D s) : Kept q p D (stopContext s c) := by
  unfold stopContext
  exact (kept_foldl h (fun _ _ h1 => (stopIssue_kept h1)))

theorem discardAttempt_kept {s : State} (h : Kept q p D s) : Kept q p D (discardAttempt s) := by
  unfold discardAttempt
  exact (setErrIf_kept (kept_upd h))

theorem sendNotices_kept {s : State} {ty : Nat} {ctx : Nat} (h : Kept q p D s) : Kept q p D (sendNotices s ty ctx) := by
  unfold sendNotices
  exact (kept_foldl h (fun _ _ h1 => (nearSend_kept h1)))

theorem beginRestart_kept {s : State} {c : Nat} {goal : Nat} (h : Kept q p D s) : Kept q p D (beginRestart s c goal) := by
  unfold beginRestart
  exact (kept_ite (modCtx_kept (stopContext_kept h)) (kept_ite (modCtx_kept (kept_foldl (emit_kept (setErr_kept (stopContext_kept h))) (fun _ _ h1 => (modCore_kept h1)))) (kept_upd (stopContext_kept h))))

theorem refuseSeal_kept {s : State} {ctx : Option Nat} {goal : Nat} {restart : Bool} (h : Kept q p D s) : Kept q p D (refuseSeal s ctx goal restart) := by
  unfold refuseSeal
  try dsimp only
  split
  · exact (kept_ite (beginRestart_kept (kept_upd (sendNotices_kept (discardAttempt_kept (emit_kept (countReg_kept (kept_upd h))))))) (kept_upd (sendNotices_kept (discardAttempt_kept (emit_kept (countReg_kept (kept_upd h)))))))
  · exact (kept_upd (sendNotices_kept (discardAttempt_kept (emit_kept (countReg_kept (kept_upd h))))))

theorem withholdSeal_kept {s : State} {ctx : Option Nat} (h : Kept q p D s) : Kept q p D (withholdSeal s ctx) := by
  unfold withholdSeal
  exact (discardAttempt_kept (emit_kept (kept_upd h)))

theorem chargeSeal_kept {s : State} {ctx : Option Nat} (h : Kept q p D s) : Kept q p D (chargeSeal s ctx) := by
  unfold chargeSeal
  split
  · exact (refuseSeal_kept h)
  · exact (kept_upd h)
  · exact h

theorem chargeStash_kept {s : State} {ctx : Option Nat} (h : Kept q p D s) : Kept q p D (chargeStash s ctx) := by
  unfold chargeStash
  split
  · exact (withholdSeal_kept h)
  · exact (kept_upd h)
  · exact h

theorem faultCounted_kept {s : State} {u : Nat} {count : Nat} {threshold : Nat} (h : Kept q p D s) : Kept q p D (faultCounted s u count threshold) := by
  unfold faultCounted
  exact (emit_kept h)

theorem permanentFault_kept {s : State} {u : Nat} {kind : Nat} (h : Kept q p D s) : Kept q p D (permanentFault s u kind) := by
  unfold permanentFault
  exact (kept_foldl (kept_ite (stopSweep_kept (kept_upd (kept_ite (refuseSeal_kept (emit_kept (kept_foldl (kept_flash (setReg_kept h)) (fun _ _ h1 => (setFlags_kept h1))))) (emit_kept (kept_foldl (kept_flash (setReg_kept h)) (fun _ _ h1 => (setFlags_kept h1))))))) (kept_upd (kept_ite (refuseSeal_kept (emit_kept (kept_foldl (kept_flash (setReg_kept h)) (fun _ _ h1 => (setFlags_kept h1))))) (emit_kept (kept_foldl (kept_flash (setReg_kept h)) (fun _ _ h1 => (setFlags_kept h1))))))) (fun _ _ h1 => (kept_ite (stopContext_kept h1) h1)))

theorem recordEvent_kept {s : State} {u : Nat} (h : Kept q p D s) : Kept q p D (recordEvent s u) := by
  unfold recordEvent
  exact (kept_flash h)

theorem countFaultAs_kept {s : State} {u : Nat} {kind : Nat} (h : Kept q p D s) : Kept q p D (countFaultAs s u kind) := by
  unfold countFaultAs
  exact (kept_ite (permanentFault_kept (faultCounted_kept (recordEvent_kept h))) (faultCounted_kept (recordEvent_kept h)))

theorem countFault_kept {s : State} {u : Nat} (h : Kept q p D s) : Kept q p D (countFault s u) := by
  unfold countFault
  exact (countFaultAs_kept h)

theorem countPermanent_kept {s : State} {u : Nat} {kind : Nat} (h : Kept q p D s) : Kept q p D (countPermanent s u kind) := by
  unfold countPermanent
  exact (permanentFault_kept (faultCounted_kept (recordEvent_kept h)))

theorem residueFailure_kept {s : State} {u : Nat} {ctx : Option Nat} (h : Kept q p D s) : Kept q p D (residueFailure s u ctx) := by
  unfold residueFailure
  exact (countFault_kept (chargeSeal_kept h))

theorem hamperFailure_kept {s : State} {lh : Nat} (h : Kept q p D s) : Kept q p D (hamperFailure s lh) := by
  unfold hamperFailure
  exact (residueFailure_kept h)

theorem loadCheckFailure_kept {s : State} {lh : Nat} (h : Kept q p D s) : Kept q p D (loadCheckFailure s lh) := by
  unfold loadCheckFailure
  exact (hamperFailure_kept (countReg_kept h))

end Sys2Proof.Machine
end

