-- ==== Sys2Proof/Laws/KeptMemory.lean ====
section
/-!
SUPPORT. Laws/KeptMemory.lean: every operation of Machine/Memory.lean keeps the queue, the part, the canonical tables and the beats (Laws/Kept.lean).
-/
namespace Sys2Proof.Machine

variable {q : List Instr} {p : Part} {D : Vector Nat 4 → Prop}

theorem setCtl_kept {s : State} {c : Bool × Nat} {m : MemCtl} (h : Kept q p D s) : Kept q p D (setCtl s c m) := by
  unfold setCtl
  exact (kept_ite (kept_upd h) (kept_upd h))

theorem clearPoison_kept {s : State} {a : Nat} {n : Nat} (h : Kept q p D s) : Kept q p D (clearPoison s a n) := by
  unfold clearPoison
  exact (kept_upd h)

theorem storeBytes_kept {s : State} {a : Nat} {bs : List Byte} (h : Kept q p D s) : Kept q p D (storeBytes s a bs) := by
  unfold storeBytes
  exact (clearPoison_kept (kept_mem h (memWrite_wf (Kept.mem_wf h) _ _)))

theorem requesterFailure_kept {s : State} {rq : Requester} {a : Nat} (h : Kept q p D s) : Kept q p D (requesterFailure s rq a) := by
  unfold requesterFailure
  split
  · exact (hamperFailure_kept h)
  · exact h
  · exact (residueFailure_kept h)
  · exact (residueFailure_kept h)

theorem refugeFull_kept {s : State} {c : Nat} (h : Kept q p D s) : Kept q p D (refugeFull s c) := by
  unfold refugeFull
  exact (countPermanent_kept (setErr_kept h))

theorem retirePc_kept {s : State} {c : Nat} {a2 : Nat} (h : Kept q p D s) : Kept q p D (retirePc s c a2) := by
  unfold retirePc
  split
  · exact (refugeFull_kept h)
  · exact (kept_flash (setCtl_kept h))

theorem retireRow_kept {s : State} {c : Nat} {row : Nat} (h : Kept q p D s) : Kept q p D (retireRow s c row) := by
  unfold retireRow
  exact (kept_ite (retirePc_kept h) (kept_ite (refugeFull_kept h) (setCtl_kept h)))

theorem retireCounted_kept {s : State} {c : Nat} {row : Nat} (h : Kept q p D s) : Kept q p D (retireCounted s c row) := by
  unfold retireCounted
  exact (retireRow_kept (faultCounted_kept h))

theorem repairRow_kept {s : State} {c : Nat} {row : Nat} (h : Kept q p D s) : Kept q p D (repairRow s c row) := by
  unfold repairRow
  exact (kept_ite (countPermanent_kept (emit_kept (setErr_kept (setCtl_kept h)))) (setCtl_kept h))

theorem logRow_kept {s : State} {c : Bool × Nat} {row : Nat} {due : Bool} (h : Kept q p D s) : Kept q p D (logRow s c row due) := by
  unfold logRow
  exact (kept_flash h)

theorem correctable_kept {s : State} {a : Nat} (h : Kept q p D s) : Kept q p D (correctable s a) := by
  unfold correctable
  exact (kept_ite (setReg_kept (countReg_kept h)) (kept_ite (kept_ite (retireCounted_kept (setCtl_kept (kept_ite (faultCounted_kept (logRow_kept (setReg_kept (countReg_kept h)))) (logRow_kept (setReg_kept (countReg_kept h)))))) (repairRow_kept (setCtl_kept (kept_ite (faultCounted_kept (logRow_kept (setReg_kept (countReg_kept h)))) (logRow_kept (setReg_kept (countReg_kept h))))))) (setCtl_kept (kept_ite (faultCounted_kept (logRow_kept (setReg_kept (countReg_kept h)))) (logRow_kept (setReg_kept (countReg_kept h)))))))

theorem poison_kept {s : State} {a : Nat} (h : Kept q p D s) : Kept q p D (poison s a) := by
  unfold poison
  exact (kept_ite h (kept_ite (setCtl_kept h) (countPermanent_kept (setErr_kept h))))

theorem uncorrectable_kept {s : State} {a : Nat} (h : Kept q p D s) : Kept q p D (uncorrectable s a) := by
  unfold uncorrectable
  exact (poison_kept (emit_kept (setErr_kept (setReg_kept (countReg_kept h)))))

theorem injected_kept {s : State} {a : Nat} {ecc : Ecc} (h : Kept q p D s) : Kept q p D (injected s a ecc).1 := by
  unfold injected
  simp only [apply_ite Prod.fst]
  exact kept_ite h (kept_ite (setReg_kept h) (kept_ite (setReg_kept h) h))

theorem ctlRead_kept {s : State} {a : Nat} {ecc : Ecc} (h : Kept q p D s) : Kept q p D (ctlRead s a ecc) := by
  unfold ctlRead
  try dsimp only
  split
  · exact (injected_kept h)
  · exact (correctable_kept (injected_kept h))
  · exact (uncorrectable_kept (injected_kept h))

theorem armedReads_kept {s : State} {a n : Nat} (h : Kept q p D s) : Kept q p D (armedReads s a n) := by
  unfold armedReads
  exact kept_foldl h (fun _ _ h1 => ctlRead_kept h1)

theorem readErrors_kept {s : State} {a n : Nat} (h : Kept q p D s) : Kept q p D (readErrors s a n) := by
  unfold readErrors
  exact kept_ite (armedReads_kept h) h

theorem useWrite_kept {s : State} {x : Nat} (h : Kept q p D s) : Kept q p D (useWrite s x) := by
  unfold useWrite
  exact setReg_kept h

theorem injectedWrite_kept {s : State} {a n : Nat} (h : Kept q p D s) : Kept q p D (injectedWrite s a n).2 := by
  unfold injectedWrite
  exact kept_foldl h (fun _ _ h1 => useWrite_kept h1)

theorem writeCheck_kept {s : State} {rq : Requester} {a : Nat} (h : Kept q p D s) : Kept q p D (writeCheck s rq a) := by
  unfold writeCheck
  exact (requesterFailure_kept (setErr_kept (countReg_kept h)))

theorem checkedWrite_kept {s : State} {rq : Requester} {a : Nat} {bs : List Byte} {badWords : List Nat} (h : Kept q p D s) : Kept q p D (checkedWrite s rq a bs badWords) := by
  unfold checkedWrite
  exact (kept_ite (kept_ite (writeCheck_kept (storeBytes_kept (injectedWrite_kept h))) (storeBytes_kept (injectedWrite_kept h))) (kept_ite (kept_ite (storeBytes_kept h) (requesterFailure_kept (storeBytes_kept h))) (setErr_kept h)))

theorem addLoss_kept {s : State} {ns : Nat} (h : Kept q p D s) : Kept q p D (addLoss s ns) := by
  unfold addLoss
  exact (countReg_kept h)

theorem addStall_kept {s : State} (h : Kept q p D s) : Kept q p D (addStall s) := by
  unfold addStall
  exact (addLoss_kept (draw_kept h))

theorem hbmRetireRow_kept {s : State} {c : Nat} {a : Nat} (h : Kept q p D s) : Kept q p D (hbmRetireRow s c a) := by
  unfold hbmRetireRow
  exact (kept_ite (setErr_kept h) (retireCounted_kept h))

end Sys2Proof.Machine
end

