-- ==== Sys2Proof/Laws/KeptArbiter.lean ====
section
/-!
SUPPORT. Laws/KeptArbiter.lean: every operation of Machine/Arbiter.lean keeps the queue, the part, the canonical tables and the beats (Laws/Kept.lean).
-/
namespace Sys2Proof.Machine

variable {q : List Instr} {p : Part} {D : Vector Nat 4 → Prop}

theorem setArb_kept {s : State} {a : Nat} {a2 : Arb} (h : Kept q p D s) : Kept q p D (setArb s a a2) := by
  unfold setArb
  exact (kept_upd h)

theorem arbError_kept {s : State} {page : Nat} {b : Nat} (h : Kept q p D s) : Kept q p D (arbError s page b) := by
  unfold arbError
  exact (emit_kept (setReg_kept h))

theorem arbConfig_kept {s : State} {page : Nat} {off : Nat} {v : Nat} (h : Kept q p D s) : Kept q p D (arbConfig s page off v) := by
  unfold arbConfig
  exact (kept_ite (setReg_kept h) (arbError_kept h))

theorem arbConfigWrite_kept {s : State} {page : Nat} {off : Nat} {v : Nat} (h : Kept q p D s) : Kept q p D (arbConfigWrite s page off v) := by
  unfold arbConfigWrite
  exact (kept_ite (expertOnly_kept h (fun _ h1 => (arbConfig_kept h1))) (arbConfig_kept h))

theorem starveRule_kept {s : State} {a : Nat} {granted : ArbReq} {rs : List ArbReq} (h : Kept q p D s) : Kept q p D (starveRule s a granted rs) := by
  unfold starveRule
  split
  · exact h
  · exact (kept_ite (countReg_kept (countReg_kept (countReg_kept (draw_kept (kept_upd h))))) (kept_upd h))

theorem arbitrate_kept {s : State} {a : Nat} {rs : List ArbReq} (h : Kept q p D s) : Kept q p D (arbitrate s a rs) := by
  unfold arbitrate
  try dsimp only
  split
  · exact (setArb_kept h)
  · exact (by
  try dsimp only
  split
  · exact (kept_ite (starveRule_kept (countReg_kept (countReg_kept (draw_kept (setArb_kept h))))) (countReg_kept (countReg_kept (draw_kept (setArb_kept h)))))
  · exact (countReg_kept (countReg_kept (draw_kept (setArb_kept h)))))

theorem arbCutoff_kept {s : State} {a : Nat} {write : Bool} {rs : List ArbReq} (h : Kept q p D s) : Kept q p D (arbCutoff s a write rs) := by
  unfold arbCutoff
  try dsimp only
  split
  · exact h
  · exact (arbitrate_kept (by
  split
  · exact (requesterFailure_kept (setArb_kept (kept_ite (arbError_kept (emit_kept (arbError_kept (setReg_kept (countReg_kept h))))) (emit_kept (arbError_kept (setReg_kept (countReg_kept h)))))))
  · exact (setArb_kept (kept_ite (arbError_kept (emit_kept (arbError_kept (setReg_kept (countReg_kept h))))) (emit_kept (arbError_kept (setReg_kept (countReg_kept h))))))))

end Sys2Proof.Machine
end

