-- ==== Sys2Proof/Laws/KeptControlCore.lean ====
section
/-!
SUPPORT. Laws/KeptControlCore.lean: every operation of Machine/ControlCore.lean keeps the queue, the part, the canonical tables and the beats (Laws/Kept.lean).
-/
namespace Sys2Proof.Machine

variable {q : List Instr} {p : Part} {D : Vector Nat 4 → Prop}

theorem issue_kept {s : State} {lh : Nat} {named : List (Fin 32)} {f : State → State} (h : Kept q p D s) (hf : ∀ t, Kept q p D t → Kept q p D (f t)) : Kept q p D (issue s lh named f) := by
  unfold issue
  exact (kept_ite h (kept_ite (modCore_kept h) (hf _ (modCore_kept (countLh_kept h)))))

theorem issueCore_kept {s : State} {lh : Nat} {named : List (Fin 32)} {f : Core → Core} (h : Kept q p D s) : Kept q p D (issueCore s lh named f) := by
  unfold issueCore
  exact (issue_kept h (fun _ h1 => (modCore_kept h1)))

theorem illegalAt_kept {s : State} {lh : Nat} (h : Kept q p D s) : Kept q p D (illegalAt s lh) := by
  unfold illegalAt
  exact (modCore_kept (modCtx_kept (emit_kept (setReg_kept (setErrIf_kept (setErrLh_kept (countLh_kept h)))))))

theorem issueOutside_kept {s : State} {lh : Nat} {named : List (Fin 32)} {f : State → State} (h : Kept q p D s) (hf : ∀ t, Kept q p D t → Kept q p D (f t)) : Kept q p D (issueOutside s lh named f) := by
  unfold issueOutside
  exact (kept_ite (illegalAt_kept h) (issue_kept h (fun _ h1 => (hf _ h1))))

theorem issueInside_kept {s : State} {lh : Nat} {named : List (Fin 32)} {f : State → State} (h : Kept q p D s) (hf : ∀ t, Kept q p D t → Kept q p D (f t)) : Kept q p D (issueInside s lh named f) := by
  unfold issueInside
  exact (kept_ite (illegalAt_kept h) (issue_kept h (fun _ h1 => (hf _ h1))))

theorem aluRR_kept {s : State} {lh : Nat} {rd : Fin 32} {ra : Fin 32} {rb : Fin 32} {op : Word → Word → Word} (h : Kept q p D s) : Kept q p D (aluRR s lh rd ra rb op) := by
  unfold aluRR
  exact (issueCore_kept h)

theorem aluRI_kept {s : State} {lh : Nat} {rd : Fin 32} {ra : Fin 32} {imm : BitVec 46} {op : Word → Word → Word} (h : Kept q p D s) : Kept q p D (aluRI s lh rd ra imm op) := by
  unfold aluRI
  exact (issueCore_kept h)

theorem scalarErrs_kept {s : State} {lh : Nat} {addr : Nat} {width : Nat} (h : Kept q p D s) : Kept q p D (scalarErrs s lh addr width) := by
  unfold scalarErrs
  exact (setErrIf_kept (setErrIf_kept h))

theorem loadScalar_kept {s : State} {lh : Nat} {rd : Fin 32} {ra : Fin 32} {imm : BitVec 46} {width : Nat} (h : Kept q p D s) : Kept q p D (loadScalar s lh rd ra imm width) := by
  unfold loadScalar
  exact (issue_kept h (fun _ h1 => (modCore_kept (kept_ite (modH_kept (scalarErrs_kept h1)) (scalarErrs_kept h1)))))

theorem storeScalar_kept {s : State} {lh : Nat} {rd : Fin 32} {ra : Fin 32} {imm : BitVec 46} {width : Nat} (h : Kept q p D s) : Kept q p D (storeScalar s lh rd ra imm width) := by
  unfold storeScalar
  exact (issue_kept h (fun _ h1 => (kept_ite (modCore_kept (modH_kept (scalarErrs_kept h1))) (scalarErrs_kept h1))))

theorem waitOn_kept {s : State} {lh : Fin 48} {rd : Fin 32} {vid : Nat} {n : Nat} {consume : Bool} (h : Kept q p D s) : Kept q p D (waitOn s lh rd vid n consume) := by
  unfold waitOn
  try dsimp only
  split
  · exact (modCore_kept (enqueue_kept h))
  · exact (kept_ite (modCore_kept (kept_updTly (nearSend_kept h))) (modCore_kept (countReg_kept (tallyErr_kept h))))
  · exact (modCore_kept (countReg_kept (tallyErr_kept h)))

theorem handOver_kept {s : State} {lh : Nat} {op : EngineOp} (h : Kept q p D s) : Kept q p D (handOver s lh op) := by
  unfold handOver
  exact (modCore_kept h)

theorem issueEngine_kept {s : State} {lh : Nat} {ra : Fin 32} {imm : BitVec 24} {op : Nat → EngineOp} (h : Kept q p D s) : Kept q p D (issueEngine s lh ra imm op) := by
  unfold issueEngine
  exact (issue_kept h (fun _ h1 => (handOver_kept h1)))

end Sys2Proof.Machine
end

