-- ==== Sys2Proof/Laws/KeptLists.lean ====
section
/-!
SUPPORT. Laws/KeptLists.lean: every operation of Machine/Lists.lean keeps the queue, the part, the canonical tables and the beats (Laws/Kept.lean).
-/
namespace Sys2Proof.Machine

variable {q : List Instr} {p : Part} {D : Vector Nat 4 → Prop}

theorem modList_kept {s : State} {lh : Nat} {f : ListUnit → ListUnit} (h : Kept q p D s) : Kept q p D (modList s lh f) := by
  unfold modList
  exact (modH_kept h)

theorem appendItem_kept {s : State} {lh : Nat} {bs : List Byte} {origin : Nat} {gstep : StepNo} {due : Nat} (h : Kept q p D s) : Kept q p D (appendItem s lh bs origin gstep due) := by
  unfold appendItem
  exact (modList_kept (kept_mem h (memWrite_wf (Kept.mem_wf h) _ _)))

theorem sendMerge_kept {s : State} {lh : Nat} {m : MergeRead} (h : Kept q p D s) : Kept q p D (sendMerge s lh m) := by
  unfold sendMerge
  exact (kept_ite (kept_upd (countLh_kept h)) (nearSend_kept (countLh_kept h)))

theorem mergeStall_kept {s : State} {lh : Nat} {t : Nat} (h : Kept q p D s) : Kept q p D (mergeStall s lh t) := by
  unfold mergeStall
  try dsimp only
  split
  · exact h
  · exact (sendMerge_kept (countLh_kept (setH_kept h)))

theorem queueMerge_kept {s : State} {lh : Nat} {t : Nat} {bs : List Byte} {ctx : Nat} (h : Kept q p D s) : Kept q p D (queueMerge s lh t bs ctx) := by
  unfold queueMerge
  exact (modList_kept (kept_ite (mergeStall_kept h) h))

theorem startPost_kept {s : State} {lh : Nat} {own : Bool} {target addr : Nat} {tag : OpTag} (h : Kept q p D s) :
    KeptSome q p D (startPost s lh own target addr tag) :=
  keptSome_ite (keptSome_some (setErrLh_kept (setErrIf_kept h)))
    (keptSome_ite (keptSome_some (queueMerge_kept (countLh_kept (setErrIf_kept h))))
      (keptSome_ite keptSome_none (keptSome_some (countLh_kept (appendItem_kept (setErrIf_kept h))))))

theorem takeAt_kept {s : State} {lh : Nat} {rd : Fin 32} {t : Nat} (h : Kept q p D s) : Kept q p D (takeAt s lh rd t) := by
  unfold takeAt
  try dsimp only
  split
  · exact (modCore_kept (modList_kept h))
  · exact (kept_ite (modCore_kept (modCore_kept (countLh_kept (countLh_kept (modList_kept (modList_kept h)))))) (modCore_kept (modList_kept h)))

theorem stealEmpty_kept {s : State} {lh : Nat} {n : Nat} (h : Kept q p D s) : Kept q p D (stealEmpty s lh n) := by
  unfold stealEmpty
  exact (modList_kept (countLh_kept h))

theorem emptyList_kept {s : State} {lh : Nat} (h : Kept q p D s) : Kept q p D (emptyList s lh) := by
  unfold emptyList
  exact (modList_kept h)

end Sys2Proof.Machine
end

