-- ==== Sys2Proof/Laws/KeptBeat.lean ====
section
/-!
SUPPORT. Laws/KeptBeat.lean: every operation of Machine/Beat.lean keeps the queue, the part, the canonical tables and the beats (Laws/Kept.lean).
-/
namespace Sys2Proof.Machine

variable {q : List Instr} {p : Part} {D : Vector Nat 4 → Prop}

theorem applyEff_kept {s : State} {lh : Nat} {e : Eff} (h : Kept q p D s) : Kept q p D (applyEff s lh e) := by
  unfold applyEff
  split
  · exact (setErrLh_kept h)
  · exact (countLh_kept h)
  · exact (setReg_kept h)
  · exact (modCore_kept h)
  · exact (modCore_kept h)
  · exact (modCore_kept h)
  · exact (modCore_kept h)
  · exact (modCore_kept h)
  · exact (hamperFailure_kept h)
  · exact (loadCheckFailure_kept (countLh_kept (setErrLh_kept h)))
  · exact (emit_kept h)
  · exact (chargeStash_kept h)
  · exact (kept_ite (hamperFailure_kept h) h)
  · exact (storeBytes_kept h)

theorem applyEffs_kept {s : State} {lh : Nat} {es : List Eff} (h : Kept q p D s) : Kept q p D (applyEffs s lh es) := by
  unfold applyEffs
  exact (kept_foldl h (fun _ _ h1 => (applyEff_kept h1)))

theorem completeWith_kept {s : State} {lh : Nat} {o : Out} (h : Kept q p D s) : Kept q p D (completeWith s lh o) := by
  unfold completeWith
  exact (applyEffs_kept (modH_kept h))

theorem completeStash_kept {s : State} {lh : Nat} {push : Bool} (h : Kept q p D s) : Kept q p D (completeStash s lh push) := by
  unfold completeStash
  try dsimp only
  split
  · exact h
  · exact (completeWith_kept (modH_kept h))

theorem commitVec_kept {s : State} {phys : Nat} {slot : Nat} {length : Nat} {page : Nat} {inUse : Bool} (h : Kept q p D s) : Kept q p D (commitVec s phys slot length page inUse) := by
  unfold commitVec
  exact (kept_ite (setErr_kept h) (by
    try dsimp only
    split
    · exact (kept_upd h)
    · exact (setReg_kept (setErr_kept (kept_upd h)))))

theorem startDmaOp_kept {s : State} {lh : Fin 48} {addr : Nat} {tag : OpTag} (h : Kept q p D s) : KeptSome q p D (startDmaOp s lh addr tag) :=
  keptSome_ite (keptSome_some (setErrLh_kept (setErrIf_kept (modH_kept h))))
    (keptSome_ite (keptSome_ite keptSome_none (keptSome_some (kept_upd (setErrIf_kept (modH_kept h)))))
      (keptSome_some (modH_kept (applyEffs_kept (setErrIf_kept (modH_kept h))))))

theorem startOp_kept {s : State} {lh : Fin 48} {st : EngineStart} (h : Kept q p D s) : KeptSome q p D (startOp s lh st) := by
  unfold startOp
  dsimp only
  split
  · exact keptSome_some (completeWith_kept (modFrame_kept h))
  · exact keptSome_some (completeWith_kept (modFrame_kept h))
  · exact keptSome_some (completeWith_kept (modFrame_kept h))
  · exact keptSome_some (completeWith_kept (modH_kept h))
  · exact keptSome_some (completeWith_kept (modH_kept h))
  · exact keptSome_some (completeWith_kept (modH_kept h))
  · exact keptSome_some (completeWith_kept (modH_kept h))
  · exact startDmaOp_kept h
  · exact keptSome_some (modCore_kept h)
  · exact startPost_kept h

theorem startOrStall_kept {s : State} {lh : Fin 48} {st : EngineStart} (h : Kept q p D s) : Kept q p D (startOrStall s lh st) := by
  unfold startOrStall
  split
  · rename_i heq; exact startOp_kept h _ heq
  · refine modCore_kept ?_
    split
    · exact countLh_kept h
    · exact h

theorem startOps_kept {s : State} {lh : Fin 48} (h : Kept q p D s) : Kept q p D (startOps s lh) := by
  unfold startOps
  exact (kept_foldl (modCore_kept h) (fun _ _ h1 => (startOrStall_kept h1)))

theorem retryStalled_kept {s : State} {lh : Fin 48} (h : Kept q p D s) : Kept q p D (retryStalled s lh) := by
  unfold retryStalled
  refine kept_foldl (modCore_kept h) (fun t x h1 => ?_)
  split
  · rename_i heq; exact startOp_kept h1 _ heq
  · exact modCore_kept h1

theorem endLaunch_kept {s : State} {c : Nat} {code : Nat} (h : Kept q p D s) : Kept q p D (endLaunch s c code) := by
  unfold endLaunch
  exact (setCtx_kept (kept_foldl (by
    split
    · exact (kept_ite h (emit_kept h))
    · exact h) (fun _ _ h1 => (modH_kept h1))))

theorem finishResets_kept {s : State} (h : Kept q p D s) : Kept q p D (finishResets s) := by
  unfold finishResets
  exact (kept_foldl h (fun _ _ h1 => (kept_ite (endLaunch_kept h1) h1)))

theorem foldl_memWf {β : Type} {f : List (Nat × Byte) → β → List (Nat × Byte)} {l : List β} {m : List (Nat × Byte)}
    (h : Memory.wf m = true) (hf : ∀ m x, Memory.wf m = true → Memory.wf (f m x) = true) : Memory.wf (l.foldl f m) = true := by
  induction l generalizing m with
  | nil => exact h
  | cons x l ih => exact ih (hf m x h)

theorem commitWrites_kept {s : State} {lh : Nat} {ws : List PWrite} (h : Kept q p D s) : Kept q p D (commitWrites s lh ws) :=
  kept_mem h (foldl_memWf h.mem_wf (fun _ _ h1 => foldl_memWf h1 (fun _ _ h2 => memWrite_wf h2 _ _)))

theorem writeErrs_kept {s : State} {lh : Nat} {ws : List PWrite} (h : Kept q p D s) : Kept q p D (writeErrs s lh ws) := by
  unfold writeErrs
  exact (setErrIf_kept (setErrIf_kept (kept_foldl h (fun _ _ h1 => (setErrIf_kept h1)))))

theorem bankConflicts_kept {s : State} {lh : Nat} {ls : List (Nat × Bool × Nat)} (h : Kept q p D s) : Kept q p D (bankConflicts s lh ls) := by
  unfold bankConflicts
  exact (countReg_kept (countReg_kept h))

theorem slotConflict_kept {s : State} {lh : Nat} {port : Nat} {t : Nat} {engine : Nat} {stack : Bool} (h : Kept q p D s) : Kept q p D (slotConflict s lh port t engine stack) := by
  unfold slotConflict
  exact (setReg_kept (countReg_kept (setErr_kept h)))

theorem hbmWait_kept {s : State} {a : Nat} {t : Nat} {write : Bool} (h : Kept q p D s) : Kept q p D (hbmWait s a t write) := by
  unfold hbmWait
  exact (kept_ite (countReg_kept (countReg_kept (draw_kept (setCtl_kept h)))) (setCtl_kept h))

theorem carryBurst_kept {s : State} {lh t : Nat} {used : List Nat} {b : Burst} (h : Kept q p D s) :
    Kept q p D (carryBurst s lh t used b).1 := by
  unfold carryBurst
  dsimp only
  split
  · exact hbmWait_kept h
  · exact slotConflict_kept (hbmWait_kept h)
  · exact slotConflict_kept (hbmWait_kept h)

theorem carryBursts_kept {s : State} {t : Nat} {ws : List (Fin 48 × List Burst)} (h : Kept q p D s) : Kept q p D (carryBursts s t ws) :=
  kept_foldl_fst (x := (s, [])) h (fun _ _ h1 => kept_foldl_fst h1 (fun _ _ h2 => carryBurst_kept h2))

theorem recordHazard_kept {s : State} {lh : Nat} {a2 : Nat × Nat × Nat × Nat} (h : Kept q p D s) : Kept q p D (recordHazard s lh a2) := by
  unfold recordHazard
  exact (kept_ite (kept_upd (emit_kept (kept_ite (kept_upd (countReg_kept (setErr_kept h))) (setErr_kept (countReg_kept (setErr_kept h)))))) (emit_kept (kept_ite (kept_upd (countReg_kept (setErr_kept h))) (setErr_kept (countReg_kept (setErr_kept h))))))

theorem detect_kept {s : State} {w : HamperWork} {ls : List (Nat × Bool × Nat)} {env : EngEnv} (h : Kept q p D s) : Kept q p D (detect s w ls env) := by
  unfold detect
  exact (kept_ite h (kept_foldl (setErrIf_kept h) (fun _ _ h1 => (recordHazard_kept h1))))

theorem flushSeal_kept {s : State} {lh : Nat} {t : Nat} (h : Kept q p D s) : Kept q p D (flushSeal s lh t) := by
  unfold flushSeal
  exact (kept_ite h (modCore_kept (kept_upd h)))

theorem endHamperBeat_kept {s : State} {w : HamperWork} {ups : List Upset} (h : Kept q p D s) : Kept q p D (endHamperBeat s w ups) := by
  unfold endHamperBeat
  try dsimp only
  split
  · exact (sendMerge_kept (modH_kept (flushSeal_kept (applyEffs_kept (commitWrites_kept (writeErrs_kept (countLh_kept (bankConflicts_kept (detect_kept (setH_kept h))))))))))
  · exact (modH_kept (flushSeal_kept (applyEffs_kept (commitWrites_kept (writeErrs_kept (countLh_kept (bankConflicts_kept (detect_kept (setH_kept h)))))))))

theorem parityError_kept {s : State} {page : Nat} (h : Kept q p D s) : Kept q p D (parityError s page) := by
  unfold parityError
  try dsimp only
  split
  · exact (kept_ite (countFault_kept (setErr_kept h)) (chargeSeal_kept (setErr_kept h)))
  · exact (residueFailure_kept (setErr_kept h))
  · exact (residueFailure_kept (setErr_kept h))
  · exact (residueFailure_kept (setErr_kept h))
  · exact (kept_ite (residueFailure_kept (setErr_kept h)) (chargeSeal_kept (setErr_kept h)))
  · exact (setErr_kept h)

theorem parityUpsets_kept {s : State} {ups : List Upset} (h : Kept q p D s) : Kept q p D (parityUpsets s ups) := by
  unfold parityUpsets
  exact (kept_foldl h (fun _ _ h1 => (by
    try dsimp only
    split
    · exact (kept_ite (parityError_kept h1) h1)
    · exact h1)))

theorem returnLent_kept {s : State} {d : Nat} (h : Kept q p D s) : Kept q p D (returnLent s d) := by
  unfold returnLent
  split
  · exact h
  · exact (kept_updTly h)

/-- A die's beat number set. -/
theorem kept_dieBeat {v : Vector Nat 4} {s : State} {d : Fin 4} {n : Nat} (h : Kept q p (fun x => x = v) s) (hn : n = v[d]) :
    Kept q p (fun x => x = v.set d (v[d] + 1)) { s with dies := s.dies.set d (n + 1) } :=
  kept_of h rfl rfl h.mem_wf h.regs_rising h.flash_rising h.pages_wf h.wheels_wf h.tly_rising (by
    show s.dies.set d (n + 1) = _
    rw [hn, show s.dies = v from h.beats])

/-- The end of a die's beat moves that die's beat number on by one, and no other's (R182). -/
theorem advanceDie_kept {v : Vector Nat 4} {s : State} {d : Fin 4} {ups : List Upset} {slowest : Option (Nat × Nat)}
    (h : Kept q p (fun x => x = v) s) : Kept q p (fun x => x = v.set d (v[d] + 1)) (advanceDie s d ups slowest) := by
  have hd : s.dies[d] = v[d] := by rw [show s.dies = v from h.beats]
  have h1 : ∀ (l : List HamperWork) (t : Nat) (ws : List (Fin 48 × List Burst)),
      Kept q p (fun x => x = v) (carryBursts (l.foldl (fun s w => endHamperBeat s w ups) { s with free := s.free + 48 }) t ws) :=
    fun l t ws => carryBursts_kept (kept_foldl (kept_upd h) (fun _ _ h1 => endHamperBeat_kept h1))
  have h2 := fun l t ws => kept_foldl (l := dieHampers d) (f := startOps) (returnLent_kept (d := d) (kept_dieBeat (h1 l t ws) hd))
    (fun _ _ h3 => startOps_kept h3)
  unfold advanceDie
  refine finishResets_kept (parityUpsets_kept (kept_foldl ?_ (fun _ _ h3 => applyEffs_kept h3)))
  dsimp only
  split
  · exact kept_upd (h2 _ _ _)
  · exact h2 _ _ _

end Sys2Proof.Machine
end

