-- ==== Sys2Proof/Laws/KeptLedger.lean ====
section
/-!
SUPPORT. Laws/KeptLedger.lean: every operation of Machine/Ledger.lean keeps the queue, the part, the canonical tables and the beats (Laws/Kept.lean).
-/
namespace Sys2Proof.Machine

variable {q : List Instr} {p : Part} {D : Vector Nat 4 → Prop}

theorem exportRecords_kept {s : State} (h : Kept q p D s) : Kept q p D (exportRecords s) := by
  unfold exportRecords
  split
  · exact h
  · exact (kept_foldl (kept_upd h) (fun _ _ h2 => (hostSend_kept h2)))

theorem closeRecord_kept {s : State} {r : OpenRec} {sweepNonfin : Nat} {sweepSat : Nat} {digests : List (Nat × Word)} (h : Kept q p D s) : Kept q p D (closeRecord s r sweepNonfin sweepSat digests) := by
  unfold closeRecord
  exact (kept_ite h (exportRecords_kept (emit_kept (countReg_kept (kept_upd (kept_ite (emit_kept (setErr_kept (countReg_kept (kept_mem h (memWrite_wf (Kept.mem_wf h) _ _))))) (kept_mem h (memWrite_wf (Kept.mem_wf h) _ _))))))))

theorem ledResetRing_kept {s : State} {v : Nat} (h : Kept q p D s) : Kept q p D (ledResetRing s v) := by
  unfold ledResetRing
  exact (kept_ite h (kept_ite (setErr_kept h) (kept_upd h)))

theorem ledSeed_kept {s : State} {high : Bool} {v : Nat} (h : Kept q p D s) : Kept q p D (ledSeed s high v) := by
  unfold ledSeed
  exact (kept_ite (setErr_kept h) (setCtx_kept h))

theorem ledConfig_kept {s : State} {off : Nat} {v : Nat} (h : Kept q p D s) : Kept q p D (ledConfig s off v) := by
  unfold ledConfig
  exact (kept_ite (setErr_kept h) (setReg_kept h))

end Sys2Proof.Machine
end

