-- ==== Sys2Proof/Laws/KeptSeal.lean ====
section
/-!
SUPPORT. Laws/KeptSeal.lean: every operation of Machine/Seal.lean keeps the queue, the part, the canonical tables and the beats (Laws/Kept.lean).
-/
namespace Sys2Proof.Machine

variable {q : List Instr} {p : Part} {D : Vector Nat 4 → Prop}

theorem settleClip_kept {s : State} (h : Kept q p D s) : Kept q p D (settleClip s) := by
  unfold settleClip
  split
  · exact h
  · exact (kept_ite h (kept_upd h))

theorem closeNorm_kept {s : State} {g : Nat} {sat : Bool} (h : Kept q p D s) : Kept q p D (closeNorm s g sat) := by
  unfold closeNorm
  exact (settleClip_kept (kept_upd h))

theorem tryCloseNorm_kept {s : State} (h : Kept q p D s) : Kept q p D (tryCloseNorm s) := by
  unfold tryCloseNorm
  exact (kept_ite h (kept_ite h (kept_ite (setErr_kept h) (closeNorm_kept h))))

theorem grantSeal_kept {s : State} (h : Kept q p D s) : Kept q p D (grantSeal s) := by
  unfold grantSeal
  exact (kept_ite (closeNorm_kept (emit_kept (kept_upd h))) (tryCloseNorm_kept (kept_upd (kept_foldl (emit_kept (kept_upd h)) (fun _ _ h1 => (nearSend_kept h1))))))

theorem tryGrant_kept {s : State} (h : Kept q p D s) : Kept q p D (tryGrant s) := by
  unfold tryGrant
  exact (kept_ite (by
    split
    · exact (residueFailure_kept h)
    · exact (grantSeal_kept h)) h)

theorem collectReq_kept {s : State} {r : SealReq} (h : Kept q p D s) : Kept q p D (collectReq s r) := by
  unfold collectReq
  exact (kept_ite (withholdSeal_kept (setErr_kept h)) (kept_ite (withholdSeal_kept (setErr_kept h)) (tryGrant_kept (kept_upd h))))

theorem holdReq_kept {s : State} {r : SealReq} (h : Kept q p D s) : Kept q p D (holdReq s r) := by
  unfold holdReq
  exact (kept_upd (setErrIf_kept h))

theorem arriveReq_kept {s : State} {r : SealReq} (h : Kept q p D s) : Kept q p D (arriveReq s r) := by
  unfold arriveReq
  exact (kept_ite (kept_ite (collectReq_kept h) (kept_ite h (setErr_kept h))) (kept_ite (kept_ite h (holdReq_kept h)) (setErr_kept h)))

theorem endAttempts_kept {s : State} (h : Kept q p D s) : Kept q p D (endAttempts s) := by
  unfold endAttempts
  exact (kept_upd h)

theorem openSeal_kept {s : State} (h : Kept q p D s) : Kept q p D (openSeal s) := by
  unfold openSeal
  exact (kept_ite (refuseSeal_kept (kept_upd h)) (kept_ite (withholdSeal_kept (kept_upd h)) (by
    split
    · exact (withholdSeal_kept (kept_upd h))
    · exact (kept_foldl (kept_upd h) (fun _ _ h2 => (arriveReq_kept h2))))))

theorem advanceStep_kept {s : State} (h : Kept q p D s) : Kept q p D (advanceStep s) := by
  unfold advanceStep
  exact (kept_upd (by
    split
    · exact (closeRecord_kept (openSeal_kept (endAttempts_kept (kept_upd (kept_upd h)))))
    · exact (openSeal_kept (endAttempts_kept (kept_upd (kept_upd h))))))

theorem sealReopen_kept {s : State} (h : Kept q p D s) : Kept q p D (sealReopen s) := by
  unfold sealReopen
  exact (kept_ite (setErr_kept h) (kept_upd h))

theorem ucStepWrite_kept {s : State} {v : Nat} (h : Kept q p D s) : Kept q p D (ucStepWrite s v) := by
  unfold ucStepWrite
  exact (kept_ite (kept_upd h) (setErr_kept h))

theorem normArrive_kept {s : State} {m : Nat} {a : Nat} {bs : List Byte} (h : Kept q p D s) : Kept q p D (normArrive s m a bs) := by
  unfold normArrive
  exact (kept_ite (setErr_kept h) (tryCloseNorm_kept (kept_upd (storeBytes_kept h))))

end Sys2Proof.Machine
end

