-- ==== Sys2Proof/Laws/KeptTallyCmds.lean ====
section
/-!
SUPPORT. Laws/KeptTallyCmds.lean: every operation of Machine/TallyCmds.lean keeps the queue, the part, the canonical tables and the beats (Laws/Kept.lean).
-/
namespace Sys2Proof.Machine

variable {q : List Instr} {p : Part} {D : Vector Nat 4 → Prop}

theorem takeMsg_kept {s : State} {i : Nat} (h : Kept q p D s) : Kept q p D (takeMsg s i) := by
  unfold takeMsg
  exact (kept_updTly h)

theorem tallyFlag_kept {s : State} {b : Nat} (h : Kept q p D s) : Kept q p D (tallyFlag s b) := by
  unfold tallyFlag
  exact (emit_kept (setErr_kept h))

theorem tlyCountSet_kept {s : State} {v : Nat} (h : Kept q p D s) : Kept q p D (tlyCountSet s v) := by
  unfold tlyCountSet
  exact (kept_ite (tallyFlag_kept h) (serve_kept (setTally_kept h)))

theorem tlyBarRepair_kept {s : State} {v : Nat} (h : Kept q p D s) : Kept q p D (tlyBarRepair s v) := by
  unfold tlyBarRepair
  exact (kept_ite h (kept_ite (tallyFlag_kept h) (setSlot_kept h)))

theorem noteUser_kept {s : State} {module : Nat} {ctx : Nat} (h : Kept q p D s) : Kept q p D (noteUser s module ctx) := by
  unfold noteUser
  split
  · exact (setNearSess_kept h)
  · exact h

theorem refuseWait_kept {s : State} {w : Waiter} (h : Kept q p D s) : Kept q p D (refuseWait s w) := by
  unfold refuseWait
  exact (release_kept h)

theorem remoteSignal_kept {s : State} {src : Nat} {ctx : Nat} {vid : Nat} {n : Nat} (h : Kept q p D s) : Kept q p D (remoteSignal s src ctx vid n) := by
  unfold remoteSignal
  try dsimp only
  split
  · exact (kept_ite (countReg_kept h) (signalAt_kept h))
  · exact (tallyErr_kept h)
  · exact (tallyErr_kept h)
  · exact (sendSignal_kept h)

theorem remoteWait_kept {s : State} {src : Nat} {w : Waiter} {consume : Bool} (h : Kept q p D s) : Kept q p D (remoteWait s src w consume) := by
  unfold remoteWait
  exact (kept_ite (refuseWait_kept (tallyErr_kept h)) (kept_ite (refuseWait_kept (tallyFlag_kept h)) (kept_ite (consumeAt_kept h) (observeAt_kept h))))

theorem remoteArrive_kept {s : State} {src : Nat} {ctx : Nat} {vid : Nat} {gen : Nat} (h : Kept q p D s) : Kept q p D (remoteArrive s src ctx vid gen) := by
  unfold remoteArrive
  exact (kept_ite (tallyErr_kept h) (kept_ite (tallyErr_kept h) (arrivePeer_kept h)))

theorem applyHeld_kept {s : State} {m : HeldMsg} (h : Kept q p D s) : Kept q p D (applyHeld s m) := by
  unfold applyHeld
  split
  · exact (remoteSignal_kept h)
  · exact (remoteWait_kept h)
  · exact (remoteWait_kept h)
  · exact (remoteArrive_kept h)

theorem tallyFrom_kept {s : State} {a1 : MsgHead} {op : Nat} {vid : Nat} {value : Nat} {token : W32} {f : State → State} (h : Kept q p D s) (hf : ∀ t, Kept q p D t → Kept q p D (f t)) : Kept q p D (tallyFrom s a1 op vid value token f) := by
  unfold tallyFrom
  exact (kept_ite h (by
    try dsimp only
    split
    · exact (hf _ (by
    split
    · exact (noteUser_kept h)
    · exact h))
    · exact (countReg_kept (by
    split
    · exact (noteUser_kept h)
    · exact h))
    · exact (kept_upd (by
    split
    · exact (noteUser_kept h)
    · exact h))))

theorem hostArrive_kept {s : State} {ctx : Nat} {vid : Nat} (h : Kept q p D s) : Kept q p D (hostArrive s ctx vid) := by
  unfold hostArrive
  exact (kept_ite (tallyErr_kept h) (arriveHost_kept h))

end Sys2Proof.Machine
end

