-- ==== Sys2Proof/Laws/KeptUpdate.lean ====
section
/-!
SUPPORT. Laws/KeptUpdate.lean: every operation of Machine/Update.lean keeps the queue, the part, the canonical tables and the beats (Laws/Kept.lean).
-/
namespace Sys2Proof.Machine

variable {q : List Instr} {p : Part} {D : Vector Nat 4 → Prop}

theorem ucSignal_kept {s : State} {ctx : Nat} {en : Bool} {vid : Nat} (h : Kept q p D s) : Kept q p D (ucSignal s ctx en vid) := by
  unfold ucSignal
  exact (kept_ite (sendSignal_kept h) h)

theorem settleUnit_kept {n : Nat} {s : State} {u : Nat} (h : Kept q p D s) : Kept q p D (settleUnit n s u) := by
  induction n generalizing s with
  | zero => exact h
  | succ n ih =>
    unfold settleUnit
    dsimp only
    split
    · exact h
    · exact kept_ite h (kept_ite (setUnit_kept (writeRecord_kept h)) (ih (setUnit_kept (writeRecord_kept h))))

theorem signalSegs_kept {n : Nat} {s : State} (h : Kept q p D s) : Kept q p D (signalSegs n s) := by
  induction n generalizing s with
  | zero => exact h
  | succ n ih =>
    unfold signalSegs
    split
    · exact h
    · split
      · exact h
      · exact kept_ite (ih (ucSignal_kept (kept_upd h))) h

theorem sweepDone_kept {s : State} (h : Kept q p D s) : Kept q p D (sweepDone s) := by
  unfold sweepDone
  split
  · exact h
  · exact (advanceStep_kept (kept_upd (countReg_kept (ucSignal_kept (kept_ite h (writeHeader_kept h))))))

theorem sweepProgress_kept {s : State} (h : Kept q p D s) : Kept q p D (sweepProgress s) := by
  unfold sweepProgress
  exact (kept_ite (signalSegs_kept h) (kept_ite (sweepDone_kept (signalSegs_kept h)) (kept_ite (sweepPartial_kept (signalSegs_kept h)) (signalSegs_kept h))))

theorem resumeNorm_kept {s : State} {d : SweepDesc} (h : Kept q p D s) : Kept q p D (resumeNorm s d) := by
  unfold resumeNorm
  exact (kept_ite (kept_upd h) (settleClip_kept h))

theorem beginSweep_kept {s : State} {w : Sweep} (h : Kept q p D s) : Kept q p D (beginSweep s w) := by
  unfold beginSweep
  exact (kept_ite (sweepDone_kept (kept_upd (kept_upd h))) (sweepProgress_kept (kept_foldl (kept_foldl (writeHeader_kept (kept_upd (kept_ite (resumeNorm_kept (kept_upd (kept_upd h))) (settleClip_kept (kept_upd (kept_upd h)))))) (fun _ _ h1 => (kept_ite (stopUnit_kept h1) h1))) (fun _ _ h1 => (settleUnit_kept h1)))))

theorem beginHeld_kept {s : State} (h : Kept q p D s) : Kept q p D (beginHeld s) := by
  unfold beginHeld
  split
  · exact (kept_ite (beginSweep_kept h) h)
  · exact h

theorem startSweep_kept {s : State} {addr : Nat} {resume : Bool} {ctx : Nat} (h : Kept q p D s) : Kept q p D (startSweep s addr resume ctx) := by
  unfold startSweep
  try dsimp only
  split
  · exact (setErr_kept h)
  · exact (kept_ite (beginSweep_kept h) (kept_upd h))

theorem sweepGo_kept {s : State} {resume : Bool} (h : Kept q p D s) : Kept q p D (sweepGo s resume) := by
  unfold sweepGo
  exact (startSweep_kept h)

theorem ucExpectWrite_kept {s : State} {v : Nat} (h : Kept q p D s) : Kept q p D (ucExpectWrite s v) := by
  unfold ucExpectWrite
  exact (beginHeld_kept (tryGrant_kept (setReg_kept h)))

theorem sweepFail_kept {s : State} (h : Kept q p D s) : Kept q p D (sweepFail s) := by
  unfold sweepFail
  exact (kept_upd (writeHeader_kept (kept_foldl h (fun _ _ h1 => (stopUnit_kept h1)))))

theorem normCancel_kept {s : State} (h : Kept q p D s) : Kept q p D (normCancel s) := by
  unfold normCancel
  try dsimp only
  split
  · exact (kept_ite (sweepFail_kept (kept_upd h)) (kept_upd h))
  · exact (kept_upd h)

theorem ucCtrl_kept {s : State} {v : Nat} (h : Kept q p D s) : Kept q p D (ucCtrl s v) := by
  unfold ucCtrl
  exact (kept_ite (sweepGo_kept (kept_ite (sealReopen_kept (kept_ite (normCancel_kept h) h)) (kept_ite (normCancel_kept h) h))) (kept_ite (sealReopen_kept (kept_ite (normCancel_kept h) h)) (kept_ite (normCancel_kept h) h)))

theorem chunkFail_kept {s : State} {u : Nat} {retries : Nat} {fails : Nat} (h : Kept q p D s) : Kept q p D (chunkFail s u retries fails) := by
  unfold chunkFail
  exact (setErr_kept (countReg_kept (countReg_kept h)))

theorem chunkFault_kept {s : State} {u : Nat} (h : Kept q p D s) : Kept q p D (chunkFault s u) := by
  unfold chunkFault
  exact (countPermanent_kept (sweepFail_kept (setUnit_kept (writeRecord_kept (setErr_kept (chunkFail_kept h))))))

theorem commitChunk_kept {s : State} {u : Nat} {o : ChunkOut} (h : Kept q p D s) : Kept q p D (commitChunk s u o) := by
  unfold commitChunk
  exact (sweepProgress_kept (settleUnit_kept (kept_ite (writeRecord_kept (setUnit_kept (countReg_kept (countReg_kept (countReg_kept (kept_foldl h (fun _ _ h1 => (storeBytes_kept h1)))))))) (setUnit_kept (countReg_kept (countReg_kept (countReg_kept (kept_foldl h (fun _ _ h1 => (storeBytes_kept h1))))))))))

theorem ucNextIndex_kept {s : State} (h : Kept q p D s) : Kept q p D (ucNextIndex s) := by
  unfold ucNextIndex
  exact (setReg_kept h)

theorem ucRstoreRead_kept {s : State} (h : Kept q p D s) : Kept q p D (ucRstoreRead s) := by
  unfold ucRstoreRead
  exact (ucNextIndex_kept h)

theorem ucRstoreWrite_kept {s : State} {v : W32} (h : Kept q p D s) : Kept q p D (ucRstoreWrite s v) := by
  unfold ucRstoreWrite
  exact (kept_ite (setErr_kept h) (ucNextIndex_kept (kept_upd h)))

theorem ucCommit_kept {s : State} {slot : Nat} {length : Nat} (h : Kept q p D s) : Kept q p D (ucCommit s slot length) := by
  unfold ucCommit
  exact (kept_ite (setErr_kept h) (by
    try dsimp only
    split
    · exact (kept_upd h)
    · exact (setReg_kept (setErr_kept (kept_upd h)))))

theorem updInject_kept {s : State} {u : Nat} {v : Nat} (h : Kept q p D s) : Kept q p D (updInject s u v) := by
  unfold updInject
  exact (setReg_kept h)

theorem startBist_kept {s : State} {page : Nat} {off : Nat} {v : Nat} {idle : Bool} (h : Kept q p D s) : Kept q p D (startBist s page off v idle) := by
  unfold startBist
  exact (kept_ite (setReg_kept h) h)

end Sys2Proof.Machine
end

