-- ==== Sys2Proof/Laws/KeptFaultCmds.lean ====
section
/-!
SUPPORT. Laws/KeptFaultCmds.lean: every operation of Machine/FaultCmds.lean keeps the queue, the part, the canonical tables and the beats (Laws/Kept.lean).
-/
namespace Sys2Proof.Machine

variable {q : List Instr} {p : Part} {D : Vector Nat 4 → Prop}

theorem clearHamper_kept {s : State} {c : Nat} {l : Nat} (h : Kept q p D s) : Kept q p D (clearHamper s c l) := by
  unfold clearHamper
  exact (modH_kept (emptyList_kept h))

theorem clearStep_kept {s : State} {c : Nat} (h : Kept q p D s) : Kept q p D (clearStep s c) := by
  unfold clearStep
  exact (kept_upd (kept_foldl (kept_foldl (kept_foldl h (fun _ _ h1 => (clearHamper_kept h1))) (fun _ _ h1 => (resetTally_kept h1))) (fun _ _ h1 => (clearSlot_kept h1))))

theorem takePoints_kept {s : State} {c : Nat} (h : Kept q p D s) : Kept q p D (takePoints s c) := by
  unfold takePoints
  exact (kept_foldl h (fun _ _ h1 => (modCore_kept h1)))

theorem releaseHeld_kept {s : State} (h : Kept q p D s) : Kept q p D (releaseHeld s) := by
  unfold releaseHeld
  exact (kept_foldl (countReg_kept (kept_upd h)) (fun _ _ h1 => (applyHeld_kept h1)))

theorem replayStep_kept {s : State} {r : Restart} (h : Kept q p D s) : Kept q p D (replayStep s r) := by
  unfold replayStep
  exact (releaseHeld_kept (emit_kept (addLoss_kept (countReg_kept (kept_upd (takePoints_kept (clearStep_kept h)))))))

theorem refusalNotice_kept {s : State} {ctx : Nat} {st : Nat} {a : Nat} (h : Kept q p D s) : Kept q p D (refusalNotice s ctx st a) := by
  unfold refusalNotice
  exact (kept_ite (refuseSeal_kept (kept_upd h)) (kept_ite h (kept_ite (kept_upd h) (kept_ite h (emit_kept (setErr_kept h))))))

theorem endContext_kept {s : State} {c : Nat} (h : Kept q p D s) : Kept q p D (endContext s c) := by
  unfold endContext
  exact (modCtx_kept (kept_foldl h (fun _ _ h1 => (modH_kept h1))))

theorem moveMv_kept {s : State} {d : Nat} {up : Bool} {mV : Nat} (h : Kept q p D s) : Kept q p D (moveMv s d up mV) := by
  unfold moveMv
  exact (kept_upd h)

theorem suspect_kept {s : State} {u : Nat} {share : Nat} (h : Kept q p D s) : Kept q p D (suspect s u share) := by
  unfold suspect
  exact (kept_ite (countFault_kept (emit_kept (countReg_kept h))) (emit_kept (countReg_kept h)))

theorem fltReport_kept {s : State} {v : Nat} (h : Kept q p D s) : Kept q p D (fltReport s v) := by
  unfold fltReport
  exact (kept_ite (countFaultAs_kept (emit_kept (countReg_kept h))) (emit_kept (countReg_kept h)))

theorem fltFlagClear_kept {s : State} {v : W32} (h : Kept q p D s) : Kept q p D (fltFlagClear s v) := by
  unfold fltFlagClear
  exact (kept_ite (kept_flash (setReg_kept h)) (setErr_kept h))

theorem flashEraseLog_kept {s : State} {v : Nat} (h : Kept q p D s) : Kept q p D (flashEraseLog s v) := by
  unfold flashEraseLog
  exact (kept_ite h (kept_ite (setErr_kept h) (kept_flash h)))

theorem eventTest_kept {s : State} {v : Nat} (h : Kept q p D s) : Kept q p D (eventTest s v) := by
  unfold eventTest
  exact (emit_kept h)

theorem domainWrite_kept {s : State} {off : Nat} {v : Nat} (h : Kept q p D s) : Kept q p D (domainWrite s off v) := by
  unfold domainWrite
  exact (kept_ite (setErr_kept h) (setReg_kept h))

end Sys2Proof.Machine
end

