-- ==== Sys2Proof/Laws/KeptSessions.lean ====
section
/-!
SUPPORT. Laws/KeptSessions.lean: every operation of Machine/Sessions.lean keeps the queue, the part, the canonical tables and the beats (Laws/Kept.lean).
-/
namespace Sys2Proof.Machine

variable {q : List Instr} {p : Part} {D : Vector Nat 4 → Prop}

theorem setPort_kept {s : State} {a1 : Nat} {a2 : Port} (h : Kept q p D s) : Kept q p D (setPort s a1 a2) := by
  unfold setPort
  exact (kept_upd h)

theorem hostAck_kept {s : State} {a1 : HostSession} (h : Kept q p D s) : Kept q p D (hostAck s a1) := by
  unfold hostAck
  exact (countReg_kept (kept_upd h))

theorem dropEvents_kept {s : State} {session : Nat} {gone : Nat → Bool} (h : Kept q p D s) : Kept q p D (dropEvents s session gone) := by
  unfold dropEvents
  exact (kept_upd h)

theorem hostAcked_kept {s : State} {session : Nat} {gone : Nat → Bool} (h : Kept q p D s) : Kept q p D (hostAcked s session gone) := by
  unfold hostAcked
  split
  · exact h
  · exact (kept_ite (sendEvents_kept (hostDrain_kept (dropEvents_kept (setHostSess_kept h)))) (hostDrain_kept (dropEvents_kept (setHostSess_kept h))))

theorem endHost_kept {s : State} {session : Nat} (h : Kept q p D s) : Kept q p D (endHost s session) := by
  unfold endHost
  split
  · exact h
  · exact (kept_ite (kept_upd (kept_upd h)) (kept_upd h))

theorem loseHost_kept {s : State} {session : Nat} (h : Kept q p D s) : Kept q p D (loseHost s session) := by
  unfold loseHost
  split
  · exact h
  · exact (endHost_kept (setErr_kept h))

theorem makeSink_kept {s : State} {session : Nat} (h : Kept q p D s) : Kept q p D (makeSink s session) := by
  unfold makeSink
  exact (exportRecords_kept (sendEvents_kept (kept_upd h)))

theorem flushHeld_kept {s : State} {session : Nat} (h : Kept q p D s) : Kept q p D (flushHeld s session) := by
  unfold flushHeld
  exact (kept_foldl (kept_upd h) (fun _ _ h1 => (hostSend_kept h1)))

theorem refuseOpen_kept {s : State} {d : Dest} (h : Kept q p D s) : Kept q p D (refuseOpen s d) := by
  unfold refuseOpen
  exact (kept_upd (draw_kept h))

theorem openHost_kept {s : State} {m : SessHead} {events : Bool} (h : Kept q p D s) : Kept q p D (openHost s m events) := by
  unfold openHost
  exact (kept_ite h (kept_ite (setErr_kept h) (by
    split
    · exact (kept_ite (hostAck_kept h) (refuseOpen_kept h))
    · exact (kept_ite (refuseOpen_kept h) (flushHeld_kept (kept_ite (makeSink_kept (hostPush_kept (kept_upd h))) (hostPush_kept (kept_upd h))))))))

theorem hostTurn_kept {s : State} {session n : Nat} (h : Kept q p D s) : KeptSome q p D (hostTurn s session n) := by
  unfold hostTurn
  split
  · exact keptSome_none
  · exact keptSome_ite (keptSome_some (setHostSess_kept h)) keptSome_none

theorem openNear_kept {s : State} {m : Nat} (h : Kept q p D s) : Kept q p D (openNear s m) := by
  unfold openNear
  exact (kept_ite h (by
    split
    · exact h
    · exact (countReg_kept (kept_upd (draw_kept h)))))

theorem openNears_kept {s : State} (h : Kept q p D s) : Kept q p D (openNears s) := by
  unfold openNears
  exact (kept_foldl h (fun _ _ h1 => (openNear_kept h1)))

theorem chargeUsers_kept {s : State} {users : List Nat} (h : Kept q p D s) : Kept q p D (chargeUsers s users) := by
  unfold chargeUsers
  split
  · exact (chargeSeal_kept h)
  · exact h

theorem loseNear_kept {s : State} {m : Nat} (h : Kept q p D s) : Kept q p D (loseNear s m) := by
  unfold loseNear
  split
  · exact h
  · exact (openNear_kept (chargeUsers_kept (loseModule_kept (kept_upd (emit_kept (setErr_kept h))))))

theorem openPeer_kept {s : State} {m : SessHead} {a2 : Nat} (h : Kept q p D s) : Kept q p D (openPeer s m a2) := by
  unfold openPeer
  exact (kept_ite h (nearPush_kept (kept_upd (loseNear_kept h))))

theorem nearAck_kept {s : State} {a1 : NearSession} (h : Kept q p D s) : Kept q p D (nearAck s a1) := by
  unfold nearAck
  exact (countReg_kept (kept_upd (setNearSess_kept h)))

theorem nearAcked_kept {s : State} {a1 : NearSession} {a : Nat} {credit : Nat} (h : Kept q p D s) : Kept q p D (nearAcked s a1 a credit) := by
  unfold nearAcked
  exact (nearDrain_kept (setNearSess_kept h))

theorem losePort_kept {s : State} {a1 : Nat} {half : Option Nat} (h : Kept q p D s) : Kept q p D (losePort s a1 half) := by
  unfold losePort
  exact (kept_foldl (kept_foldl h (fun _ _ h1 => (loseHost_kept h1))) (fun _ _ h1 => (loseNear_kept h1)))

end Sys2Proof.Machine
end

