-- ==== Sys2Proof/Laws/KeptPorts.lean ====
section
/-!
SUPPORT. Laws/KeptPorts.lean: every operation of Machine/Ports.lean keeps the queue, the part, the canonical tables and the beats (Laws/Kept.lean).
-/
namespace Sys2Proof.Machine

variable {q : List Instr} {p : Part} {D : Vector Nat 4 → Prop}

theorem setLink_kept {s : State} {a1 : Nat} {a2 : Nat} {l : Link} (h : Kept q p D s) : Kept q p D (setLink s a1 a2 l) := by
  unfold setLink
  exact (setPort_kept h)

theorem noteDown_kept {s : State} {a1 : Nat} (h : Kept q p D s) : Kept q p D (noteDown s a1) := by
  unfold noteDown
  exact (kept_ite h (setPort_kept h))

theorem noteUp_kept {s : State} {a1 : Nat} (h : Kept q p D s) : Kept q p D (noteUp s a1) := by
  unfold noteUp
  try dsimp only
  split
  · exact h
  · exact (kept_ite (addLoss_kept (countReg_kept (setPort_kept h))) (countReg_kept (setPort_kept h)))

theorem formPort_kept {s : State} {a1 : Nat} {split : Bool} (h : Kept q p D s) : Kept q p D (formPort s a1 split) := by
  unfold formPort
  exact (setPort_kept h)

theorem portLeaves_kept {s : State} {a1 : Nat} {a2 : Nat} (h : Kept q p D s) : Kept q p D (portLeaves s a1 a2) := by
  unfold portLeaves
  exact (emit_kept (setErr_kept h))

theorem retireLane_kept {s : State} {a1 : Nat} {l : Nat} (h : Kept q p D s) : Kept q p D (retireLane s a1 l) := by
  unfold retireLane
  exact (kept_ite h (kept_ite (kept_ite (emit_kept (setErr_kept (setPort_kept (kept_flash h)))) (losePort_kept (portLeaves_kept (setLink_kept (noteDown_kept (emit_kept (setErr_kept (setPort_kept (kept_flash h))))))))) (kept_ite (emit_kept (setErr_kept (setPort_kept (kept_flash h)))) (kept_ite (losePort_kept (portLeaves_kept (setLink_kept (noteDown_kept (emit_kept (setErr_kept (setPort_kept (kept_flash h)))))))) (kept_ite (emit_kept (setErr_kept (setPort_kept (kept_flash h)))) (losePort_kept (formPort_kept (noteDown_kept (emit_kept (setErr_kept (setPort_kept (kept_flash h))))))))))))

theorem flashReg_kept {s : State} {bank off v : Nat} (h : Kept q p D s) : Kept q p D (flashReg s bank off v) :=
  have h1 := setReg_kept (bank := bank) (off := off) (v := v) h
  kept_of h1 rfl rfl h1.mem_wf h1.regs_rising (sparseSet_rising0 _ h1.flash_rising _ _) h1.pages_wf h1.wheels_wf h1.tly_rising h1.beats

theorem portCfg_kept {s : State} {a1 : Nat} {v : Nat} (h : Kept q p D s) : Kept q p D (portCfg s a1 v) := by
  unfold portCfg
  exact (kept_ite (setErr_kept h) (kept_ite h (losePort_kept (formPort_kept (noteDown_kept (flashReg_kept h))))))

theorem portLaneRetire_kept {s : State} {a1 : Nat} {v : Nat} (h : Kept q p D s) : Kept q p D (portLaneRetire s a1 v) := by
  unfold portLaneRetire
  exact (kept_ite (retireLane_kept h) h)

theorem portLoopback_kept {s : State} {a1 : Nat} {v : Nat} (h : Kept q p D s) : Kept q p D (portLoopback s a1 v) := by
  unfold portLoopback
  exact (kept_ite (setPort_kept (noteDown_kept (setReg_kept h))) (kept_ite (formPort_kept (setReg_kept h)) (setReg_kept h)))

theorem hostFrame_kept {s : State} {session : Nat} {kind : Nat} {seq : Nat} {a : Nat} (h : Kept q p D s) : Kept q p D (hostFrame s session kind seq a) := by
  unfold hostFrame
  try dsimp only
  split
  · exact (hostAcked_kept h)
  · exact (kept_ite (hostAcked_kept h) (hostAck_kept (setHostSess_kept (hostAcked_kept h))))

theorem nearFrame_kept {s : State} {a1 : NearSession} {kind : Nat} {seq : Nat} {a : Nat} {credit : Nat} {len : Nat} (h : Kept q p D s) : Kept q p D (nearFrame s a1 kind seq a credit len) := by
  unfold nearFrame
  exact (kept_ite (loseNear_kept h) (by
    try dsimp only
    split
    · exact (kept_ite (nearAck_kept (nearAcked_kept (setNearSess_kept h))) (nearAcked_kept (setNearSess_kept h)))
    · exact (nearAcked_kept (setNearSess_kept h))))

theorem vyvexFrame_kept {s : State} {a1 : Nat} {a2 : Nat} {f : RxFrame} (h : Kept q p D s) : Kept q p D (vyvexFrame s a1 a2 f) := by
  unfold vyvexFrame
  exact (kept_ite (countReg_kept h) (kept_ite (by
    try dsimp only
    split
    · exact (loseNear_kept (setErr_kept (countReg_kept h)))
    · exact (setErr_kept (countReg_kept h))) (kept_ite (hostFrame_kept (kept_ite h (residueFailure_kept h))) (kept_ite (by
    split
    · exact (kept_ite (kept_ite h (residueFailure_kept h)) (nearFrame_kept (kept_ite h (residueFailure_kept h))))
    · exact (kept_ite h (residueFailure_kept h))) (kept_ite h (residueFailure_kept h))))))

theorem wireReply_kept {s : State} {a1 : Nat} {a2 : Nat} {kind : Nat} {fields : List Nat} (h : Kept q p D s) : Kept q p D (wireReply s a1 a2 kind fields) := by
  unfold wireReply
  exact (countReg_kept (kept_upd h))

theorem neighbourReply_kept {s : State} {a1 : Nat} {a2 : Nat} {kind : Nat} {ip : Nat} {v4 : Bool} (h : Kept q p D s) : Kept q p D (neighbourReply s a1 a2 kind ip v4) := by
  unfold neighbourReply
  exact (kept_ite (wireReply_kept h) h)

theorem turn_kept {s : State} {m : SessHead} (h : Kept q p D s) : KeptSome q p D (turn s m) := by
  unfold turn
  split
  · exact hostTurn_kept h
  · exact keptSome_ite (keptSome_some h) keptSome_none

theorem replyTo_kept {s : State} {m : SessHead} {o : OutMsg} (h : Kept q p D s) : Kept q p D (replyTo s m o) := by
  unfold replyTo
  split
  · exact (hostSend_kept h)
  · exact (by
  split
  · exact (kept_ite (nearPush_kept h) h)
  · exact h)

theorem bulkRead_kept {s : State} {m : SessHead} {a : Nat} {n : Nat} {tag : Nat} (h : Kept q p D s) : Kept q p D (bulkRead s m a n tag) := by
  unfold bulkRead
  exact (kept_ite (replyTo_kept h) (kept_ite (requesterFailure_kept (readErrors_kept (kept_foldl h (fun _ _ h1 => (replyTo_kept h1))))) (readErrors_kept (kept_foldl h (fun _ _ h1 => (replyTo_kept h1))))))

theorem bulkWrite_kept {s : State} {m : SessHead} {a : Nat} {bs : List Byte} {vid : Option (BitVec 12)} {tag : Nat} {bad : List Nat} (h : Kept q p D s) : Kept q p D (bulkWrite s m a bs vid tag bad) := by
  unfold bulkWrite
  exact (kept_ite (replyTo_kept h) (replyTo_kept (by
    split
    · exact (sendSignal_kept (by
    split
    · exact (normArrive_kept h)
    · exact (checkedWrite_kept h)))
    · exact (by
    split
    · exact (normArrive_kept h)
    · exact (checkedWrite_kept h)))))

theorem merge_kept {s : State} {m : MsgHead} {a2 : Nat} {dst : Nat} {tally : Nat} {slots : List (BitVec 128)} (h : Kept q p D s) : Kept q p D (merge s m a2 dst tally slots) := by
  unfold merge
  exact (kept_ite (tallyErr_kept (noteUser_kept h)) (by
    try dsimp only
    split
    · exact (countReg_kept (noteUser_kept h))
    · exact (kept_upd (noteUser_kept h))))

theorem portConfig_kept {s : State} {a1 : Nat} {off : Nat} {v : Nat} (h : Kept q p D s) : Kept q p D (portConfig s a1 off v) := by
  unfold portConfig
  try dsimp only
  split
  · exact (kept_ite (setErr_kept h) (flashReg_kept h))
  · exact (kept_ite (kept_ite (setErr_kept h) (flashReg_kept h)) (kept_ite (kept_ite (flashReg_kept h) h) (setReg_kept h)))

theorem peerWrite_kept {s : State} {off : Nat} {v : Nat} (h : Kept q p D s) : Kept q p D (peerWrite s off v) := by
  unfold peerWrite
  exact (kept_ite (setErr_kept h) (openNear_kept (flashReg_kept h)))

end Sys2Proof.Machine
end

