-- ==== Sys2Proof/Laws/KeptSecure.lean ====
section
/-!
SUPPORT. Laws/KeptSecure.lean: every operation of Machine/Secure.lean keeps the queue, the part, the canonical tables and the beats (Laws/Kept.lean).
-/
namespace Sys2Proof.Machine

variable {q : List Instr} {p : Part} {D : Vector Nat 4 → Prop}

theorem modSec_kept {s : State} {f : Secure → Secure} (h : Kept q p D s) : Kept q p D (modSec s f) := by
  unfold modSec
  exact (kept_upd h)

theorem secCode_kept {s : State} {code : Nat} (h : Kept q p D s) : Kept q p D (secCode s code) := by
  unfold secCode
  exact (setErrIf_kept (modSec_kept h))

theorem entropy_kept {n : Nat} {s : State} (h : Kept q p D s) : Kept q p D (entropy n s).2 := modSec_kept h

theorem secBegin_kept {s : State} {op : SecOp} (h : Kept q p D s) : Kept q p D (secBegin s op) := by
  unfold secBegin
  exact (kept_ite (secCode_kept h) (modSec_kept h))

theorem fwStageDone_kept {s : State} {flashOk : Bool} (h : Kept q p D s) : Kept q p D (fwStageDone s flashOk) := by
  unfold fwStageDone
  exact (kept_ite (secCode_kept h) (by
    split
    · exact (secCode_kept h)
    · exact (kept_ite (secCode_kept (modSec_kept (kept_flash h))) (secCode_kept (modSec_kept (kept_flash h))))))

theorem svnCommit_kept {s : State} {v : Nat} {fuseOk : Bool} (h : Kept q p D s) : Kept q p D (svnCommit s v fuseOk) := by
  unfold svnCommit
  exact (kept_ite (secCode_kept h) (kept_ite (secCode_kept (modSec_kept h)) (secCode_kept (setErr_kept h))))

theorem keyRevoke_kept {s : State} {v : Nat} {fuseOk : Bool} (h : Kept q p D s) : Kept q p D (keyRevoke s v fuseOk) := by
  unfold keyRevoke
  exact (kept_ite h (kept_ite (secCode_kept h) (kept_ite (secCode_kept (modSec_kept h)) (secCode_kept (setErr_kept h)))))

theorem timeCheck_kept {s : State} {nb na : Nat} (h : Kept q p D s) : Kept q p D (timeCheck s nb na).1 := by
  unfold timeCheck
  simp only [apply_ite Prod.fst]
  exact kept_ite h (countReg_kept h)

theorem sitecertInstall_kept {s : State} (h : Kept q p D s) : Kept q p D (sitecertInstall s) := by
  unfold sitecertInstall
  exact (kept_ite (secCode_kept h) (kept_ite (secCode_kept h) (kept_ite (secCode_kept h) (by
    split
    · exact (secCode_kept h)
    · exact (kept_ite (secCode_kept h) (kept_ite (secCode_kept h) (kept_ite (secCode_kept (timeCheck_kept h)) (secCode_kept (modSec_kept (kept_flash (timeCheck_kept h)))))))))))

theorem sitecertErase_kept {s : State} (h : Kept q p D s) : Kept q p D (sitecertErase s) := by
  unfold sitecertErase
  exact (kept_ite (secCode_kept h) (secCode_kept (modSec_kept (kept_flash h))))

theorem anchorInstall_kept {s : State} {slot : Nat} (h : Kept q p D s) : Kept q p D (anchorInstall s slot) := by
  unfold anchorInstall
  exact (kept_ite (secCode_kept h) (kept_ite (secCode_kept h) (kept_ite (secCode_kept h) (secCode_kept (modSec_kept (kept_flash h))))))

theorem anchorErase_kept {s : State} {slot : Nat} (h : Kept q p D s) : Kept q p D (anchorErase s slot) := by
  unfold anchorErase
  exact (kept_ite (secCode_kept h) (secCode_kept (modSec_kept (kept_flash h))))

theorem trustCtrl_kept {s : State} {v : Nat} (h : Kept q p D s) : Kept q p D (trustCtrl s v) := by
  unfold trustCtrl
  exact (kept_ite (anchorErase_kept (kept_ite (anchorInstall_kept (kept_ite (sitecertErase_kept (kept_ite (sitecertInstall_kept h) h)) (kept_ite (sitecertInstall_kept h) h))) (kept_ite (sitecertErase_kept (kept_ite (sitecertInstall_kept h) h)) (kept_ite (sitecertInstall_kept h) h)))) (kept_ite (anchorInstall_kept (kept_ite (sitecertErase_kept (kept_ite (sitecertInstall_kept h) h)) (kept_ite (sitecertInstall_kept h) h))) (kept_ite (sitecertErase_kept (kept_ite (sitecertInstall_kept h) h)) (kept_ite (sitecertInstall_kept h) h))))

theorem reportDone_kept {s : State} {cert : Bool} (h : Kept q p D s) : Kept q p D (reportDone s cert) := by
  unfold reportDone
  exact (kept_ite (secCode_kept h) (secCode_kept (modSec_kept (storeBytes_kept h))))

theorem secCtrl_kept {s : State} {v : Nat} (h : Kept q p D s) : Kept q p D (secCtrl s v) := by
  unfold secCtrl
  exact (kept_ite (secBegin_kept (kept_ite (secBegin_kept h) h)) (kept_ite (secBegin_kept h) h))

end Sys2Proof.Machine
end

