-- ==== Sys2Proof/Laws/KeptFarLink.lean ====
section
/-!
SUPPORT. Laws/KeptFarLink.lean: every operation of Machine/FarLink.lean keeps the queue, the part, the canonical tables and the beats (Laws/Kept.lean).
-/
namespace Sys2Proof.Machine

variable {q : List Instr} {p : Part} {D : Vector Nat 4 → Prop}

theorem modRmb_kept {s : State} {f : Rmb → Rmb} (h : Kept q p D s) : Kept q p D (modRmb s f) := by
  unfold modRmb
  exact (kept_upd h)

theorem modPeer_kept {s : State} {j : Nat} {f : FarPeer → FarPeer} (h : Kept q p D s) : Kept q p D (modPeer s j f) := by
  unfold modPeer
  exact (modRmb_kept h)

theorem farFrame_kept {s : State} {j : Nat} {r : Nat} {kind : Nat} {session : Nat} {seq : Nat} {body : List Byte} (h : Kept q p D s) : Kept q p D (farFrame s j r kind session seq body) := by
  unfold farFrame
  exact (countReg_kept (kept_upd h))

theorem farSendUnder_kept {s : State} {j : Nat} {r : Nat} {kind : Nat} {epoch : Nat} {key : List Byte} {inner : List Byte} (h : Kept q p D s) : Kept q p D (farSendUnder s j r kind epoch key inner) := by
  unfold farSendUnder
  split
  · exact h
  · exact (farFrame_kept (countReg_kept (modRmb_kept h)))

theorem farSend_kept {s : State} {j : Nat} {r : Nat} {kind : Nat} {inner : List Byte} (h : Kept q p D s) : Kept q p D (farSend s j r kind inner) := by
  unfold farSend
  split
  · exact (kept_ite (farSendUnder_kept h) h)
  · exact h

theorem farSendAny_kept {s : State} {j : Nat} {kind : Nat} {inner : List Byte} (h : Kept q p D s) : Kept q p D (farSendAny s j kind inner) := by
  unfold farSendAny
  split
  · exact (farSend_kept h)
  · exact h

theorem sendShard_kept {m : FarMsg} {s : State} {index : Nat} (h : Kept q p D s) : Kept q p D (sendShard m s index) := by
  unfold sendShard
  exact (farSend_kept h)

theorem issueMsg_kept {s : State} {m : FarMsg} (h : Kept q p D s) : Kept q p D (issueMsg s m) := by
  unfold issueMsg
  exact (kept_ite (kept_foldl h (fun _ _ h1 => (sendShard_kept h1))) h)

theorem setOut_kept {s : State} {m : FarMsg} (h : Kept q p D s) : Kept q p D (setOut s m) := by
  unfold setOut
  exact (modRmb_kept h)

theorem sendBody_kept {s : State} {j stream origin round : Nat} {body : List Byte} {n off : Nat} (h : Kept q p D s) :
    Kept q p D (sendBody s j stream origin round body n off) := by
  induction n generalizing s off with
  | zero => exact h
  | succ n ih =>
    unfold sendBody
    exact kept_ite (issueMsg_kept (modRmb_kept h)) (ih (issueMsg_kept (modRmb_kept h)))

theorem sendBodyTo_kept {s : State} {j : Nat} {stream : Nat} {origin : Nat} {round : Nat} {body : List Byte} (h : Kept q p D s) : Kept q p D (sendBodyTo s j stream origin round body) := by
  unfold sendBodyTo
  exact (sendBody_kept h)

theorem reissue_kept {s : State} {m : FarMsg} (h : Kept q p D s) : Kept q p D (reissue s m) := by
  unfold reissue
  exact (issueMsg_kept (countReg_kept (modRmb_kept h)))

theorem reissueAll_kept {s : State} {j : Nat} (h : Kept q p D s) : Kept q p D (reissueAll s j) := by
  unfold reissueAll
  exact (kept_foldl h (fun _ _ h1 => (reissue_kept h1)))

theorem moreParity_kept {s : State} {m : FarMsg} {n : Nat} (h : Kept q p D s) : Kept q p D (moreParity s m n) := by
  unfold moreParity
  exact (kept_ite h (kept_ite (reissue_kept h) (countReg_kept (setOut_kept (kept_foldl h (fun _ _ h1 => (sendShard_kept h1)))))))

theorem routeSeen_kept {s : State} {j : Nat} {r : Nat} (h : Kept q p D s) : Kept q p D (routeSeen s j r) := by
  unfold routeSeen
  exact (kept_ite (reissueAll_kept (modPeer_kept h)) (modPeer_kept h))

theorem accept_kept {s : State} {m : FarHead} (h : Kept q p D s) : Kept q p D (accept s m).1 := by
  unfold accept
  dsimp only
  split
  · exact countReg_kept h
  · split
    · split <;> exact countReg_kept h
    · split
      · exact setErr_kept (countReg_kept h)
      · split
        · exact countReg_kept h
        · exact routeSeen_kept (countReg_kept (modPeer_kept h))

theorem onAccept_kept {s : State} {m : FarHead} {f : State → State} (h : Kept q p D s) (hf : ∀ t, Kept q p D t → Kept q p D (f t)) : Kept q p D (onAccept s m f) := by
  unfold onAccept
  exact (kept_ite (hf _ (accept_kept h)) (accept_kept h))

theorem sendReceipt_kept {s : State} {j : Nat} {r : Nat} {stream : Nat} {origin : Nat} {msg : Nat} (h : Kept q p D s) : Kept q p D (sendReceipt s j r stream origin msg) := by
  unfold sendReceipt
  exact (farSend_kept h)

theorem sendNeed_kept {s : State} {j : Nat} {msg : Nat} {a3 : Nat} (h : Kept q p D s) : Kept q p D (sendNeed s j msg a3) := by
  unfold sendNeed
  exact (farSendAny_kept h)

theorem handshakeFail_kept {s : State} (h : Kept q p D s) : Kept q p D (handshakeFail s) := by
  unfold handshakeFail
  exact (setErr_kept (countReg_kept h))

theorem peerChain_kept {s : State} {j group : Nat} {chain : List Byte} (h : Kept q p D s) : Kept q p D (peerChain s j group chain).1 := by
  unfold peerChain
  split
  · exact h
  · exact timeCheck_kept h

theorem sendHello_kept {s : State} {j : Nat} (h : Kept q p D s) : Kept q p D (sendHello s j) := by
  unfold sendHello
  try dsimp only
  split
  · exact h
  · exact h
  · exact (farFrame_kept (modPeer_kept (entropy_kept (draw_kept h))))

theorem farHello_kept {s : State} {m : FarHead} {b : List Byte} (h : Kept q p D s) : Kept q p D (farHello s m b) := by
  unfold farHello
  exact (kept_ite h (by
    try dsimp only
    split
    · exact (handshakeFail_kept (peerChain_kept h))
    · exact (kept_ite (handshakeFail_kept (peerChain_kept h)) (farFrame_kept (modPeer_kept (entropy_kept (peerChain_kept h)))))))

theorem endFar_kept {s : State} {j : Nat} (h : Kept q p D s) : Kept q p D (endFar s j) := by
  unfold endFar
  exact (modPeer_kept h)

theorem ensureKey_kept {s : State} (h : Kept q p D s) : Kept q p D (ensureKey s) := by
  unfold ensureKey
  exact (kept_ite h (modRmb_kept (entropy_kept h)))

theorem sendKey_kept {s : State} {j : Nat} {epoch : Nat} {key : List Byte} (h : Kept q p D s) : Kept q p D (sendKey s j epoch key) := by
  unfold sendKey
  split
  · exact h
  · exact (by
  try dsimp only
  split
  · exact (farFrame_kept h)
  · exact h)

theorem sendOwnKey_kept {s : State} {j : Nat} (h : Kept q p D s) : Kept q p D (sendOwnKey s j) := by
  unfold sendOwnKey
  try dsimp only
  split
  · exact (sendKey_kept (ensureKey_kept h))
  · exact (ensureKey_kept h)

theorem establish_kept {s : State} {j : Nat} {t : FarTrans} (h : Kept q p D s) : Kept q p D (establish s j t) := by
  unfold establish
  exact (reissueAll_kept (modPeer_kept (endFar_kept h)))

theorem farHelloAck_kept {s : State} {m : FarHead} {b : List Byte} (h : Kept q p D s) : Kept q p D (farHelloAck s m b) := by
  unfold farHelloAck
  try dsimp only
  split
  · exact (handshakeFail_kept h)
  · exact (by
  try dsimp only
  split
  · exact (handshakeFail_kept (peerChain_kept h))
  · exact (kept_ite (handshakeFail_kept (peerChain_kept h)) (sendOwnKey_kept (establish_kept (peerChain_kept h)))))

theorem keyTransport_kept {s : State} (h : Kept q p D s) : Kept q p D (keyTransport s) := by
  unfold keyTransport
  exact (setErr_kept h)

theorem sendKeyAck_kept {s : State} {j : Nat} {r : Nat} {epoch : Nat} {key : List Byte} (h : Kept q p D s) : Kept q p D (sendKeyAck s j r epoch key) := by
  unfold sendKeyAck
  exact (farSendUnder_kept h)

theorem holdKey_kept {s : State} {j : Nat} {epoch : Nat} {key : List Byte} {b : List Byte} (h : Kept q p D s) : Kept q p D (holdKey s j epoch key b) := by
  unfold holdKey
  exact (modPeer_kept h)

theorem keyMsg_kept {s : State} {m : FarHead} {b : List Byte} (h : Kept q p D s) : Kept q p D (keyMsg s m b) := by
  unfold keyMsg
  exact (kept_ite (by
    split
    · exact (by
    split
    · exact (sendOwnKey_kept (sendKeyAck_kept (holdKey_kept (establish_kept h))))
    · exact (keyTransport_kept h))
    · exact h) (kept_ite h (by
    split
    · exact (kept_ite (sendKeyAck_kept h) (keyTransport_kept h))
    · exact (kept_ite (by
    split
    · exact (sendKeyAck_kept (holdKey_kept h))
    · exact (keyTransport_kept h)) h)
    · exact h)))

theorem nextEpoch_kept {s : State} (h : Kept q p D s) : Kept q p D (nextEpoch s) := by
  unfold nextEpoch
  exact (modRmb_kept h)

theorem rmbRekey_kept {s : State} {v : Nat} (h : Kept q p D s) : Kept q p D (rmbRekey s v) := by
  unfold rmbRekey
  exact (kept_ite h (kept_foldl (ensureKey_kept (nextEpoch_kept h)) (fun _ _ h1 => (sendOwnKey_kept h1))))

theorem heartbeatTimer_kept {s : State} {composed : Nat} {complete : Nat} {applied : Nat} (h : Kept q p D s) : Kept q p D (heartbeatTimer s composed complete applied) := by
  unfold heartbeatTimer
  exact (kept_foldl h (fun _ _ h1 => (kept_foldl h1 (fun _ _ h2 => (farSend_kept h2)))))

theorem heartbeat_kept {s : State} {j : Nat} {hb : HeartbeatMsg} (h : Kept q p D s) : Kept q p D (heartbeat s j hb) := by
  unfold heartbeat
  exact (kept_ite (reissueAll_kept (setErrIf_kept (modPeer_kept h))) (setErrIf_kept (modPeer_kept h)))

end Sys2Proof.Machine
end

