-- ==== Sys2Proof/Laws/KeptRambler.lean ====
section
/-!
SUPPORT. Laws/KeptRambler.lean: every operation of Machine/Rambler.lean keeps the queue, the part, the canonical tables and the beats (Laws/Kept.lean).
-/
namespace Sys2Proof.Machine

variable {q : List Instr} {p : Part} {D : Vector Nat 4 → Prop}

theorem signalStale_kept {s : State} {n : Nat} (h : Kept q p D s) : Kept q p D (signalStale s n) := by
  unfold signalStale
  exact (kept_ite (sendSignal_kept h) h)

theorem rmbStore_kept {s : State} {a : Nat} {bs : List Byte} (h : Kept q p D s) : Kept q p D (rmbStore s a bs) := by
  unfold rmbStore
  exact (kept_ite (storeBytes_kept h) (setErr_kept h))

theorem raiseLimit_kept {s : State} {n : Nat} (h : Kept q p D s) : Kept q p D (raiseLimit s n) := by
  unfold raiseLimit
  split
  · exact (signalStale_kept (modRmb_kept h))
  · exact (kept_ite (signalStale_kept (modRmb_kept h)) h)

theorem updateLimit_kept {s : State} (h : Kept q p D s) : Kept q p D (updateLimit s) := by
  unfold updateLimit
  split
  · exact (raiseLimit_kept h)
  · exact h

theorem setArchiveSlot_kept {s : State} (h : Kept q p D s) : Kept q p D (setArchiveSlot s) := by
  unfold setArchiveSlot
  exact (setReg_kept h)

theorem claimSlot_kept {s : State} {r : Nat} (h : Kept q p D s) : Kept q p D (claimSlot s r) := by
  unfold claimSlot
  try dsimp only
  split
  · exact (kept_ite h (countReg_kept (modRmb_kept h)))
  · exact (modRmb_kept h)

theorem archiveBody_kept {s : State} {r : Nat} {j : Nat} {body : List Byte} {hash : List Byte} (h : Kept q p D s) : Kept q p D (archiveBody s r j body hash) := by
  unfold archiveBody
  split
  · exact (kept_ite h (setErr_kept (modRmb_kept h)))
  · exact (kept_ite (modRmb_kept (rmbStore_kept (claimSlot_kept h))) h)

theorem archiveOwn_kept {s : State} (h : Kept q p D s) : Kept q p D (archiveOwn s) := by
  unfold archiveOwn
  exact (kept_ite h (kept_foldl h (fun _ _ h1 => (archiveBody_kept h1))))

theorem pruneOutbox_kept {s : State} (h : Kept q p D s) : Kept q p D (pruneOutbox s) := by
  unfold pruneOutbox
  exact (modRmb_kept h)

theorem modExch_kept {s : State} {step : Nat} {f : ExchRec → ExchRec} (h : Kept q p D s) : Kept q p D (modExch s step f) := by
  unfold modExch
  exact (kept_upd h)

theorem xCommit_kept {s : State} {step : Nat} {o : ChunkOut} (h : Kept q p D s) : Kept q p D (xCommit s step o) := by
  unfold xCommit
  exact (kept_ite (kept_foldl h (fun _ _ h1 => (storeBytes_kept h1))) (modExch_kept (kept_foldl h (fun _ _ h1 => (storeBytes_kept h1)))))

theorem rmbFail_kept {s : State} {d : Nat} (h : Kept q p D s) : Kept q p D (rmbFail s d) := by
  unfold rmbFail
  exact (residueFailure_kept (setErr_kept (countReg_kept h)))

theorem rmbRetries_kept {s : State} {checks : RmbChecks} {gs : List XSeg} (h : Kept q p D s) : Kept q p D (rmbRetries s checks gs) := by
  unfold rmbRetries
  exact (kept_foldl h (fun _ _ h1 => (kept_ite h1 (kept_ite (rmbFail_kept (setReg_kept h1)) (setReg_kept h1)))))

theorem rmbFaultStop_kept {s : State} {seg : Nat} (h : Kept q p D s) : Kept q p D (rmbFaultStop s seg) := by
  unfold rmbFaultStop
  exact (setErr_kept (rmbFail_kept (rmbFail_kept h)))

theorem endCmd_kept {s : State} {c : RmbCmd} {status : Nat} {reason : Nat} (h : Kept q p D s) : Kept q p D (endCmd s c status reason) := by
  unfold endCmd
  exact (modRmb_kept (by
    split
    · exact (setErr_kept h)
    · exact h))

theorem takeCmd_kept {s : State} {t : Nat} (h : Kept q p D s) : Kept q p D (takeCmd s t) := by
  unfold takeCmd
  exact (modRmb_kept (kept_ite (kept_ite (signalStale_kept (countReg_kept (setTally_kept h))) (countReg_kept (setTally_kept h))) (setErr_kept (kept_ite (signalStale_kept (countReg_kept (setTally_kept h))) (countReg_kept (setTally_kept h))))))

theorem beginCmd_kept {s : State} {f : Nat → Bool} {run : State → RmbCmd → Nat → State} (h : Kept q p D s) (hrun : ∀ t x0 x1, Kept q p D t → Kept q p D (run t x0 x1)) : Kept q p D (beginCmd s f run) := by
  unfold beginCmd
  exact (kept_ite h (by
    split
    · exact h
    · exact (kept_ite h (kept_ite (endCmd_kept (modRmb_kept (takeCmd_kept h))) (kept_ite (by
    split
    · exact (kept_ite (modRmb_kept (modRmb_kept (takeCmd_kept h))) (endCmd_kept (modRmb_kept (takeCmd_kept h))))
    · exact (endCmd_kept (modRmb_kept (takeCmd_kept h)))) (hrun _ _ _ (modRmb_kept (takeCmd_kept h))))))))

/-- The chunks of a rambler command keep what each chunk's commit keeps. -/
theorem countRmb_kept {s : State} {n : Counts × Counts} (h : Kept q p D s) : Kept q p D (countRmb s n) := by
  unfold countRmb
  exact (countReg_kept (countReg_kept (countReg_kept (countReg_kept h))))

theorem runWork_kept {s : State} {step : Nat} {gs : List XSeg} {stop : Option (Nat × Nat)} {bad : Bool} {f : State → XSeg → Nat → Nat → ChunkOut}
    (h : Kept q p D s) : Kept q p D (runWork s step gs stop bad f).s := by
  unfold runWork
  have h1 : Kept q p D (XRun.mk s (noCounts, noCounts) none).s := h
  generalize XRun.mk s (noCounts, noCounts) none = r at h1
  induction workItems gs generalizing r with
  | nil => exact h1
  | cons x l ih =>
    refine ih _ ?_
    dsimp only
    split
    · exact h1
    · split
      · exact h1
      · exact xCommit_kept h1

theorem composeWork_kept {s : State} {c : RmbCmd} {checks : RmbChecks} (h : Kept q p D s) : Kept q p D (composeWork s c checks) := by
  unfold composeWork
  dsimp only
  split
  · exact endCmd_kept (pruneOutbox_kept h)
  · split
    · exact endCmd_kept (rmbFaultStop_kept (runWork_kept (rmbRetries_kept (pruneOutbox_kept h))))
    · exact endCmd_kept (countRmb_kept (rmbStore_kept (runWork_kept (rmbRetries_kept (pruneOutbox_kept h)))))

theorem composeCmd_kept {checks : RmbChecks} {s : State} {c : RmbCmd} {a3 : Nat} (h : Kept q p D s) : Kept q p D (composeCmd checks s c a3) := by
  unfold composeCmd
  split
  · exact (endCmd_kept h)
  · exact (kept_ite (endCmd_kept h) (composeWork_kept h))

theorem commitCompose_kept {s : State} {d : Composed} (h : Kept q p D s) : Kept q p D (commitCompose s d) := by
  unfold commitCompose
  exact (kept_ite (raiseLimit_kept (updateLimit_kept (kept_ite (archiveOwn_kept (modRmb_kept h)) (kept_foldl (archiveOwn_kept (modRmb_kept h)) (fun _ _ h1 => (sendBodyTo_kept h1)))))) (updateLimit_kept (kept_ite (archiveOwn_kept (modRmb_kept h)) (kept_foldl (archiveOwn_kept (modRmb_kept h)) (fun _ _ h1 => (sendBodyTo_kept h1))))))

theorem writeManifest_kept {s : State} {r : Nat} {step : Nat} {m : List Byte} (h : Kept q p D s) : Kept q p D (writeManifest s r step m) := by
  unfold writeManifest
  exact (modExch_kept (kept_ite h (rmbStore_kept h)))

theorem roundDone_kept {s : State} {r : Nat} {step : Nat} {gs : List XSeg} {bs : List (Arrived × SegRead)} {n : Counts × Counts} (h : Kept q p D s) : Kept q p D (roundDone s r step gs bs n) := by
  unfold roundDone
  exact (archiveOwn_kept (pruneOutbox_kept (updateLimit_kept (modRmb_kept (countRmb_kept (modExch_kept (writeManifest_kept h)))))))

theorem applyRound_kept {s : State} {step : Nat} {gs : List XSeg} {r : Nat} {bodies : List Arrived} {stop : Option (Nat × Nat)}
    (h : Kept q p D s) : Kept q p D (applyRound s step gs r bodies stop).s := by
  unfold applyRound
  dsimp only
  split
  · exact runWork_kept h
  · exact roundDone_kept (runWork_kept h)

theorem applyRounds_kept {s : State} {c : RmbCmd} {gs : List XSeg} {checks : RmbChecks} {i : Nat} {rs : List (Nat × List Arrived)}
    (h : Kept q p D s) : Kept q p D (applyRounds s c gs checks i rs).1 := by
  induction rs generalizing s c i with
  | nil => exact h
  | cons x rs ih =>
    obtain ⟨r, bs⟩ := x
    unfold applyRounds
    dsimp only
    split
    · exact applyRound_kept h
    · exact ih (applyRound_kept h)

theorem applyList_kept {s : State} {c : RmbCmd} {gs : List XSeg} {checks : RmbChecks} {rs : List (Nat × List Arrived)}
    (h : Kept q p D s) : Kept q p D (applyList s c gs checks rs).1 := by
  have h1 : Kept q p D (if rs.isEmpty then s else rmbRetries s checks gs) := kept_ite h (rmbRetries_kept h)
  unfold applyList
  dsimp only
  split
  · exact endCmd_kept (rmbFaultStop_kept (applyRounds_kept h1))
  · exact applyRounds_kept h1

theorem applyNow_kept {s : State} {c : RmbCmd} {checks : RmbChecks} (h : Kept q p D s) : Kept q p D (applyCmd.applyNow checks s c) := by
  unfold applyCmd.applyNow
  refine kept_ite (endCmd_kept h) ?_
  dsimp only
  split
  · exact endCmd_kept h
  · exact kept_ite (endCmd_kept (applyList_kept h)) (applyList_kept h)

theorem applyCmd_kept {checks : RmbChecks} {s : State} {c : RmbCmd} {n : Nat} (h : Kept q p D s) : Kept q p D (applyCmd checks s c n) := by
  unfold applyCmd
  split
  · exact kept_ite (endCmd_kept h) (applyNow_kept h)
  · exact applyNow_kept h

theorem requestSnapshot_kept {s : State} {peer : Nat} (h : Kept q p D s) : Kept q p D (requestSnapshot s peer) := by
  unfold requestSnapshot
  exact (farSendAny_kept h)

theorem requestRounds_kept {s : State} (h : Kept q p D s) : Kept q p D (requestRounds s) := by
  unfold requestRounds
  exact (kept_foldl h (fun _ _ h1 => (by
    try dsimp only
    split
    · exact h1
    · exact (farSendAny_kept h1))))

theorem joinCmd_kept {s : State} {c : RmbCmd} {round : Nat} (h : Kept q p D s) : Kept q p D (joinCmd s c round) := by
  unfold joinCmd
  exact (kept_ite (endCmd_kept h) (requestSnapshot_kept (modRmb_kept h)))

theorem joinClear_kept {s : State} {gs : List XSeg} (h : Kept q p D s) : Kept q p D (joinClear s gs) := by
  unfold joinClear
  exact (kept_foldl h (fun _ _ h1 => (storeBytes_kept (storeBytes_kept (kept_foldl h1 (fun _ _ h2 => (storeBytes_kept h2)))))))

theorem joinInstall_kept {s : State} {c : RmbCmd} {body : List Byte} (h : Kept q p D s) : Kept q p D (joinInstall s c body) := by
  unfold joinInstall
  exact (kept_ite (endCmd_kept (modRmb_kept h)) (requestRounds_kept (modRmb_kept (joinClear_kept (kept_foldl h (fun _ _ h1 => (rmbStore_kept h1)))))))

theorem joinEnd_kept {s : State} {c : RmbCmd} (h : Kept q p D s) : Kept q p D (joinEnd s c) := by
  unfold joinEnd
  exact (endCmd_kept (modRmb_kept h))

theorem joinStep_kept {checks : RmbChecks} {s : State} {c : RmbCmd} (h : Kept q p D s) : Kept q p D (joinStep checks s c) := by
  unfold joinStep
  exact (kept_ite (by
    split
    · exact (joinInstall_kept h)
    · exact (requestSnapshot_kept h)) (kept_ite (endCmd_kept h) (kept_ite (applyList_kept h) (kept_ite (joinEnd_kept (modRmb_kept (applyList_kept h))) (requestRounds_kept (modRmb_kept (applyList_kept h)))))))

theorem writeStatus_kept {s : State} {c : RmbCmd} (h : Kept q p D s) : Kept q p D (writeStatus s c) := by
  unfold writeStatus
  try dsimp only
  split
  · exact (rmbStore_kept (rmbStore_kept h))
  · exact (rmbStore_kept h)

theorem rmbPause_kept {s : State} (h : Kept q p D s) : Kept q p D (rmbPause s) := by
  unfold rmbPause
  split
  · exact h
  · exact (writeStatus_kept (modRmb_kept h))

theorem rmbContextReset_kept {s : State} {c : Nat} (h : Kept q p D s) : Kept q p D (rmbContextReset s c) := by
  unfold rmbContextReset
  exact (kept_ite h (modRmb_kept (by
    split
    · exact (writeStatus_kept (modRmb_kept h))
    · exact h)))

theorem bodyDone_kept {s : State} {b : InBody} {bytes : List Byte} (h : Kept q p D s) : Kept q p D (bodyDone s b bytes) := by
  unfold bodyDone
  exact (kept_ite (by
    split
    · exact (kept_ite (modRmb_kept h) h)
    · exact h) (kept_ite (modRmb_kept h) (archiveBody_kept h)))

theorem bodyBad_kept {s : State} {b : InBody} (h : Kept q p D s) : Kept q p D (bodyBad s b) := by
  unfold bodyBad
  exact (kept_foldl (modRmb_kept (rmbFail_kept h)) (fun _ _ h1 => (sendNeed_kept h1)))

theorem bodyPart_kept {s : State} {m : InMsg} {data : List Byte} {good : Bool} (h : Kept q p D s) : Kept q p D (bodyPart s m data good) := by
  unfold bodyPart
  exact (kept_ite (kept_ite (bodyDone_kept (modRmb_kept h)) (bodyBad_kept (modRmb_kept h))) (modRmb_kept h))

theorem shardIn_kept {s : State} {m : FarHead} {sh : ShardMsg} (h : Kept q p D s) : Kept q p D (shardIn s m sh) := by
  unfold shardIn
  exact (kept_ite h (kept_ite (sendReceipt_kept h) (kept_ite h (kept_ite (modRmb_kept h) (bodyPart_kept (sendReceipt_kept (modRmb_kept h)))))))

theorem answerRound_kept {j : Nat} {s : State} {r : Nat} (h : Kept q p D s) : Kept q p D (answerRound j s r) := by
  unfold answerRound
  exact (kept_ite (kept_ite (sendBodyTo_kept h) h) (kept_foldl h (fun _ _ h1 => (sendBodyTo_kept h1))))

theorem rmbConfig_kept {s : State} {die : Nat} {off : Nat} {v : Nat} (h : Kept q p D s) : Kept q p D (rmbConfig s die off v) := by
  unfold rmbConfig
  exact (kept_ite h (kept_ite (setErr_kept h) (kept_ite (flashReg_kept h) (kept_ite (flashReg_kept h) (kept_ite (setArchiveSlot_kept (kept_ite (flashReg_kept h) (setReg_kept h))) (kept_ite (flashReg_kept h) (setReg_kept h)))))))

theorem rmbResolve_kept {s : State} (h : Kept q p D s) : Kept q p D (rmbResolve s) := by
  unfold rmbResolve
  exact (modRmb_kept h)

theorem rmbInject_kept {s : State} {die : Nat} {v : Nat} (h : Kept q p D s) : Kept q p D (rmbInject s die v) := by
  unfold rmbInject
  exact (setReg_kept h)

end Sys2Proof.Machine
end

