-- ==== Sys2Proof/Laws/KeptContexts.lean ====
section
/-!
SUPPORT. Laws/KeptContexts.lean: every operation of Machine/Contexts.lean keeps the queue, the part, the canonical tables and the beats (Laws/Kept.lean).
-/
namespace Sys2Proof.Machine

variable {q : List Instr} {p : Part} {D : Vector Nat 4 → Prop}

theorem pantryInit_kept {s : State} {im : Image} (h : Kept q p D s) : Kept q p D (pantryInit s im) := by
  unfold pantryInit
  exact (kept_foldl (kept_foldl h (fun _ _ h1 => (kept_mem h1 (memWrite_wf (Kept.mem_wf h1) _ _)))) (fun _ _ h1 => (kept_foldl h1 (fun _ _ h2 => (kept_mem h2 (memWrite_wf (Kept.mem_wf h2) _ _))))))

theorem zeroStacks_kept {s : State} {c : Nat} (h : Kept q p D s) : Kept q p D (zeroStacks s c) := by
  unfold zeroStacks
  exact (kept_upd h)

theorem launchHamper_kept {s : State} {c : Nat} {b : Nat} {im : Image} {l : Nat} (h : Kept q p D s) : Kept q p D (launchHamper s c b im l) := by
  unfold launchHamper
  exact (modH_kept (emptyList_kept h))

theorem clearBaskets_kept {s : State} {a1 : Nat} (h : Kept q p D s) : Kept q p D (clearBaskets s a1) := by
  unfold clearBaskets
  exact (kept_foldl h (fun _ _ h1 => (modH_kept h1)))

theorem startLaunch_kept {s : State} {c : Nat} {im : Image} {l : Launch} (h : Kept q p D s) : Kept q p D (startLaunch s c im l) := by
  unfold startLaunch
  exact (kept_ite (emit_kept (setErr_kept (modCtx_kept (setReg_kept (kept_upd (pantryInit_kept (kept_foldl (kept_foldl (zeroStacks_kept (kept_foldl (kept_foldl h (fun _ _ h1 => (resetTally_kept h1))) (fun _ _ h1 => (resetSlot_kept h1)))) (fun _ _ h1 => (clearBaskets_kept h1))) (fun _ _ h1 => (launchHamper_kept h1))))))))) (modCtx_kept (setReg_kept (kept_upd (pantryInit_kept (kept_foldl (kept_foldl (zeroStacks_kept (kept_foldl (kept_foldl h (fun _ _ h1 => (resetTally_kept h1))) (fun _ _ h1 => (resetSlot_kept h1)))) (fun _ _ h1 => (clearBaskets_kept h1))) (fun _ _ h1 => (launchHamper_kept h1))))))))

theorem tryStart_kept {s : State} {c : Nat} (h : Kept q p D s) : Kept q p D (tryStart s c) := by
  unfold tryStart
  try dsimp only
  split
  · exact (kept_ite (startLaunch_kept h) h)
  · exact h

theorem countPassed_kept {s : State} {old : Nat} (h : Kept q p D s) : Kept q p D (countPassed s old) := by
  unfold countPassed
  exact (kept_foldl h (fun _ _ h1 => (by
    try dsimp only
    split
    · exact (kept_ite (setCtx_kept h1) h1)
    · exact h1)))

theorem ctxCode_kept {s : State} {c : Nat} {code : Nat} (h : Kept q p D s) : Kept q p D (ctxCode s c code) := by
  unfold ctxCode
  exact (setErrIf_kept (modCtx_kept h))

theorem preemptCtx_kept {s : State} {c : Nat} {mode : Nat} (h : Kept q p D s) : Kept q p D (preemptCtx s c mode) := by
  unfold preemptCtx
  exact (kept_ite (ctxCode_kept h) (by
    split
    · exact (ctxCode_kept (setCtx_kept h))
    · exact (kept_ite (ctxCode_kept (setCtx_kept h)) (ctxCode_kept h))
    · exact (ctxCode_kept h)))

theorem releaseRemote_kept {s : State} {c : Nat} (h : Kept q p D s) : Kept q p D (releaseRemote s c) := by
  unfold releaseRemote
  exact (kept_foldl h (fun _ _ h1 => (releaseAll_kept (setTally_kept h1))))

theorem stopHamper_kept {t : Nat} {s : State} {l : Nat} (h : Kept q p D s) : Kept q p D (stopHamper t s l) := by
  unfold stopHamper
  exact (modH_kept (withdrawWaits_kept h))

theorem writeImage_kept {s : State} {c : Nat} {a2 : Context} {im : Image} {a4 : Nat} (h : Kept q p D s) : Kept q p D (writeImage s c a2 im a4) := by
  unfold writeImage
  exact (kept_upd (storeBytes_kept (storeBytes_kept (storeBytes_kept (drawBytes_kept h)))))

theorem freeHampers_kept {s : State} {c : Nat} (h : Kept q p D s) : Kept q p D (freeHampers s c) := by
  unfold freeHampers
  exact (kept_upd (kept_foldl h (fun _ _ h1 => (modH_kept h1))))

theorem restoreCtx_kept {s : State} {c : Nat} (h : Kept q p D s) : Kept q p D (restoreCtx s c) := by
  unfold restoreCtx
  split
  · exact (ctxCode_kept h)
  · exact (ctxCode_kept (modCtx_kept h))

theorem installHamper_kept {c : Nat} {d : Int} {a2 : Nat} {s : State} {a4 : SavedHamper} (h : Kept q p D s) : Kept q p D (installHamper c d a2 s a4) := by
  unfold installHamper
  exact (kept_mem (setH_kept h) (memUnslice_wf (Kept.mem_wf (setH_kept h)) _ _ _))

theorem installSeal_kept {s : State} {i : SavedImage} (h : Kept q p D s) : Kept q p D (installSeal s i) := by
  unfold installSeal
  exact (kept_ite (kept_ite h (ucStepWrite_kept h)) (kept_upd (kept_ite h (ucStepWrite_kept h))))

theorem resetAtUc_kept {s : State} {c : Nat} (h : Kept q p D s) : Kept q p D (resetAtUc s c) := by
  unfold resetAtUc
  exact (kept_upd (kept_ite (stopSweep_kept h) h))

theorem resetTallies_kept {s : State} {c : Nat} (h : Kept q p D s) : Kept q p D (resetTallies s c) := by
  unfold resetTallies
  exact (countReg_kept (kept_upd (dropSignals_kept (kept_foldl (kept_foldl h (fun _ _ h1 => (resetTally_kept h1))) (fun _ _ h1 => (resetSlot_kept (tellAbandon_kept h1)))))))

theorem resetContext_kept {s : State} {c : Nat} (h : Kept q p D s) : Kept q p D (resetContext s c) := by
  unfold resetContext
  exact (kept_ite (ctxCode_kept h) (kept_ite h (finishResets_kept (modCtx_kept (ctxCode_kept (resetAtUc_kept (resetTallies_kept (zeroStacks_kept (kept_foldl (kept_foldl (rmbContextReset_kept h) (fun _ _ h1 => (stopIssue_kept h1))) (fun _ _ h1 => (emptyList_kept h1)))))))))))

theorem ctxCtrl_kept {s : State} {v : Nat} (h : Kept q p D s) : Kept q p D (ctxCtrl s v) := by
  unfold ctxCtrl
  exact (kept_ite h (kept_ite (ctxCode_kept h) (kept_ite (preemptCtx_kept h) (kept_ite (restoreCtx_kept h) (resetContext_kept h)))))

end Sys2Proof.Machine
end

