-- ==== Sys2Proof/Laws/KeptLoader.lean ====
section
/-!
SUPPORT. Laws/KeptLoader.lean: every operation of Machine/Loader.lean keeps the queue, the part, the canonical tables and the beats (Laws/Kept.lean).
-/
namespace Sys2Proof.Machine

variable {q : List Instr} {p : Part} {D : Vector Nat 4 → Prop}

theorem loadRecipe_kept {s : State} {a1 : Option Nat × Nat × List W32} (h : Kept q p D s) : Kept q p D (loadRecipe s a1) := by
  unfold loadRecipe
  try dsimp only
  split
  · exact (kept_upd h)
  · exact (kept_upd h)

/-- An update of the translation table through a write of an entry. -/
theorem kept_table {s : State} {tb : List (Nat × Entry)} (h : Kept q p D s) (ht : rising tb = true) :
    Kept q p D { s with tly := { s.tly with table := tb } } :=
  kept_of h rfl rfl h.mem_wf h.regs_rising h.flash_rising h.pages_wf h.wheels_wf ⟨h.tallies_rising, ht⟩ h.beats

theorem installMap_kept {c : Nat} {s : State} {x : MapRec × Nat} (h : Kept q p D s) : Kept q p D (installMap c s x) := by
  have h1 : ∀ k (e : Entry), Kept q p D { s with tly := { s.tly with table := sparseSet .unmapped s.tly.table k e } } :=
    fun k e => kept_table h (sparseSet_rising0 _ h.table_rising _ _)
  unfold installMap
  dsimp only
  split
  · exact setTally_kept (h1 _ _)
  · exact setSlot_kept (h1 _ _)
  · exact h1 _ _

theorem writeSection_kept {a0 : LoadPlan} {s : State} {a2 : Placed} (h : Kept q p D s) : Kept q p D (writeSection a0 s a2) := by
  unfold writeSection
  exact (kept_ite (clearPoison_kept (kept_mem h (memClear_wf (Kept.mem_wf h) _ _))) (by
    split
    · exact (storeBytes_kept h)
    · exact h))

/-- An update of the slot wheels through writes of their entries. -/
theorem kept_wheels {s : State} {w : List (Nat × Nat)} (h : Kept q p D s) (hw : sparseWf 0 w = true) : Kept q p D { s with wheels := w } :=
  kept_of h rfl rfl h.mem_wf h.regs_rising h.flash_rising h.pages_wf hw h.tly_rising h.beats

theorem wheelWrites_wf {α : Type} {gs : List α} {k v : α → Nat} {w : List (Nat × Nat)} (hw : sparseWf 0 w = true) :
    sparseWf 0 (gs.foldl (fun w g => sparseSet 0 w (k g) (v g)) w) = true := by
  induction gs generalizing w with
  | nil => exact hw
  | cons g gs ih => exact ih (sparseSet_wf 0 hw _ _)

theorem commitLoad_kept {s : State} {c : Nat} {pl : LoadPlan} (h : Kept q p D s) : Kept q p D (commitLoad s c pl).1 := by
  unfold commitLoad
  have h1 : Kept q p D (pl.recipes.foldl loadRecipe (pl.placed.foldl (writeSection pl) { s with free := s.free + 8193 })) :=
    kept_foldl (kept_foldl (kept_upd h) (fun _ _ h1 => writeSection_kept h1)) (fun _ _ h1 => loadRecipe_kept h1)
  exact emit_kept (modCtx_kept (kept_foldl (kept_wheels h1 (wheelWrites_wf h1.wheels_wf)) (fun _ _ h2 => installMap_kept h2)))

theorem freeImage_kept {s : State} {c : Nat} {im : Image} (h : Kept q p D s) : Kept q p D (freeImage s c im) := by
  unfold freeImage
  have h1 : Kept q p D ((slotsOf ((talliesOf s c).foldl (fun s p => setTally s p .free) s) c).foldl (fun s i => setSlot s i .free)
      ((talliesOf s c).foldl (fun s p => setTally s p .free) s)) :=
    kept_foldl (kept_foldl h (fun _ _ h1 => setTally_kept h1)) (fun _ _ h1 => setSlot_kept h1)
  exact modCtx_kept (kept_of h1 rfl rfl h1.mem_wf h1.regs_rising h1.flash_rising h1.pages_wf (wheelWrites_wf h1.wheels_wf)
    ⟨h1.tallies_rising, filter_rising _ h1.table_rising⟩ h1.beats)

theorem loadRefused_kept {s : State} {handle : Nat} {r : Refused} (h : Kept q p D s) : Kept q p D (loadRefused s handle r) := by
  unfold loadRefused
  exact (setErr_kept (kept_upd h))

theorem loadDone_kept {s : State} {handle : Nat} (h : Kept q p D s) : Kept q p D (loadDone s handle) := by
  unfold loadDone
  exact (kept_upd h)

theorem loadBusy_kept {s : State} {c : LoadCmd} {handle : Nat} (h : Kept q p D s) : Kept q p D (loadBusy s c handle) := by
  unfold loadBusy
  exact (kept_upd h)

theorem loadCtrl_kept {s : State} {v : Nat} (h : Kept q p D s) : Kept q p D (loadCtrl s v) := by
  unfold loadCtrl
  exact (kept_ite (setErr_kept h) (kept_ite (loadRefused_kept h) (kept_ite (loadBusy_kept h) (kept_ite (loadBusy_kept h) (kept_ite (loadBusy_kept h) h)))))

theorem patchImage_kept {s : State} {c addr : Nat} {im : Image} (h : Kept q p D s) {t : State} (ht : patchImage s c addr im = .ok t) :
    Kept q p D t := by
  unfold patchImage at ht
  dsimp only at ht
  split at ht
  · cases ht
  · simp only [bind, Except.bind, pure, Except.pure] at ht
    split at ht
    · cases ht
    · cases ht; exact modCtx_kept (kept_foldl h (fun _ _ h1 => storeBytes_kept h1))

theorem loaderEnd_kept {s : State} {c : LoadCmd} (h : Kept q p D s) : Kept q p D (loaderEnd s c) := by
  unfold loaderEnd
  split
  · split
    · exact loadRefused_kept h
    · exact loadDone_kept (commitLoad_kept h)
  · split
    · exact loadRefused_kept h
    · exact kept_ite (loadRefused_kept h) (loadDone_kept (freeImage_kept h))
  · split
    · exact loadRefused_kept h
    · refine kept_ite (loadRefused_kept h) ?_
      split
      · exact loadRefused_kept h
      · rename_i heq; exact loadDone_kept (patchImage_kept h heq)

end Sys2Proof.Machine
end

