-- ==== Sys2Proof/Laws/KeptDrain.lean ====
section
/-!
SUPPORT. Laws/KeptDrain.lean: every operation of Machine/Drain.lean keeps the queue, the part, the canonical tables and the beats (Laws/Kept.lean).
-/
namespace Sys2Proof.Machine

variable {q : List Instr} {p : Part} {D : Vector Nat 4 → Prop}

theorem setDrain_kept {s : State} {page : Nat} {draining : Bool} {drained : Bool} {disabled : Bool} (h : Kept q p D s) : Kept q p D (setDrain s page draining drained disabled) := by
  unfold setDrain
  exact (kept_foldl h (fun _ _ h1 => (setFlags_kept h1)))

theorem drainCtx_kept {s : State} {c : Nat} (h : Kept q p D s) : Kept q p D (drainCtx s c) := by
  unfold drainCtx
  try dsimp only
  split
  · exact (kept_ite (setCtx_kept h) (resetContext_kept h))
  · exact (kept_ite (setCtx_kept h) h)
  · exact h

theorem drainHamper_kept {s : State} {a1 : Nat} (h : Kept q p D s) : Kept q p D (drainHamper s a1) := by
  unfold drainHamper
  exact (kept_foldl h (fun _ _ h1 => (drainCtx_kept h1)))

theorem startDrain_kept {s : State} {page : Nat} (h : Kept q p D s) : Kept q p D (startDrain s page) := by
  unfold startDrain
  exact (kept_ite h (by
    try dsimp only
    split
    · exact (drainHamper_kept (setDrain_kept h))
    · exact (sweepProgress_kept (stopUnit_kept (setDrain_kept h)))
    · exact (stopSweep_kept (setDrain_kept h))
    · exact (rmbPause_kept (setDrain_kept h))
    · exact (setDrain_kept h)
    · exact (setDrain_kept h)))

theorem closeHost_kept {s : State} {a1 : HostSession} (h : Kept q p D s) : Kept q p D (closeHost s a1) := by
  unfold closeHost
  exact (endHost_kept (kept_upd (draw_kept h)))

theorem closeNear_kept {s : State} {a1 : NearSession} (h : Kept q p D s) : Kept q p D (closeNear s a1) := by
  unfold closeNear
  exact (kept_upd (draw_kept h))

theorem dropRoutes_kept {s : State} {a1 : Nat} (h : Kept q p D s) : Kept q p D (dropRoutes s a1) := by
  unfold dropRoutes
  exact (kept_ite h (kept_foldl h (fun _ _ h1 => (modPeer_kept h1))))

theorem closePort_kept {s : State} {a1 : Nat} (h : Kept q p D s) : Kept q p D (closePort s a1) := by
  unfold closePort
  exact (setLink_kept (setLink_kept (noteDown_kept (dropRoutes_kept (kept_foldl (kept_foldl h (fun _ _ h1 => (closeHost_kept h1))) (fun _ _ h1 => (closeNear_kept h1)))))))

theorem enableBlock_kept {s : State} {page : Nat} (h : Kept q p D s) : Kept q p D (enableBlock s page) := by
  unfold enableBlock
  exact (kept_ite h (by
    try dsimp only
    split
    · exact (formPort_kept (setDrain_kept h))
    · exact (setDrain_kept h)))

theorem setDebug_kept {s : State} {on : Bool} (h : Kept q p D s) : Kept q p D (setDebug s on) := by
  unfold setDebug
  exact (kept_ite h (setFlags_kept h))

theorem pageCtrl_kept {s : State} {page : Nat} {v : Nat} (h : Kept q p D s) : Kept q p D (pageCtrl s page v) := by
  unfold pageCtrl
  exact (kept_ite (setDebug_kept h) (kept_ite (startDrain_kept h) (enableBlock_kept h)))

end Sys2Proof.Machine
end

