-- ==== Sys2Proof/Laws/KeptSiteCount.lean ====
section
/-!
SUPPORT. Laws/KeptSiteCount.lean: every operation of Machine/SiteCount.lean keeps the queue, the part, the canonical tables and the beats (Laws/Kept.lean).
-/
namespace Sys2Proof.Machine

variable {q : List Instr} {p : Part} {D : Vector Nat 4 → Prop}

theorem modSc_kept {s : State} {f : SiteCount → SiteCount} (h : Kept q p D s) : Kept q p D (modSc s f) := by
  unfold modSc
  exact (kept_upd h)

theorem stepCount_kept {s : State} {o : Int} (h : Kept q p D s) : Kept q p D (stepCount s o) := by
  unfold stepCount
  exact (emit_kept (setErrIf_kept (countReg_kept (modSc_kept h))))

theorem servoFreq_kept {s : State} (h : Kept q p D s) : Kept q p D (servoFreq s) := by
  unfold servoFreq
  exact (modSc_kept (draw_kept h))

theorem measure_kept {s : State} {o : Int} (h : Kept q p D s) : Kept q p D (measure s o) := by
  unfold measure
  try dsimp only
  split
  · exact (modSc_kept (kept_ite (modSc_kept h) h))
  · exact (kept_ite (stepCount_kept (modSc_kept (kept_ite (modSc_kept h) h))) (servoFreq_kept (modSc_kept (kept_ite (modSc_kept h) h))))

theorem scSourceWrite_kept {s : State} {v : Nat} (h : Kept q p D s) : Kept q p D (scSourceWrite s v) := by
  unfold scSourceWrite
  exact (modSc_kept (setReg_kept h))

theorem scSetWrite_kept {s : State} {v : Nat} (h : Kept q p D s) : Kept q p D (scSetWrite s v) := by
  unfold scSetWrite
  exact (kept_ite (modSc_kept h) (kept_ite (modSc_kept h) (setErr_kept h)))

end Sys2Proof.Machine
end

