-- ==== Sys2Proof/Laws/KeptPower.lean ====
section
/-!
SUPPORT. Laws/KeptPower.lean: every operation of Machine/Power.lean keeps the queue, the part, the canonical tables and the beats (Laws/Kept.lean).
-/
namespace Sys2Proof.Machine

variable {q : List Instr} {p : Part} {D : Vector Nat 4 → Prop}

theorem modPower_kept {s : State} {f : Power → Power} (h : Kept q p D s) : Kept q p D (modPower s f) := by
  unfold modPower
  exact (kept_upd h)

theorem coldState_kept {s : State} (h : Kept q p D s) (h0 : D (Vector.replicate 4 0)) : Kept q p D (coldState s) :=
  kept_of h rfl rfl rfl rfl h.flash_rising rfl rfl ⟨rfl, rfl⟩ h0

theorem loadPort_kept {s : State} {a1 : Nat} (h : Kept q p D s) : Kept q p D (loadPort s a1) := by
  unfold loadPort
  exact (formPort_kept (setPort_kept h))

theorem loadStack_kept {s : State} {c : Nat} (h : Kept q p D s) : Kept q p D (loadStack s c) := by
  unfold loadStack
  exact (setCtl_kept h)

theorem loadPackage_kept {s : State} {c : Nat} (h : Kept q p D s) : Kept q p D (loadPackage s c) := by
  unfold loadPackage
  exact (setCtl_kept h)

theorem loadFlag_kept {s : State} (h : Kept q p D s) : Kept q p D (loadFlag s) := by
  unfold loadFlag
  split
  · exact h
  · exact (kept_foldl (setReg_kept (kept_upd h)) (fun _ _ h2 => (setFlags_kept h2)))

theorem loadFlash_kept {s : State} (h : Kept q p D s) : Kept q p D (loadFlash s) := by
  unfold loadFlash
  have h1 : Kept q p D { s with regs := s.flash.regs, flt := { s.flt with events := s.flash.faults } } :=
    kept_of h rfl rfl h.mem_wf h.flash_rising h.flash_rising h.pages_wf h.wheels_wf h.tly_rising h.beats
  exact modPower_kept (loadFlag_kept (kept_foldl (kept_foldl (kept_foldl h1 (fun _ _ h2 => loadPort_kept h2)) (fun _ _ h2 => loadStack_kept h2)) (fun _ _ h2 => loadPackage_kept h2)))

theorem coldStart_kept {s : State} (h : Kept q p D s) (h0 : D (Vector.replicate 4 0)) : Kept q p D (coldStart s) :=
  loadFlash_kept (coldState_kept h h0)

theorem bootRom_kept {s : State} {kind : Nat} {slotOk : Bool} (h : Kept q p D s) : Kept q p D (bootRom s kind slotOk) := by
  unfold bootRom
  split
  · exact (modPower_kept h)
  · exact (modPower_kept (modSec_kept h))

theorem badPc_kept {s : State} {a1 : Fin 16 × Fin 32} (h : Kept q p D s) : Kept q p D (badPc s a1) := by
  unfold badPc
  exact (kept_ite h (by
    split
    · exact (refugeFull_kept h)
    · exact (emit_kept (kept_flash (setCtl_kept h)))))

theorem badUnit_kept {s : State} {u : Nat} (h : Kept q p D s) : Kept q p D (badUnit s u) := by
  unfold badUnit
  exact (kept_ite h (kept_ite (countPermanent_kept h) (countPermanent_kept (kept_foldl h (fun _ _ h1 => (setFlags_kept h1))))))

/-- A map of the entries to values other than the default keeps the canonical form. -/
theorem map_wfFrom {α : Type} [DecidableEq α] {d : α} {f : α → α} (hf : ∀ a, f a ≠ d) {l : List (Nat × α)} {a : Nat}
    (h : risingFrom a l = true) : sparseWfFrom d a (l.map (fun x => (x.1, f x.2))) = true := by
  induction l generalizing a with
  | nil => rfl
  | cons x l ih =>
    simp only [risingFrom, Bool.and_eq_true, decide_eq_true_eq] at h
    simp only [List.map_cons, sparseWfFrom, Bool.and_eq_true, decide_eq_true_eq]
    exact ⟨⟨h.1, hf _⟩, ih h.2⟩

theorem offPages_wf {s : State} (h : sparseWf PageFlags.reset s.pages = true) : sparseWf PageFlags.reset (offPages s) = true := by
  have h1 : risingFrom 0 (s.pages.filter (fun x => x.2.off)) = true := sparseWfFrom_rising (filter_wfFrom PageFlags.reset _ h)
  exact map_wfFrom (d := PageFlags.reset) (f := fun _ => { PageFlags.reset with off := true, fault := true }) (fun _ => by decide) h1

theorem moduleReset_kept {s : State} (h : Kept q p D s) (hz : D (Vector.replicate 4 0)) : Kept q p D (moduleReset s) := by
  unfold moduleReset
  have h0 := coldState_kept h hz
  have h1 : Kept q p D { coldState s with pages := offPages s } :=
    kept_of h0 rfl rfl h0.mem_wf h0.regs_rising h0.flash_rising
      (offPages_wf h.pages_wf)
      h0.wheels_wf h0.tly_rising h0.beats
  exact modPower_kept (loadFlash_kept h1)

theorem railsOff_kept {s : State} {ph : Phase} (h : Kept q p D s) (h0 : D (Vector.replicate 4 0)) : Kept q p D (railsOff s ph) :=
  modPower_kept (coldState_kept h h0)

theorem warmCtx_kept {s : State} {c : Nat} (h : Kept q p D s) : Kept q p D (warmCtx s c) := by
  unfold warmCtx
  try dsimp only
  split
  · exact (setCtx_kept h)
  · exact (modCtx_kept (kept_ite (ctxCode_kept (kept_foldl (kept_foldl h (fun _ _ h2 => (stopIssue_kept h2))) (fun _ _ h2 => (emptyList_kept h2)))) (kept_foldl (kept_foldl h (fun _ _ h2 => (stopIssue_kept h2))) (fun _ _ h2 => (emptyList_kept h2)))))
  · exact (modCtx_kept (kept_ite (ctxCode_kept (kept_foldl (kept_foldl h (fun _ _ h2 => (stopIssue_kept h2))) (fun _ _ h2 => (emptyList_kept h2)))) (kept_foldl (kept_foldl h (fun _ _ h2 => (stopIssue_kept h2))) (fun _ _ h2 => (emptyList_kept h2)))))
  · exact (modCtx_kept (kept_ite (ctxCode_kept (kept_foldl (kept_foldl h (fun _ _ h2 => (stopIssue_kept h2))) (fun _ _ h2 => (emptyList_kept h2)))) (kept_foldl (kept_foldl h (fun _ _ h2 => (stopIssue_kept h2))) (fun _ _ h2 => (emptyList_kept h2)))))
  · exact h

theorem warmReset_kept {s : State} (h : Kept q p D s) : Kept q p D (warmReset s) := by
  unfold warmReset
  exact (kept_ite h (finishResets_kept (modPower_kept (rmbPause_kept (stopSweep_kept (kept_upd (kept_foldl h (fun _ _ h1 => (warmCtx_kept h1)))))))))

theorem abandonAll_kept {s : State} (h : Kept q p D s) : Kept q p D (abandonAll s) := by
  unfold abandonAll
  exact (kept_foldl (kept_foldl h (fun _ _ h1 => (abandonTally_kept h1))) (fun _ _ h1 => (abandonSlot_kept h1)))

theorem warmSeal_kept {s : State} (h : Kept q p D s) : Kept q p D (warmSeal s) := by
  unfold warmSeal
  exact (kept_upd h)

theorem mapFilter_wfFrom {α : Type} [DecidableEq α] {d : α} {f : α → α} {l : List (Nat × α)} {a : Nat}
    (h : risingFrom a l = true) : sparseWfFrom d a ((l.map (fun x => (x.1, f x.2))).filter (fun x => x.2 != d)) = true := by
  induction l generalizing a with
  | nil => rfl
  | cons x l ih =>
    simp only [risingFrom, Bool.and_eq_true, decide_eq_true_eq] at h
    have h2 := ih h.2
    rw [List.map_cons, List.filter_cons]
    split
    · rename_i hx
      simp only [sparseWfFrom, Bool.and_eq_true, decide_eq_true_eq]
      exact ⟨⟨h.1, by simpa using hx⟩, h2⟩
    · generalize hl : (l.map (fun x => (x.1, f x.2))).filter (fun x => x.2 != d) = l' at h2
      cases l' with
      | nil => rfl
      | cons y u =>
        simp only [sparseWfFrom, Bool.and_eq_true, decide_eq_true_eq] at h2 ⊢
        exact ⟨⟨by omega, h2.1.2⟩, h2.2⟩

theorem lockAll_kept {s : State} (h : Kept q p D s) : Kept q p D (lockAll s) :=
  have h1 : sparseWfFrom PageFlags.reset 0 (lockAll s).pages = true :=
    mapFilter_wfFrom (f := fun x => { x with unlocked := false }) (sparseWfFrom_rising h.pages_wf)
  kept_of h rfl rfl h.mem_wf h.regs_rising h.flash_rising h1 h.wheels_wf h.tly_rising h.beats

theorem emitReady_kept {s : State} (h : Kept q p D s) : Kept q p D (emitReady s) := by
  unfold emitReady
  exact (emit_kept (modPower_kept h))

theorem linkPort_kept {up : BitVec 10} {s : State} {a2 : Nat} (h : Kept q p D s) : Kept q p D (linkPort up s a2) := by
  unfold linkPort
  exact (kept_ite (kept_foldl h (fun _ _ h1 => (kept_ite (setLink_kept h1) h1))) h)

theorem lowerDomains_kept {s : State} {ds : List Nat} {n : Nat} (h : Kept q p D s) : Kept q p D (lowerDomains s ds n) := by
  unfold lowerDomains
  exact (kept_foldl h (fun _ _ h1 => (moveMv_kept h1)))

theorem raiseDomains_kept {s : State} {ds : List Nat} {n : Nat} (h : Kept q p D s) : Kept q p D (raiseDomains s ds n) := by
  unfold raiseDomains
  exact (kept_foldl h (fun _ _ h1 => (moveMv_kept h1)))

theorem toFloors_kept {s : State} (h : Kept q p D s) : Kept q p D (toFloors s) := by
  unfold toFloors
  exact (kept_updTly h)

theorem powerHalt_kept {s : State} (h : Kept q p D s) : Kept q p D (powerHalt s) := by
  unfold powerHalt
  exact (modPower_kept (toFloors_kept (countReg_kept (setErr_kept h))))

theorem regulate_kept {s : State} {mW : Nat} (h : Kept q p D s) : Kept q p D (regulate s mW) := by
  unfold regulate
  exact (kept_ite (powerHalt_kept h) (kept_ite (modPower_kept (kept_ite (kept_ite (lowerDomains_kept h) (lowerDomains_kept h)) h)) (kept_ite (modPower_kept h) (kept_ite (modPower_kept h) (modPower_kept (raiseDomains_kept (raiseDomains_kept h)))))))

theorem resumePower_kept {s : State} (h : Kept q p D s) : Kept q p D (resumePower s) := by
  unfold resumePower
  exact (kept_ite (modPower_kept h) h)

theorem advanceClocks_kept {s : State} (h : Kept q p D s) : Kept q p D (advanceClocks s) := by
  unfold advanceClocks
  exact (kept_ite (kept_upd h) (countPassed_kept (modSc_kept (kept_upd h))))

theorem recordSample_kept {s : State} {mW : Nat} {mV : Nat} (h : Kept q p D s) : Kept q p D (recordSample s mW mV) := by
  unfold recordSample
  exact (kept_ite (countReg_kept (kept_ite (countReg_kept (setReg_kept (modPower_kept h))) (setReg_kept (modPower_kept h)))) (kept_ite (countReg_kept (setReg_kept (modPower_kept h))) (setReg_kept (modPower_kept h))))

theorem budgetWrite_kept {s : State} {v : Nat} (h : Kept q p D s) : Kept q p D (budgetWrite s v) := by
  unfold budgetWrite
  exact (kept_ite (setReg_kept h) (setErr_kept h))

theorem domSelWrite_kept {s : State} {v : Nat} (h : Kept q p D s) : Kept q p D (domSelWrite s v) := by
  unfold domSelWrite
  exact (kept_ite (setReg_kept h) (setErr_kept h))

theorem domLimitWrite_kept {s : State} {v : Nat} (h : Kept q p D s) : Kept q p D (domLimitWrite s v) := by
  unfold domLimitWrite
  exact (kept_ite h (kept_ite (setErr_kept h) (kept_ite (modPower_kept (modPower_kept h)) (kept_ite (kept_foldl (modPower_kept h) (fun _ _ h1 => (moveMv_kept h1))) (kept_ite (kept_foldl (modPower_kept h) (fun _ _ h1 => (moveMv_kept h1))) (modPower_kept h))))))

theorem tjThrottleWrite_kept {s : State} {v : Nat} (h : Kept q p D s) : Kept q p D (tjThrottleWrite s v) := by
  unfold tjThrottleWrite
  exact (kept_ite (setReg_kept h) (setErr_kept h))

theorem speedSelWrite_kept {s : State} {v : Nat} (h : Kept q p D s) : Kept q p D (speedSelWrite s v) := by
  unfold speedSelWrite
  exact (kept_ite (setReg_kept h) (setErr_kept h))

theorem hardWWrite_kept {s : State} {v : Nat} (h : Kept q p D s) : Kept q p D (hardWWrite s v) := by
  unfold hardWWrite
  exact (kept_ite (setReg_kept h) (setErr_kept h))

theorem voltForce_kept {s : State} {v : Nat} (h : Kept q p D s) : Kept q p D (voltForce s v) := by
  unfold voltForce
  exact (kept_ite (setErr_kept h) (kept_ite (modPower_kept (setReg_kept h)) (modPower_kept (setReg_kept h))))

theorem pwrResetWrite_kept {s : State} {v : Nat} (h : Kept q p D s) : Kept q p D (pwrResetWrite s v) := by
  unfold pwrResetWrite
  exact (kept_ite (warmReset_kept h) h)

theorem coolant_kept {s : State} (h : Kept q p D s) : Kept q p D (coolant s).2 := by
  unfold coolant
  split
  · exact draw_kept h
  · exact h

theorem coolantWord_kept {s : State} (h : Kept q p D s) : Kept q p D (coolantWord s).2 := coolant_kept (coolant_kept h)

end Sys2Proof.Machine
end

