-- ==== Sys2Proof/Laws/KeptRegisters.lean ====
section
/-!
SUPPORT. Laws/KeptRegisters.lean: every operation of Machine/Registers.lean keeps the queue, the part, the canonical tables and the beats (Laws/Kept.lean).
-/
namespace Sys2Proof.Machine

variable {q : List Instr} {p : Part} {D : Vector Nat 4 → Prop}

theorem expertKey_kept {s : State} {page : Nat} {v : Nat} (h : Kept q p D s) : Kept q p D (expertKey s page v) := by
  unfold expertKey
  exact (kept_ite h (setFlags_kept h))

theorem headerWrite_kept {s : State} {page : Nat} {off : Nat} {v : Nat} (h : Kept q p D s) : Kept q p D (headerWrite s page off v) := by
  unfold headerWrite
  exact (kept_ite (kept_ite h (pageCtrl_kept h)) (kept_ite (kept_ite (rmbResolve_kept (clearErr_kept h)) (clearErr_kept h)) (kept_ite (expertKey_kept h) (setReg_kept h))))

theorem lselWrite_kept {s : State} {page : Nat} {v : Nat} (h : Kept q p D s) : Kept q p D (lselWrite s page v) := by
  unfold lselWrite
  exact (kept_ite (setReg_kept h) h)

theorem sregWrite_kept {s : State} {page : Nat} {v : Nat} (h : Kept q p D s) : Kept q p D (sregWrite s page v) := by
  unfold sregWrite
  exact (kept_ite (modCore_kept h) h)

theorem vecNextIndex_kept {s : State} {page : Nat} (h : Kept q p D s) : Kept q p D (vecNextIndex s page) := by
  unfold vecNextIndex
  exact (setReg_kept h)

theorem vecDataWrite_kept {s : State} {page : Nat} {v : Nat} (h : Kept q p D s) : Kept q p D (vecDataWrite s page v) := by
  unfold vecDataWrite
  exact (kept_ite (setErr_kept h) (vecNextIndex_kept (kept_upd h)))

theorem vecCommitWrite_kept {s : State} {page : Nat} {v : Nat} (h : Kept q p D s) : Kept q p D (vecCommitWrite s page v) := by
  unfold vecCommitWrite
  exact (commitVec_kept h)

theorem vecInjectWrite_kept {s : State} {page : Nat} {v : Nat} (h : Kept q p D s) : Kept q p D (vecInjectWrite s page v) := by
  unfold vecInjectWrite
  exact (modH_kept (setReg_kept h))

theorem vecBistWrite_kept {s : State} {page : Nat} {v : Nat} (h : Kept q p D s) : Kept q p D (vecBistWrite s page v) := by
  unfold vecBistWrite
  exact (startBist_kept h)

theorem hazCtrlWrite_kept {s : State} {page : Nat} {v : Nat} (h : Kept q p D s) : Kept q p D (hazCtrlWrite s page v) := by
  unfold hazCtrlWrite
  exact (kept_ite (kept_ite (kept_upd (setReg_kept h)) (setReg_kept h)) (kept_upd (kept_ite (kept_upd (setReg_kept h)) (setReg_kept h))))

theorem stashWrite_kept {s : State} {page : Nat} {off : Nat} {v : Nat} (h : Kept q p D s) : Kept q p D (stashWrite s page off v) := by
  unfold stashWrite
  try dsimp only
  split
  · exact (kept_ite (kept_ite (setErr_kept h) (setH_kept h)) (setErr_kept h))
  · exact (kept_ite (kept_ite (setErr_kept h) (setH_kept h)) (setErr_kept h))
  · exact (kept_ite (kept_ite (setErr_kept h) (setH_kept h)) (setErr_kept h))
  · exact (kept_ite (kept_ite (setErr_kept h) (setH_kept h)) (setErr_kept h))
  · exact (kept_ite (setErr_kept h) (setH_kept h))
  · exact h

theorem listWrite_kept {s : State} {page : Nat} {off : Nat} {v : Nat} (h : Kept q p D s) : Kept q p D (listWrite s page off v) := by
  unfold listWrite
  exact (kept_ite (setReg_kept h) (kept_ite (setErr_kept h) (setReg_kept h)))

theorem listFlush_kept {s : State} {page : Nat} {v : Nat} (h : Kept q p D s) : Kept q p D (listFlush s page v) := by
  unfold listFlush
  exact (kept_ite (emptyList_kept h) h)

theorem frameInjectWrite_kept {s : State} {page : Nat} {v : Nat} (h : Kept q p D s) : Kept q p D (frameInjectWrite s page v) := by
  unfold frameInjectWrite
  exact (modFrame_kept (setReg_kept h))

theorem frameBistWrite_kept {s : State} {page : Nat} {v : Nat} (h : Kept q p D s) : Kept q p D (frameBistWrite s page v) := by
  unfold frameBistWrite
  exact (startBist_kept h)

theorem hamperWrite_kept {s : State} {page : Nat} {off : Nat} {v : Nat} (h : Kept q p D s) : Kept q p D (hamperWrite s page off v) := by
  unfold hamperWrite
  try dsimp only
  split
  · exact (kept_ite (lselWrite_kept h) (kept_ite (sregWrite_kept h) (setReg_kept h)))
  · exact (kept_ite (modH_kept h) (setReg_kept h))
  · exact (kept_ite (vecDataWrite_kept h) (kept_ite (vecCommitWrite_kept h) (kept_ite (vecInjectWrite_kept h) (kept_ite (vecBistWrite_kept h) (setReg_kept h)))))
  · exact (kept_ite (hazCtrlWrite_kept h) (setReg_kept h))
  · exact (stashWrite_kept h)
  · exact (kept_ite (listFlush_kept h) (listWrite_kept h))
  · exact (kept_ite (frameInjectWrite_kept h) (kept_ite (frameBistWrite_kept h) (kept_ite (kept_ite (setReg_kept h) h) (setReg_kept h))))

theorem selfWrite_kept {s : State} {off : Nat} {v : Nat} (h : Kept q p D s) : Kept q p D (selfWrite s off v) := by
  unfold selfWrite
  exact (kept_ite (setErr_kept h) (kept_ite (openNears_kept (flashReg_kept h)) (setReg_kept h)))

theorem ctxImageWrite_kept {s : State} {off : Nat} {v : Nat} (h : Kept q p D s) : Kept q p D (ctxImageWrite s off v) := by
  unfold ctxImageWrite
  exact (modCtx_kept h)

theorem mgmtWrite_kept {s : State} {off : Nat} {v : Nat} (h : Kept q p D s) : Kept q p D (mgmtWrite s off v) := by
  unfold mgmtWrite
  exact (kept_ite (loadCtrl_kept h) (kept_ite (ctxCtrl_kept h) (kept_ite (ctxImageWrite_kept h) (kept_ite (selfWrite_kept h) (kept_ite (peerWrite_kept h) (kept_ite (flashReg_kept h) (kept_ite (eventTest_kept h) (kept_ite (flashEraseLog_kept h) (setReg_kept h)))))))))

theorem faultWrite_kept {s : State} {off : Nat} {v : Nat} (h : Kept q p D s) : Kept q p D (faultWrite s off v) := by
  unfold faultWrite
  exact (kept_ite (domainWrite_kept h) (kept_ite (fltReport_kept h) (kept_ite (fltFlagClear_kept h) (setReg_kept h))))

theorem powerWrite_kept {s : State} {off : Nat} {v : Nat} (h : Kept q p D s) : Kept q p D (powerWrite s off v) := by
  unfold powerWrite
  exact (kept_ite (budgetWrite_kept h) (kept_ite (domSelWrite_kept h) (kept_ite (domLimitWrite_kept h) (kept_ite (tjThrottleWrite_kept h) (kept_ite (speedSelWrite_kept h) (kept_ite (hardWWrite_kept h) (kept_ite (voltForce_kept h) (kept_ite (pwrResetWrite_kept h) (kept_ite (flashReg_kept h) (setReg_kept h))))))))))

theorem secureWrite_kept {s : State} {off : Nat} {v : Nat} (h : Kept q p D s) : Kept q p D (secureWrite s off v) := by
  unfold secureWrite
  exact (kept_ite (secCtrl_kept h) (kept_ite (svnCommit_kept h) (kept_ite (keyRevoke_kept h) (kept_ite (trustCtrl_kept h) (setReg_kept h)))))

theorem ledgerWrite_kept {s : State} {off : Nat} {v : Nat} (h : Kept q p D s) : Kept q p D (ledgerWrite s off v) := by
  unfold ledgerWrite
  exact (kept_ite (ledSeed_kept h) (kept_ite (ledSeed_kept h) (kept_ite (ledConfig_kept h) (kept_ite (ledResetRing_kept h) (setReg_kept h)))))

theorem scWrite_kept {s : State} {off : Nat} {v : Nat} (h : Kept q p D s) : Kept q p D (scWrite s off v) := by
  unfold scWrite
  exact (kept_ite (scSourceWrite_kept h) (kept_ite (scSetWrite_kept h) (setReg_kept h)))

theorem tallyWrite_kept {s : State} {off : Nat} {v : Nat} (h : Kept q p D s) : Kept q p D (tallyWrite s off v) := by
  unfold tallyWrite
  exact (kept_ite (tlyCountSet_kept h) (kept_ite (tlyBarRepair_kept h) (setReg_kept h)))

theorem rmbWrite_kept {s : State} {die : Nat} {off : Nat} {v : Nat} (h : Kept q p D s) : Kept q p D (rmbWrite s die off v) := by
  unfold rmbWrite
  exact (kept_ite (rmbInject_kept h) (kept_ite (kept_ite (rmbRekey_kept h) h) (rmbConfig_kept h)))

theorem portWrite_kept {s : State} {a1 : Nat} {off : Nat} {v : Nat} (h : Kept q p D s) : Kept q p D (portWrite s a1 off v) := by
  unfold portWrite
  exact (kept_ite (portCfg_kept h) (kept_ite (portLoopback_kept h) (kept_ite (portLaneRetire_kept h) (portConfig_kept h))))

theorem hbmcWrite_kept {s : State} {i : Nat} {off : Nat} {v : Nat} (h : Kept q p D s) : Kept q p D (hbmcWrite s i off v) := by
  unfold hbmcWrite
  exact (kept_ite (hbmRetireRow_kept h) (setReg_kept h))

theorem lpcWrite_kept {s : State} {i : Nat} {off : Nat} {v : Nat} (h : Kept q p D s) : Kept q p D (lpcWrite s i off v) := by
  unfold lpcWrite
  exact (setReg_kept h)

theorem updWrite_kept {s : State} {u : Nat} {off : Nat} {v : Nat} (h : Kept q p D s) : Kept q p D (updWrite s u off v) := by
  unfold updWrite
  exact (kept_ite (updInject_kept h) (kept_ite (startBist_kept h) (setReg_kept h)))

theorem ucWrite_kept {s : State} {off : Nat} {v : Nat} (h : Kept q p D s) : Kept q p D (ucWrite s off v) := by
  unfold ucWrite
  exact (kept_ite (ucStepWrite_kept h) (kept_ite (ucExpectWrite_kept h) (kept_ite (ucCtrl_kept h) (kept_ite (ucRstoreWrite_kept h) (kept_ite (ucCommit_kept h) (setReg_kept h))))))

theorem arbWrite_kept {s : State} {page : Nat} {off : Nat} {v : Nat} (h : Kept q p D s) : Kept q p D (arbWrite s page off v) := by
  unfold arbWrite
  exact (kept_ite (arbConfig_kept h) (kept_ite (setReg_kept h) (kept_ite (setReg_kept h) (setReg_kept h))))

theorem writeReg_kept {s : State} {page : Nat} {off : Nat} {v : Nat} (h : Kept q p D s) : Kept q p D (writeReg s page off v) := by
  unfold writeReg
  exact (kept_ite (headerWrite_kept h) (kept_ite (arbWrite_kept h) (kept_ite (hamperWrite_kept h) (by
    split
    · exact (mgmtWrite_kept h)
    · exact (faultWrite_kept h)
    · exact (powerWrite_kept h)
    · exact (secureWrite_kept h)
    · exact (ledgerWrite_kept h)
    · exact (scWrite_kept h)
    · exact (tallyWrite_kept h)
    · exact (rmbWrite_kept h)
    · exact (portWrite_kept h)
    · exact (hbmcWrite_kept h)
    · exact (lpcWrite_kept h)
    · exact (kept_ite (ucWrite_kept h) (updWrite_kept h))
    · exact (setReg_kept h)))))

theorem regWrite_kept {s : State} {rq : Requester} {addr : Nat} {wide : Bool} {v : Nat} (h : Kept q p D s) :
    Kept q p D (regWrite s rq addr wide v).1 := by
  unfold regWrite
  split
  · exact setErr_kept h
  · exact setErr_kept h
  · exact h
  · dsimp only
    split
    · exact h
    · split
      · exact writeReg_kept h
      · exact setErr_kept h
    · exact writeReg_kept h

theorem readReg_kept {s : State} {page off : Nat} {d : RegDesc} (h : Kept q p D s) : Kept q p D (readReg s page off d).2 := by
  unfold readReg
  split
  · exact h
  · split
    · exact vecNextIndex_kept h
    · split
      · exact ucRstoreRead_kept h
      · split
        · exact draw_kept h
        · exact h

theorem regRead_kept {s : State} {rq : Requester} {addr : Nat} {wide : Bool} (h : Kept q p D s) :
    Kept q p D (regRead s rq addr wide).2.1 := by
  unfold regRead
  split
  · exact setErr_kept h
  · exact setErr_kept h
  · exact h
  · exact readReg_kept h

theorem rowWrite_kept {s : State} {ok : Nat → Bool} {page : Nat} {off : Nat} {wide : Bool} {v : Nat} (h : Kept q p D s) : Kept q p D (rowWrite s ok page off wide v) := by
  unfold rowWrite
  exact (kept_ite (regWrite_kept h) h)

theorem readRegs_kept {wide : Bool} {n a : Nat} {s : State} {bs : List Byte} {bad : Bool} (h : Kept q p D s) :
    Kept q p D (readRegs wide n a s bs bad).2.1 := by
  induction n generalizing a s bs bad with
  | zero => exact h
  | succ n ih => exact ih (regRead_kept h)

theorem writeRegs_kept {wide : Bool} {vs : List Word} {a : Nat} {s : State} {bad warm : Bool} (h : Kept q p D s) :
    Kept q p D (writeRegs wide vs a s bad warm).1 := by
  induction vs generalizing a s bad warm with
  | nil => exact h
  | cons v vs ih =>
    unfold writeRegs
    dsimp only
    split
    · exact ih h
    · exact ih (regWrite_kept h)

end Sys2Proof.Machine
end

