-- ==== Sys2Proof/Laws/PerInstr.lean ====
section
/-!
SUPPORT. Laws/PerInstr.lean: a statement about every command as syntax: it stands at the front of a queue it is put on, and no word of
the opcode table spells it, since the table gives its rows no bits. One lemma per constructor of Instr.
-/
namespace Sys2Proof.Laws.Frontable

/-- A command put on a queue is the one at its front, and no word decodes to it. -/
def Statement (i : Instr) : Prop :=
  (∀ s : Machine.State, ({ s with pending := i :: s.pending } : Machine.State).pending.head? = some i) ∧ ∀ nbits w, decodeTableWord nbits w ≠ some i

/-- The statement holds of any command: it depends on none of its fields. -/
theorem any (i : Instr) : Statement i := ⟨fun _ => rfl, fun _ _ h => nomatch h⟩

theorem registerWrite (rq : Requester) (addr : Addr) (wide : Bool) (value : Word) : Statement (.registerWrite rq addr wide value) := any _
theorem pageExpertKeyWrite (page : Nat) (value : W32) : Statement (.pageExpertKeyWrite page value) := any _
theorem drain (page : Nat) : Statement (.drain page) := any _
theorem enable (page : Nat) : Statement (.enable page) := any _
theorem debug (on : Bool) : Statement (.debug on) := any _
theorem drainComplete (page : Nat) : Statement (.drainComplete page) := any _
theorem nop (lh : Fin 48) : Statement (.nop lh) := any _
theorem add (lh : Fin 48) (rd ra rb : Fin 32) : Statement (.add lh rd ra rb) := any _
theorem sub (lh : Fin 48) (rd ra rb : Fin 32) : Statement (.sub lh rd ra rb) := any _
theorem and (lh : Fin 48) (rd ra rb : Fin 32) : Statement (.and lh rd ra rb) := any _
theorem or (lh : Fin 48) (rd ra rb : Fin 32) : Statement (.or lh rd ra rb) := any _
theorem xor (lh : Fin 48) (rd ra rb : Fin 32) : Statement (.xor lh rd ra rb) := any _
theorem sll (lh : Fin 48) (rd ra rb : Fin 32) : Statement (.sll lh rd ra rb) := any _
theorem srl (lh : Fin 48) (rd ra rb : Fin 32) : Statement (.srl lh rd ra rb) := any _
theorem sra (lh : Fin 48) (rd ra rb : Fin 32) : Statement (.sra lh rd ra rb) := any _
theorem mul (lh : Fin 48) (rd ra rb : Fin 32) : Statement (.mul lh rd ra rb) := any _
theorem min (lh : Fin 48) (rd ra rb : Fin 32) : Statement (.min lh rd ra rb) := any _
theorem max (lh : Fin 48) (rd ra rb : Fin 32) : Statement (.max lh rd ra rb) := any _
theorem slt (lh : Fin 48) (rd ra rb : Fin 32) : Statement (.slt lh rd ra rb) := any _
theorem sltu (lh : Fin 48) (rd ra rb : Fin 32) : Statement (.sltu lh rd ra rb) := any _
theorem addi (lh : Fin 48) (rd ra : Fin 32) (imm : BitVec 46) : Statement (.addi lh rd ra imm) := any _
theorem andi (lh : Fin 48) (rd ra : Fin 32) (imm : BitVec 46) : Statement (.andi lh rd ra imm) := any _
theorem ori (lh : Fin 48) (rd ra : Fin 32) (imm : BitVec 46) : Statement (.ori lh rd ra imm) := any _
theorem xori (lh : Fin 48) (rd ra : Fin 32) (imm : BitVec 46) : Statement (.xori lh rd ra imm) := any _
theorem slli (lh : Fin 48) (rd ra : Fin 32) (imm : BitVec 46) : Statement (.slli lh rd ra imm) := any _
theorem srli (lh : Fin 48) (rd ra : Fin 32) (imm : BitVec 46) : Statement (.srli lh rd ra imm) := any _
theorem srai (lh : Fin 48) (rd ra : Fin 32) (imm : BitVec 46) : Statement (.srai lh rd ra imm) := any _
theorem li (lh : Fin 48) (rd : Fin 32) (imm : BitVec 46) : Statement (.li lh rd imm) := any _
theorem lih (lh : Fin 48) (rd : Fin 32) (imm : BitVec 46) : Statement (.lih lh rd imm) := any _
theorem lds (lh : Fin 48) (rd ra : Fin 32) (imm : BitVec 46) : Statement (.lds lh rd ra imm) := any _
theorem ldw (lh : Fin 48) (rd ra : Fin 32) (imm : BitVec 46) : Statement (.ldw lh rd ra imm) := any _
theorem sts (lh : Fin 48) (rd ra : Fin 32) (imm : BitVec 46) : Statement (.sts lh rd ra imm) := any _
theorem stw (lh : Fin 48) (rd ra : Fin 32) (imm : BitVec 46) : Statement (.stw lh rd ra imm) := any _
theorem b (lh : Fin 48) (cond : Cond) (ra rb : Fin 32) (off : BitVec 32) : Statement (.b lh cond ra rb off) := any _
theorem jal (lh : Fin 48) (rd : Fin 32) (imm : BitVec 46) : Statement (.jal lh rd imm) := any _
theorem jr (lh : Fin 48) (ra : Fin 32) : Statement (.jr lh ra) := any _
theorem skip (lh : Fin 48) (n : BitVec 32) : Statement (.skip lh n) := any _
theorem window (lh : Fin 48) (n : BitVec 32) (exit : BitVec 24) : Statement (.window lh n exit) := any _
theorem windowClose (lh : Fin 48) : Statement (.windowClose lh) := any _
theorem end_ (lh : Fin 48) : Statement (.end_ lh) := any _
theorem illegalInstruction (lh : Fin 48) (word : BitVec 64) : Statement (.illegalInstruction lh word) := any _
theorem mfs (lh : Fin 48) (rd : Fin 32) (src : SysVal) : Statement (.mfs lh rd src) := any _
theorem sumr (lh : Fin 48) (rd : Fin 32) (src : Fin 5) (field : Fin 11) : Statement (.sumr lh rd src field) := any _
theorem pass (lh : Fin 48) (f : Fin 3) (ra : Fin 32) (imm : BitVec 24) : Statement (.pass lh f ra imm) := any _
theorem load (lh : Fin 48) (f : Fin 3) (ra : Fin 32) (imm : BitVec 24) : Statement (.load lh f ra imm) := any _
theorem turn (lh : Fin 48) (f : Fin 3) (ra : Fin 32) (imm : BitVec 24) : Statement (.turn lh f ra imm) := any _
theorem vcall (lh : Fin 48) (ra : Fin 32) (imm : BitVec 24) : Statement (.vcall lh ra imm) := any _
theorem rload (lh : Fin 48) (ra : Fin 32) (imm : BitVec 24) (slot : Fin 64) (length : BitVec 6) : Statement (.rload lh ra imm slot length) := any _
theorem rloadCommit (lh : Fin 48) : Statement (.rloadCommit lh) := any _
theorem push (lh : Fin 48) (stack : Fin 8) (ra : Fin 32) (imm : BitVec 24) : Statement (.push lh stack ra imm) := any _
theorem pop (lh : Fin 48) (stack : Fin 8) (ra : Fin 32) (imm : BitVec 24) : Statement (.pop lh stack ra imm) := any _
theorem dma (lh : Fin 48) (ra : Fin 32) (imm : BitVec 24) : Statement (.dma lh ra imm) := any _
theorem sig (lh : Fin 48) (vid : BitVec 12) (n : TallyVal) : Statement (.sig lh vid n) := any _
theorem waito (lh : Fin 48) (rd : Fin 32) (vid : BitVec 12) (n : TallyVal) : Statement (.waito lh rd vid n) := any _
theorem waitc (lh : Fin 48) (rd : Fin 32) (vid : BitVec 12) (n : TallyVal) : Statement (.waitc lh rd vid n) := any _
theorem barr (lh : Fin 48) (rd : Fin 32) (vid : BitVec 12) (wait : Bool) : Statement (.barr lh rd vid wait) := any _
theorem post (lh : Fin 48) (ra : Fin 32) (imm : BitVec 24) (own : Bool) (target : Fin 48) : Statement (.post lh ra imm own target) := any _
theorem take (lh : Fin 48) (rd : Fin 32) : Statement (.take lh rd) := any _
theorem steal (lh : Fin 48) : Statement (.steal lh) := any _
theorem sealOp (lh : Fin 48) (ra : Fin 32) : Statement (.sealOp lh ra) := any _
theorem sealRequestLeave (lh : Fin 48) : Statement (.sealRequestLeave lh) := any _
theorem normb (lh : Fin 48) (v : NormVal) : Statement (.normb lh v) := any _
theorem sweep (lh : Fin 48) (ra : Fin 32) (resume : Bool) : Statement (.sweep lh ra resume) := any _
theorem beatAdvance (die : Fin 4) (upsets : List Upset) (slowest : Option (Nat × Nat)) : Statement (.beatAdvance die upsets slowest) := any _
theorem passComplete (lh : Fin 48) (f : Fin 3) : Statement (.passComplete lh f) := any _
theorem loadComplete (lh : Fin 48) (f : Fin 3) : Statement (.loadComplete lh f) := any _
theorem turnComplete (lh : Fin 48) (f : Fin 3) : Statement (.turnComplete lh f) := any _
theorem vcallComplete (lh : Fin 48) : Statement (.vcallComplete lh) := any _
theorem pushComplete (lh : Fin 48) : Statement (.pushComplete lh) := any _
theorem popComplete (lh : Fin 48) : Statement (.popComplete lh) := any _
theorem stashExtensionArrival (lh : Fin 48) (payload : Bool) : Statement (.stashExtensionArrival lh payload) := any _
theorem scheduledDmaComplete (lh : Fin 48) : Statement (.scheduledDmaComplete lh) := any _
theorem openDmaComplete (i : Nat) : Statement (.openDmaComplete i) := any _
theorem beatWatchdog (die : Fin 4) : Statement (.beatWatchdog die) := any _
theorem frameInject (page : Nat) (value : W32) : Statement (.frameInject page value) := any _
theorem frameBist (page : Nat) (value : W32) : Statement (.frameBist page value) := any _
theorem bistComplete (page : Nat) (good : Bool) : Statement (.bistComplete page good) := any _
theorem stashDescriptorWrite (page : Nat) (off : Nat) (value : Word) : Statement (.stashDescriptorWrite page off value) := any _
theorem vecRstoreDataRead (page : Nat) : Statement (.vecRstoreDataRead page) := any _
theorem vecRstoreDataWrite (page : Nat) (value : W32) : Statement (.vecRstoreDataWrite page value) := any _
theorem vecRstoreCommit (page : Nat) (value : W32) : Statement (.vecRstoreCommit page value) := any _
theorem vecInject (page : Nat) (value : W32) : Statement (.vecInject page value) := any _
theorem vecBist (page : Nat) (value : W32) : Statement (.vecBist page value) := any _
theorem hamSregDataWrite (page : Nat) (value : Word) : Statement (.hamSregDataWrite page value) := any _
theorem sealRequest (i : Nat) : Statement (.sealRequest i) := any _
theorem sweepGo (value : W32) : Statement (.sweepGo value) := any _
theorem normCancel (value : W32) : Statement (.normCancel value) := any _
theorem sealReopen (value : W32) : Statement (.sealReopen value) := any _
theorem ucStepWrite (value : Word) : Statement (.ucStepWrite value) := any _
theorem chunkCommit (u : Fin 20) (checks : ChunkChecks) : Statement (.chunkCommit u checks) := any _
theorem ucRstoreDataRead : Statement (.ucRstoreDataRead) := any _
theorem ucRstoreDataWrite (value : W32) : Statement (.ucRstoreDataWrite value) := any _
theorem ucRstoreCommit (value : W32) : Statement (.ucRstoreCommit value) := any _
theorem updInject (u : Fin 20) (value : W32) : Statement (.updInject u value) := any _
theorem updBist (u : Fin 20) (value : W32) : Statement (.updBist u value) := any _
theorem imageLoad (value : W32) : Statement (.imageLoad value) := any _
theorem unload (value : W32) : Statement (.unload value) := any _
theorem patch (value : W32) : Statement (.patch value) := any _
theorem loaderCommandDone : Statement (.loaderCommandDone) := any _
theorem hazLogClear (page : Nat) (value : W32) : Statement (.hazLogClear page value) := any _
theorem itemVisible (lh : Fin 48) : Statement (.itemVisible lh) := any _
theorem stealProbe (lh : Fin 48) : Statement (.stealProbe lh) := any _
theorem probeAnswer (lh : Fin 48) : Statement (.probeAnswer lh) := any _
theorem basketMerge (i : Nat) : Statement (.basketMerge i) := any _
theorem listConfigWrite (page : Nat) (off : Nat) (value : W32) : Statement (.listConfigWrite page off value) := any _
theorem listFlush (page : Nat) (value : W32) : Statement (.listFlush page value) := any _
theorem tallySignal (i : Nat) : Statement (.tallySignal i) := any _
theorem tallyObserveWait (i : Nat) : Statement (.tallyObserveWait i) := any _
theorem tallyConsumeWait (i : Nat) : Statement (.tallyConsumeWait i) := any _
theorem barrierArrival (i : Nat) : Statement (.barrierArrival i) := any _
theorem tlyCountSet (value : W32) : Statement (.tlyCountSet value) := any _
theorem tlyBarRepair (value : W32) : Statement (.tlyBarRepair value) := any _
theorem lending (die : Fin 4) : Statement (.lending die) := any _
theorem tallySignalMessage (m : MsgHead) (vid : BitVec 16) (n : W32) : Statement (.tallySignalMessage m vid n) := any _
theorem tallyWatch (m : MsgHead) (vid : BitVec 16) (target token : W32) : Statement (.tallyWatch m vid target token) := any _
theorem tallyConsume (m : MsgHead) (vid : BitVec 16) (n token : W32) : Statement (.tallyConsume m vid n token) := any _
theorem tallyArrive (m : MsgHead) (vid : BitVec 16) (gen : W32) : Statement (.tallyArrive m vid gen) := any _
theorem tallyRelease (m : MsgHead) (abandoned : Bool) (vid : BitVec 16) (token count : W32) : Statement (.tallyRelease m abandoned vid token count) := any _
theorem barrierAbandon (m : MsgHead) (vid : BitVec 16) : Statement (.barrierAbandon m vid) := any _
theorem memoryWrite (rq : Requester) (addr : Addr) (data : List Byte) (badWords : List Nat) : Statement (.memoryWrite rq addr data badWords) := any _
theorem memoryRead (rq : Requester) (addr : Addr) (len : Nat) (ecc : Ecc) : Statement (.memoryRead rq addr len ecc) := any _
theorem scrub (hbm : Bool) (ctl : Fin 16) (ecc : Ecc) (overwritten : Bool) : Statement (.scrub hbm ctl ecc overwritten) := any _
theorem rowCopyComplete (ctl : Fin 16) : Statement (.rowCopyComplete ctl) := any _
theorem larderCopyComplete (ctl : Fin 16) (bad : List Nat) : Statement (.larderCopyComplete ctl bad) := any _
theorem repairComplete (ctl : Fin 16) : Statement (.repairComplete ctl) := any _
theorem hbmInject (ctl : Fin 16) (value : W32) : Statement (.hbmInject ctl value) := any _
theorem hbmRetireRow (ctl : Fin 16) (value : Word) : Statement (.hbmRetireRow ctl value) := any _
theorem lpcInject (ctl : Fin 16) (value : W32) : Statement (.lpcInject ctl value) := any _
theorem ledgerAck (step : BitVec 48) : Statement (.ledgerAck step) := any _
theorem ledResetRing (value : W32) : Statement (.ledResetRing value) := any _
theorem ledSeedWrite (high : Bool) (value : Word) : Statement (.ledSeedWrite high value) := any _
theorem ledConfigWrite (off : Nat) (value : Word) : Statement (.ledConfigWrite off value) := any _
theorem scMeasurement (offset : Int) : Statement (.scMeasurement offset) := any _
theorem sourceLost : Statement (.sourceLost) := any _
theorem holdoverLimit : Statement (.holdoverLimit) := any _
theorem scSourceWrite (value : W32) : Statement (.scSourceWrite value) := any _
theorem scSet (value : Word) : Statement (.scSet value) := any _
theorem launch (ctx : Fin 16) (handle : BitVec 16) (count : Word) (at_ : Word) : Statement (.launch ctx handle count at_) := any _
theorem launchStart (ctx : Fin 16) : Statement (.launchStart ctx) := any _
theorem launchDone (ctx : Fin 16) : Statement (.launchDone ctx) := any _
theorem stepReplay : Statement (.stepReplay) := any _
theorem refusalNotice (module : Fin 256) (ctx : Fin 16) (step : BitVec 48) (attempt : BitVec 16) : Statement (.refusalNotice module ctx step attempt) := any _
theorem memberDrained (module : Fin 256) : Statement (.memberDrained module) := any _
theorem moduleDrainComplete : Statement (.moduleDrainComplete) := any _
theorem laggardEvaluation (unit : BitVec 16) : Statement (.laggardEvaluation unit) := any _
theorem fltReport (value : Word) : Statement (.fltReport value) := any _
theorem fltFlagClear (value : W32) : Statement (.fltFlagClear value) := any _
theorem mgFlashEraseLog (value : W32) : Statement (.mgFlashEraseLog value) := any _
theorem mgEventTest (value : W32) : Statement (.mgEventTest value) := any _
theorem arbitration (arb : Fin 58) (requests : List ArbReq) : Statement (.arbitration arb requests) := any _
theorem arbCutoff (arb : Fin 58) (write : Bool) (requests : List ArbReq) : Statement (.arbCutoff arb write requests) := any _
theorem arbConfigWrite (page : Nat) (off : Nat) (value : W32) : Statement (.arbConfigWrite page off value) := any _
theorem laneRetrain (port : Fin 10) (lane : Fin 8) : Statement (.laneRetrain port lane) := any _
theorem linkUp (port : Fin 10) (half : Fin 2) : Statement (.linkUp port half) := any _
theorem portCfgWrite (port : Fin 10) (value : W32) : Statement (.portCfgWrite port value) := any _
theorem portLaneRetire (port : Fin 10) (value : W32) : Statement (.portLaneRetire port value) := any _
theorem frameReceive (port : Fin 10) (half : Fin 2) (frame : RxFrame) : Statement (.frameReceive port half frame) := any _
theorem arpRequest (port : Fin 10) (half : Fin 2) (ip : BitVec 128) : Statement (.arpRequest port half ip) := any _
theorem neighbourSolicitation (port : Fin 10) (half : Fin 2) (ip : BitVec 128) : Statement (.neighbourSolicitation port half ip) := any _
theorem icmpEcho (port : Fin 10) (half : Fin 2) : Statement (.icmpEcho port half) := any _
theorem ptpMessage (port : Fin 10) (kind : PtpKind) (domain : BitVec 8) (offset : Int) : Statement (.ptpMessage port kind domain offset) := any _
theorem openMsg (m : SessHead) (events : Bool) : Statement (.openMsg m events) := any _
theorem openAck (m : SessHead) : Statement (.openAck m) := any _
theorem closeMsg (m : SessHead) (reason : W32) : Statement (.closeMsg m reason) := any _
theorem ack (m : SessHead) (sack : Word) : Statement (.ack m sack) := any _
theorem pageRead (m : SessHead) (addr : Word) (wide : Bool) (count : BitVec 8) (tag : W32) : Statement (.pageRead m addr wide count tag) := any _
theorem pageWrite (m : SessHead) (addr : Word) (wide : Bool) (values : List Word) (tag : W32) : Statement (.pageWrite m addr wide values tag) := any _
theorem bulkRead (m : SessHead) (addr : Word) (len : W32) (tag : W32) : Statement (.bulkRead m addr len tag) := any _
theorem bulkWrite (m : SessHead) (addr : Word) (data : List Byte) (vid : Option (BitVec 12)) (tag : W32) (badWords : List Nat) : Statement (.bulkWrite m addr data vid tag badWords) := any _
theorem bulkData (m : SessHead) (tag offset status : W32) (data : List Byte) (last : Bool) : Statement (.bulkData m tag offset status data last) := any _
theorem bulkDone (m : SessHead) (tag status : W32) : Statement (.bulkDone m tag status) := any _
theorem merge (m : MsgHead) (dst tally : W32) (slots : List (BitVec 128)) : Statement (.merge m dst tally slots) := any _
theorem sync (module : Fin 256) (offset : Int) : Statement (.sync module offset) := any _
theorem hostResendTimeout (session : Nat) (seq : W32) : Statement (.hostResendTimeout session seq) := any _
theorem nearIdleAck (module : Fin 256) : Statement (.nearIdleAck module) := any _
theorem creditAckTimer (module : Fin 256) : Statement (.creditAckTimer module) := any _
theorem sessionLost (module : Fin 256) : Statement (.sessionLost module) := any _
theorem compose (checks : RmbChecks) : Statement (.compose checks) := any _
theorem apply (checks : RmbChecks) : Statement (.apply checks) := any _
theorem join (checks : RmbChecks) : Statement (.join checks) := any _
theorem ramblerCommandDone : Statement (.ramblerCommandDone) := any _
theorem shard (m : FarHead) (sh : ShardMsg) : Statement (.shard m sh) := any _
theorem receipt (m : FarHead) (msg : Word) : Statement (.receipt m msg) := any _
theorem need (m : FarHead) (msg : Word) (held : Nat) : Statement (.need m msg held) := any _
theorem heartbeat (m : FarHead) (hb : HeartbeatMsg) : Statement (.heartbeat m hb) := any _
theorem requestSnapshot (m : FarHead) : Statement (.requestSnapshot m) := any _
theorem requestArchive (m : FarHead) (first last : Nat) : Statement (.requestArchive m first last) := any _
theorem needTimer (site : Fin 16) (msg : Word) : Statement (.needTimer site msg) := any _
theorem resendTimer (site : Fin 16) (msg : Word) : Statement (.resendTimer site msg) := any _
theorem heartbeatTimer : Statement (.heartbeatTimer) := any _
theorem routeTimeout (site : Fin 16) (route : Fin 4) : Statement (.routeTimeout site route) := any _
theorem farHello (m : FarHead) (body : List Byte) : Statement (.farHello m body) := any _
theorem farHelloAck (m : FarHead) (body : List Byte) : Statement (.farHelloAck m body) := any _
theorem farHelloTimer : Statement (.farHelloTimer) := any _
theorem key (m : FarHead) (body : List Byte) : Statement (.key m body) := any _
theorem keyAck (m : FarHead) (epoch : W32) : Statement (.keyAck m epoch) := any _
theorem farClose (m : FarHead) : Statement (.farClose m) := any _
theorem rekeyThreshold : Statement (.rekeyThreshold) := any _
theorem epochEnd : Statement (.epochEnd) := any _
theorem keyRepeat : Statement (.keyRepeat) := any _
theorem keyErase (site : Fin 16) : Statement (.keyErase site) := any _
theorem rmbRekey (die : Fin 2) (value : W32) : Statement (.rmbRekey die value) := any _
theorem rmbInject (die : Fin 2) (value : W32) : Statement (.rmbInject die value) := any _
theorem report (cert : Bool) : Statement (.report cert) := any _
theorem fwStage : Statement (.fwStage) := any _
theorem secureCommandDone (flashOk : Bool) : Statement (.secureCommandDone flashOk) := any _
theorem secSvnCommit (value : W32) (fuseOk : Bool) : Statement (.secSvnCommit value fuseOk) := any _
theorem secKeyRevoke (value : W32) (fuseOk : Bool) : Statement (.secKeyRevoke value fuseOk) := any _
theorem sitecertInstall : Statement (.sitecertInstall) := any _
theorem sitecertErase : Statement (.sitecertErase) := any _
theorem anchorInstall (slot : Fin 4) : Statement (.anchorInstall slot) := any _
theorem anchorErase (slot : Fin 4) : Statement (.anchorErase slot) := any _
theorem entropy : Statement (.entropy) := any _
theorem preempt (ctx : Fin 16) (mode : BitVec 2) : Statement (.preempt ctx mode) := any _
theorem stopPoint (ctx : Fin 16) : Statement (.stopPoint ctx) := any _
theorem preemptComplete (ctx : Fin 16) : Statement (.preemptComplete ctx) := any _
theorem restore (ctx : Fin 16) : Statement (.restore ctx) := any _
theorem restoreComplete (ctx : Fin 16) : Statement (.restoreComplete ctx) := any _
theorem contextReset (ctx : Fin 16) : Statement (.contextReset ctx) := any _
theorem powerOn (o : StartOutcome) : Statement (.powerOn o) := any _
theorem ready (portsUp : BitVec 10) : Statement (.ready portsUp) := any _
theorem moduleReset : Statement (.moduleReset) := any _
theorem warmReset : Statement (.warmReset) := any _
theorem powerLoss : Statement (.powerLoss) := any _
theorem input : Statement (.input) := any _
theorem powerSample (mW : Nat) (mV : Nat) : Statement (.powerSample mW mV) := any _
theorem throttle (tj : Nat) (die : Fin 4) : Statement (.throttle tj die) := any _
theorem thermalTrip : Statement (.thermalTrip) := any _
theorem pwrVoltForce (value : W32) : Statement (.pwrVoltForce value) := any _
theorem readVin : Statement (.readVin) := any _
theorem readIin : Statement (.readIin) := any _
theorem readPin : Statement (.readPin) := any _
theorem readTemperature1 : Statement (.readTemperature1) := any _
theorem readTemperature2 : Statement (.readTemperature2) := any _
theorem statusByte : Statement (.statusByte) := any _
theorem statusWord : Statement (.statusWord) := any _
theorem mfrId : Statement (.mfrId) := any _
theorem mfrModel : Statement (.mfrModel) := any _
theorem mfrSerial : Statement (.mfrSerial) := any _
theorem mfrModuleState : Statement (.mfrModuleState) := any _
theorem mfrFaultInfo : Statement (.mfrFaultInfo) := any _
theorem mfrDeviceId : Statement (.mfrDeviceId) := any _
theorem mfrCoolant : Statement (.mfrCoolant) := any _
theorem mfrBootMs : Statement (.mfrBootMs) := any _
theorem feedInject (page : Nat) (value : W32) : Statement (.feedInject page value) := any _
theorem portLoopback (port : Fin 10) (value : W32) : Statement (.portLoopback port value) := any _
theorem mrstNRelease : Statement (.mrstNRelease) := any _
theorem entropyOk : Statement (.entropyOk) := any _
theorem inputAbove40V : Statement (.inputAbove40V) := any _
theorem thermalHaltResume (tj : Nat) : Statement (.thermalHaltResume tj) := any _

end Sys2Proof.Laws.Frontable
end

