-- ==== Sys2Proof/Tests/Slice0.lean ====
section
/-!
SUPPORT. Tests/Slice0.lean: small states, a witness for the hypotheses of each statement of Certificates/Slice0/Obligations.lean, the checks of
WellFormed each refusing an ill-formed command, and single steps whose results the spec's text gives.
-/
namespace Sys2Proof.Tests
open Sys2Proof.Machine
set_option Elab.async false

/-- The state after reset. -/
abbrev R : State := State.reset

/-- Reset with logical hamper 0 as given. -/
def at0 (h : Hamper) : State := setH R 0 h

/-- A core that issues in its next beat, with registers s1 = a and s2 = b. -/
def coreIs (a b : Word) : Core :=
  { Core.idle with run := .issuing, launched := true, sregs := ((Vector.replicate 32 (0 : Word)).set 1 a).set 2 b }

/-- Reset with hamper 0 issuing, s1 = a and s2 = b. -/
def run0 (a b : Word) : State := at0 { Hamper.idle with core := coreIs a b }

/-- A window of eight beats from beat 1. -/
def win8 : Window := { first := 1, last := 8, exitPc := 64, saved := Vector.replicate 32 7, itemStep := none }

/-- Reset with hamper 0 in a window at beat 0, and a work list. -/
def winList (l : ListUnit) : State :=
  at0 { Hamper.idle with core := { coreIs 0 0 with window := some win8 }, list := l }

/-- A work item. -/
def item (visible : Bool) (cost : Nat) : ListItem :=
  { slot := 0, entry := 0x40, cost := cost, pinned := false, fetchAddr := 0x1000, fetchLen := 64, record := List.replicate 64 0
    visible := visible, gstep := 5, due := 10 }

/-- Reset with a registered value. -/
def reg (page off v : Nat) : State := setReg R page off v

/-! ## Witnesses -/

theorem wit_StepRunsTheFrontCommand : R.pending = [] := by decide

theorem wit_StepKeepsSafeStates : R.safe = true ∧ ∃ t, step R = .next t := ⟨by decide +kernel, R, rfl⟩

theorem wit_ExecKeepsQueueAndPart : R.safe = true ∧ ∃ t, exec .input R = .next t := ⟨by decide +kernel, _, rfl⟩

theorem wit_OnlyBeatAdvanceAndColdStartsMoveBeats :
    R.safe = true ∧ ∃ t, exec (.beatAdvance 0 [] none) R = .next t ∧ t.dies ≠ R.dies := ⟨by decide +kernel, _, rfl, by decide +kernel⟩

theorem wit_BeatAdvanceCompletesABeat :
    R.safe = true ∧ dieReady ((dieHampers 0).foldl retryStalled R) 0 = true ∧
    (let s := { R with dies := #v[6, 0, 0, 0] }
     s.safe = true ∧ dieReady ((dieHampers 0).foldl retryStalled s) 0 = false) ∧
    R.power.phase = .running ∧ R.power.halts = ⟨false, false, false⟩ ∧ (∀ lh ∈ dieHampers 3, getH R lh = .idle) ∧
    (∀ e : Fin 4, R.dies[e] = R.dies[(3 : Fin 4)]) := by decide +kernel

theorem wit_PantryWritesCommitInOrder :
    let w1 : PWrite := { prio := 7, addr := 0, data := [1, 2] }
    let w2 : PWrite := { prio := 0, addr := pantrySize R 0 - 1, data := [3] }
    R.wf = true ∧ (∀ w ∈ [w1, w2], w.prio < 8 ∧ w.addr + w.data.length ≤ pantrySize R 0) ∧
    (∀ w ∈ [w1, w2], 4 < pantryAddr 0 w.addr ∨ pantryAddr 0 w.addr + w.data.length ≤ 4) ∧ 1 < w1.data.length ∧
    (∀ x ∈ [w2], w1.prio ≤ x.prio → ¬ (x.addr ≤ w1.addr + 1 ∧ w1.addr + 1 < x.addr + x.data.length)) := by decide +kernel

theorem wit_RegisterInstructionsWriteTheirResults : (run0 5 9).safe = true ∧ Ready (run0 5 9) 0 [3, 1, 2] ∧ Ready (run0 5 9) 0 [0, 31, 31] :=
  ⟨by decide +kernel, ⟨by decide +kernel, by decide +kernel⟩, by decide +kernel, by decide +kernel⟩

theorem wit_ImmediateInstructionsWriteTheirResults : (run0 5 9).safe = true ∧ Ready (run0 5 9) 0 [31, 1] :=
  ⟨by decide +kernel, by decide +kernel, by decide +kernel⟩

theorem wit_ControlFlowSetsThePc :
    (run0 16 9).safe = true ∧ Ready (run0 16 9) 0 [3, 1, 2] ∧ (sreg (getH (run0 16 9) 0).core 1).toNat % 8 = 0 :=
  ⟨by decide +kernel, ⟨by decide +kernel, by decide +kernel⟩, by decide +kernel⟩

theorem wit_EndAndWindowsSteerIssue :
    (run0 0 0).safe = true ∧ Ready (run0 0 0) 0 [] ∧ inWindow (getH (run0 0 0) 0).core = false ∧ (1 : BitVec 32) ≠ 0 ∧
    (let c := { coreIs 0 0 with window := some { win8 with first := 0, last := 0 }, next := 1 }
     let s := at0 { Hamper.idle with core := c }
     s.safe = true ∧ (getH s 0).core.window = some { win8 with first := 0, last := 0 } ∧ coreAcked (getH s 0).core 0 = true) :=
  ⟨by decide +kernel, ⟨by decide +kernel, by decide +kernel⟩, by decide +kernel⟩

theorem wit_IllegalInstructionsEndTheProgram :
    (∀ s ∈ [run0 0 0, winList .empty], s.safe = true ∧ canIssue s 0 = true ∧ s.events.length < 4096 ∧
      (getReg s (hamPage s 0 0) Reg.pageEventMask).testBit (maskBit evProgramFault) = false) ∧
    legalWord 0xFFFFFFFFFFFFFFFF false = false ∧ sumFields 0 ≤ 10 ∧ inWindow (getH (winList .empty) 0).core = true ∧
    inWindow (getH (run0 0 0) 0).core = false := by decide +kernel

/-- Hamper 0 with the result of s1 pending, and in a window or not. -/
def pend1 (w : Option Window) : State :=
  at0 { Hamper.idle with core := { coreIs 0 0 with pend := [{ reg := 1, val := 4, due := 4, win := false }], window := w } }

theorem wit_PendingResultsHoldIssue :
    (∀ s ∈ [pend1 none, pend1 (some win8)], canIssue s 0 = true ∧ isPending (getH s 0).core 1 = true) ∧
    inWindow (getH (pend1 none) 0).core = false := by decide +kernel

theorem wit_ControlFlowSetsThePc_align :
    (run0 17 9).safe = true ∧ Ready (run0 17 9) 0 [3, 1, 2] ∧ (sreg (getH (run0 17 9) 0).core 1).toNat % 8 ≠ 0 :=
  ⟨by decide +kernel, ⟨by decide +kernel, by decide +kernel⟩, by decide +kernel⟩

theorem wit_ScalarAccessesReachThePantry_errors :
    (∀ k ∈ [0, 6], let s := run0 (BitVec.ofNat 64 (pantrySize R 0 - k)) 0
     s.safe = true ∧ canIssue s 0 = true ∧ (∀ r ∈ [(2 : Nat), 1], isPending (getH s 0).core (Fin.ofNat 32 r) = false) ∧
     (let a := (sreg (getH s 0).core 1 + BitVec.ofInt 64 (0 : BitVec 46).toInt).toNat
      (pantrySize s 0 ≤ a ↔ k = 0) ∧ (a % 8 ≠ 0 ↔ k = 6) ∧ (a % 4 ≠ 0 ↔ k = 6))) := by decide +kernel

theorem wit_ScalarAccessesReachThePantry :
    (let s := run0 (BitVec.ofNat 64 (pantrySize R 0 - 8)) 0
     s.safe = true ∧ Ready s 0 [2, 1] ∧ (sreg (getH s 0).core 1 + BitVec.ofInt 64 (0 : BitVec 46).toInt).toNat < pantrySize s 0 ∧
     (sreg (getH s 0).core 1 + BitVec.ofInt 64 (0 : BitVec 46).toInt).toNat % 8 = 0) ∧
    (let s := run0 (BitVec.ofNat 64 (pantrySize R 0 - 4)) 0
     s.safe = true ∧ Ready s 0 [2, 1] ∧ (sreg (getH s 0).core 1 + BitVec.ofInt 64 (0 : BitVec 46).toInt).toNat < pantrySize s 0 ∧
     (sreg (getH s 0).core 1 + BitVec.ofInt 64 (0 : BitVec 46).toInt).toNat % 4 = 0) :=
  ⟨⟨by decide +kernel, ⟨by decide +kernel, by decide +kernel⟩, by decide +kernel⟩,
   by decide +kernel, ⟨by decide +kernel, by decide +kernel⟩, by decide +kernel⟩

/-- A launch. -/
def launch1 : Launch :=
  { handle := 1, count := 3, at_ := 0, late := false, startBeat := 0, startNs := 0, illegal := false, forced := false }

/-- Reset with a context in a state. -/
def ctxIs (c : Nat) (x : Context) : State := setCtx R c x

theorem wit_SystemValuesAndSummariesAreRead :
    (run0 0 0).safe = true ∧ Ready (run0 0 0) 0 [31] ∧ (getH (run0 0 0) 0).core.start = (beatOf (run0 0 0) 0 : Int) - 0 ∧
    (getH (run0 0 0) 0).core.window = none ∧ (10 : Fin 11).val < sumFields 3 ∧ sumReady (run0 0 0) 0 3 = true ∧
    (let s := setCtx (run0 0 0) 0 { Context.empty with state := .running, launch := some launch1 }
     s.safe = true ∧ Ready s 0 [31] ∧ (getCtx s (getH s 0).core.ctx).launch = some launch1) ∧
    (winList .empty).safe = true ∧ Ready (winList .empty) 0 [31] ∧ (getH (winList .empty) 0).core.window = some win8 :=
  ⟨by decide +kernel, ⟨by decide +kernel, by decide +kernel⟩, by decide +kernel, by decide +kernel, by decide +kernel, by decide +kernel,
   ⟨by decide +kernel, ⟨by decide +kernel, by decide +kernel⟩, by decide +kernel⟩, by decide +kernel, ⟨by decide +kernel, by decide +kernel⟩,
   by decide +kernel⟩

theorem wit_EngineInstructionsStartInTheNextBeat :
    (run0 0 0).safe = true ∧ Ready (run0 0 0) 0 [31] ∧ inWindow (getH (run0 0 0) 0).core = false :=
  ⟨by decide +kernel, ⟨by decide +kernel, by decide +kernel⟩, by decide +kernel⟩

/-- Hamper 0 issuing, with VID v of context 0 mapped. -/
def mapped (v : Nat) (e : Entry) : State := { run0 0 0 with tly := { TallyState.reset with table := [(v, e)] } }

theorem wit_TallyInstructionsGoToTheirBank :
    (let s := mapped 4095 ⟨.local_, 0, 1023⟩
     s.safe = true ∧ Ready s 0 [31, 1] ∧ (getEntry s (getH s 0).core.ctx 4095).kind = .local_ ∧ inWindow (getH s 0).core = false) ∧
    (let s := mapped 0 ⟨.barrier, 0, 63⟩
     s.safe = true ∧ Ready s 0 [31, 1] ∧ (getEntry s (getH s 0).core.ctx 0).kind = .barrier ∧ inWindow (getH s 0).core = false) :=
  ⟨⟨by decide +kernel, ⟨by decide +kernel, by decide +kernel⟩, by decide +kernel⟩,
   by decide +kernel, ⟨by decide +kernel, by decide +kernel⟩, by decide +kernel⟩

/-- Hamper 0 in a window, with a work list and PROBE = p. -/
def winProbe (l : ListUnit) (p : Nat) : State := setReg (winList l) (lbank 0 5) Reg.listStealCfg p

/-- A steal with an answer. -/
def steal1 (left : Nat) (a : Option (List ListItem)) : Steal := { left := left, empty := 0, due := 0, answer := a, victim := 1 }

theorem wit_TakeAndStealUseTheOwnList :
    (∀ s ∈ [winList .empty, winList { ListUnit.empty with items := [item true 4] }, winList { ListUnit.empty with items := [item true 5] },
        winList { ListUnit.empty with items := [item false 0] }, winProbe .empty 63, winProbe .empty 0,
        winList { ListUnit.empty with steal := some (steal1 1 none) }],
      s.safe = true ∧ canIssue s 0 = true ∧ isPending (getH s 0).core 31 = false ∧ (getH s 0).core.window = some win8) ∧
    (item true 4).visible = true ∧ 0 + 4 + (item true 4).cost ≤ win8.last ∧ win8.last < 0 + 4 + (item true 5).cost ∧
    (item false 0).visible = false ∧ bits (getReg (winProbe .empty 63) (lbank 0 5) Reg.listStealCfg) 5 0 ≠ 0 ∧
    bits (getReg (winProbe .empty 0) (lbank 0 5) Reg.listStealCfg) 5 0 = 0 ∧ (getList (winProbe .empty 0) 0).steal = none := by decide +kernel

/-- Hampers 0 and 47 of one context, launched, the first stealing. -/
def thief (st : Steal) (victim : ListUnit) : State :=
  setH (at0 { Hamper.idle with core := coreIs 0 0, list := { ListUnit.empty with steal := some st } }) 47
    { Hamper.idle with core := coreIs 0 0, list := victim }

theorem wit_StealProbesMoveItems :
    (let st := steal1 1 none
     let s := thief st { ListUnit.empty with items := [item true 1] }
     s.safe = true ∧ (getList s 0).steal = some st ∧ st.answer = none ∧ nextVictim s 0 47 (getList s 0).cursor = some 34 ∧
     victimAt 0 34 = 47) ∧
    (∀ st ∈ [steal1 1 (some [item true 1]), steal1 2 (some []), steal1 1 (some []), steal1 0 (some [])],
      (thief st .empty).safe = true ∧ (getList (thief st .empty) 0).steal = some st) := by decide +kernel

/-- A merge into the last row of a frame of hamper 47. -/
def merge1 (v : Option Nat) (a : Option Nat) : MergeMsg :=
  { dstLh := 47, dstFrame := 2, dstRow := 511, slots := [], tally := v, ctx := 0, from_ := none, attempt := a }

theorem wit_ItemsAndMergesArrive :
    (let s := at0 { Hamper.idle with list := { ListUnit.empty with items := [item true 1, item false 1] } }
     s.safe = true ∧ (getList s 0).items.find? (fun x => !x.visible) = some (item false 1)) ∧
    (∀ m ∈ [merge1 none none, merge1 (some 4095) (some 1), merge1 none (some 2)],
      let s := { R with tly := { TallyState.reset with table := [(4095, ⟨.local_, 0, 1023⟩)] }, merges := [m] }
      s.safe = true ∧ s.merges[0]? = some m ∧ (getEntry s m.ctx 4095).kind = .local_) ∧
    some 1 = some R.flt.attempt ∧ 2 ≠ R.flt.attempt := by decide +kernel

theorem wit_SealCarriesTheStepsAccumulators :
    (run0 0 0).safe = true ∧ Ready (run0 0 0) 0 [31] ∧ inWindow (getH (run0 0 0) 0).core = false ∧
    (let c := { coreIs 0 0 with run := .sealing 0xFFFFFFFFFFFF 0 }
     let s := at0 { Hamper.idle with core := c }
     s.safe = true ∧ (getH s 0).core.run = .sealing 0xFFFFFFFFFFFF 0 ∧ sealReady (getH s 0) 0 = true ∧ (getH s 0).core.sealBeat = none ∧
     completionsDone (getH s 0) 0 = true) :=
  ⟨by decide +kernel, ⟨by decide +kernel, by decide +kernel⟩, by decide +kernel⟩

/-- A tag outside a window. -/
def tag0 : OpTag := { win := false, winEnd := 0, gstep := 0, ctx := 0 }

/-- A pass of one row that ends in beat 256. -/
def pass1 (refused : Bool) : PassRun :=
  { b0 := 0, refused := refused, anchor := 0, gen := 0, limit := 1, first := 0, fed := 0, raw := [], rows := [], sums := [], drainBuf := []
    masked := [], sum_ := .zero, done := false, tag := tag0
    d := { rows := 1, bs8 := false, swap := false, meas := false, sum := false, carry := false, rodOut := 0, sr := false, zeroFill := false
           maskEn := false, squares := false, inTrans := false, anchor := 0, mxReg := 0, guard := 0, basketBase := 0, inFmt := 0, outFmt := 0
           inAddr := 0, inExp := 0, inStride := 0, outAddr := 0, outExp := 0, outStride := 0, maskAddr := 0, tensor := 0, idxBase := 0
           idxRow := 0, reserved := false } }

/-- Hamper 0 with frame 2 as given, at beat t. -/
def framed (f : Frame) (t : Nat) : State :=
  { at0 { Hamper.idle with frames := Hamper.idle.frames.set 2 f } with dies := Vector.replicate 4 t }

/-- A load that ends in beat 127. -/
def load1 (refused : Bool) : LoadRun :=
  { b0 := 0, bs8 := false, buf := none, addr := 0, exp := 0, stride := 0, fmt := .bs16, refused := refused, ran := false, done := false, tag := tag0 }

/-- A turn that ends in beat 127. -/
def turn1 : TurnRun :=
  { b0 := 0, buf := 0, bs8 := false, addr := 0, exp := 0, stride := 0, fmt := .bs16, refused := false, ran := false, done := false, tag := tag0 }

/-- A call of four beats. -/
def call1 : VecRun :=
  { b0 := 0, addr := 0, slot := 63, bytes := [], kregs := [], valid := true, code := [], d := none, refused := false, len := 4, lanes := [], q := []
    red := [], rowMax := 0, rowSum := 0, rowHit := false, sum_ := .zero, residueHit := false, stop := false, cut := none, done := false
    tag := tag0 }

/-- Hamper 0 in a call, at beat 3. -/
def called : State := { at0 { Hamper.idle with vec := [call1] } with dies := Vector.replicate 4 3 }

theorem wit_EngineCompletionsPostTheirResults :
    (∀ b ∈ [false, true], let s := framed { Frame.idle with passes := [pass1 b] } 256
      s.safe = true ∧ (getH s 0).core.stopped = false ∧ (getFrame (getH s 0) 2).passes.find? (passDue · (beatOf s 0)) = some (pass1 b) ∧
      (getFrame (getH s 0) 2).passes = [pass1 b] ∧ passDue (pass1 b) (beatOf s 0) = true ∧ (pass1 b).tag.win = false ∧ (pass1 b).refused = b) ∧
    (∀ b ∈ [false, true], let s := framed { Frame.idle with loads := [load1 b] } 127
      s.safe = true ∧ (getFrame (getH s 0) 2).loads = [load1 b] ∧ (load1 b).done = false ∧ (load1 b).b0 + 127 = beatOf s 0) ∧
    (let s := framed { Frame.idle with turns := [turn1] } 127
     s.safe = true ∧ (getFrame (getH s 0) 2).turns = [turn1] ∧ turn1.done = false ∧ turn1.b0 + 127 = beatOf s 0 ∧ turn1.refused = false) ∧
    called.safe = true ∧ (getH called 0).vec.find? (vecDue · (beatOf called 0)) = some call1 ∧ call1.tag.win = false := by decide +kernel

/-- A stash operation of one line. -/
def stash1 (push mism ext payload trailer : Bool) : StashRun :=
  { b0 := 0, push := push, stack := 7, n := 1, ext := ext, base := 0x1000, found := [], checked := false, mism := mism, trailerIn := trailer
    payloadIn := payload, ran := false, done := false, tag := tag0
    d := { tag := 0, micro := 0, fmt := 0, mantLen := 64, expLen := 0, mantAddr := 0, expAddr := 0, reserved := false } }

/-- Hamper 0 with a stash operation, at beat t. -/
def stashed (r : StashRun) (t : Nat) : State := { at0 { Hamper.idle with stash := [r] } with dies := Vector.replicate 4 t }

theorem wit_StashOperationsMoveTheirStack :
    (let r := stash1 true false false true true
     let s := stashed r 1
     s.safe = true ∧ (getH s 0).stash = [r] ∧ r.done = false ∧ r.ran = false ∧ r.n = entryLines r.d ∧ (getH s 0).core.stopped = false ∧
     r.push = true ∧ stashLast r = beatOf s 0) ∧
    (∀ b ∈ [false, true], let r := stash1 false b false true true
     let s := stashed r 48
     s.safe = true ∧ (getH s 0).stash = [r] ∧ r.n = entryLines r.d ∧ r.push = false ∧ stashLast r = beatOf s 0 ∧
     stashWaits r (beatOf s 0) = false ∧ 0 < r.n ∧ r.mism = b ∧ (∀ m ∈ s.hbm.toList ++ s.lpc.toList, m.poison = [])) ∧
    (let r := stash1 false false true false false
     let s := stashed r 0
     s.safe = true ∧ (getH s 0).stash = [r] ∧ r.n = entryLines r.d ∧ r.push = false ∧ r.ext = true ∧ r.payloadIn = false ∧ r.trailerIn = false) := by
  decide +kernel

/-- A scheduled DMA of 512 bytes to HBM3E. -/
def dma1 (v : Option Nat) : DmaRun :=
  { b0 := 0, src := pantryBase, dst := 0x2000, len := 512, toHbm := true, tally := v, pendingWrites := [], ran := false, done := false, tag := tag0 }

/-- An open DMA. -/
def odma1 (v : Option Nat) : OpenDma := { lh := 47, src := 0x1000, dst := lpBase, len := 64, tally := v, ctx := 0 }

theorem wit_DmaCompletionsWriteAndSignal :
    (∀ v ∈ [none, some 4095],
      let s := { at0 { Hamper.idle with dma := [dma1 v] } with dies := Vector.replicate 4 (dmaLast (dma1 v)), dmas := [odma1 v]
                                                               tly := { TallyState.reset with table := [(4095, ⟨.local_, 0, 1023⟩)] } }
      s.safe = true ∧ (getH s 0).core.stopped = false ∧ (getH s 0).dma = [dma1 v] ∧ (dma1 v).done = false ∧ (dma1 v).ran = false ∧
      (dma1 v).toHbm = true ∧ dmaLast (dma1 v) = beatOf s 0 ∧ 0 < (dma1 v).len ∧ s.dmas[0]? = some (odma1 v) ∧
      (getEntry s 0 4095).kind = .local_) ∧
    (∀ m ∈ R.hbm.toList ++ R.lpc.toList, m.poison = []) := by decide +kernel

/-- An RLOAD of one word, with its length as given. -/
def rload1 (n : Nat) : RloadRun :=
  { b0 := 0, slot := 63, length := n, addr := 0, words := [0], malformed := false, ran := false, done := false, tag := tag0 }

/-- Hamper 0 in the third beat of an RLOAD, with calls on its vector engine. -/
def rloading (n : Nat) (v : List VecRun) : State :=
  { at0 { Hamper.idle with rloads := [rload1 n], vec := v } with dies := Vector.replicate 4 2 }

theorem wit_RloadCommitsItsSlot :
    (∀ s ∈ [rloading 1 [], rloading 33 [], rloading 1 [call1]], s.safe = true ∧ (getH s 0).core.stopped = false ∧ (rload1 1).done = false ∧
      (rload1 1).b0 + 2 = beatOf s 0 ∧ (rload1 33).malformed = false) ∧
    slotHeld (rloading 1 [call1]) (physOf (rloading 1 [call1]) 0) 63 = true ∧
    (∀ n ∈ [1, 33], (getH (rloading n []) 0).rloads = [rload1 n] ∧ slotHeld (rloading n []) (physOf (rloading n []) 0) 63 = false ∧
      let st := (rload1 n).words.zipIdx.foldl (fun st w => storeWord st 63 w.2 w.1) .empty
      checkRecipe false (slotWords st 63 32) n = if n = 33 then some (1, 0) else none) := by decide +kernel

/-- A seal request of a hamper for a step, with norm 5. -/
def req1 (lh : Fin 48) (step : StepNo) : SealReq :=
  { lh := lh, step := step, norm := { n := 5, res := 5, mark := false, nb := 0 }, counts := .zero, digests := [], beat := 1, ctx := 0, launchCount := 1
    handle := 1, launchBeat := 0, tq := 0 }

/-- Reset at beat 1, the requests of hampers in mask expected, UC as given. -/
def sealing (mask : Nat) (u : Uc) : State := { setReg R ucPage Reg.ucSealExpect mask with uc := u, dies := Vector.replicate 4 1 }

theorem wit_SealRequestsAreCollectedHeldOrDropped :
    (let r := req1 47 0
     let s := sealing (1 + 2 ^ 47) { Uc.reset with leaving := [r] }
     s.safe = true ∧ s.uc.leaving[0]? = some r ∧ r.tq < beatOf s r.lh ∧ r.step = s.uc.step ∧ s.uc.sealSt = .open_ ∧
     (∀ x ∈ s.uc.reqs, x.lh ≠ r.lh ∧ x.norm.nb = r.norm.nb) ∧ (sealExpect s).testBit 0 = true ∧ 0 ≠ r.lh.val ∧ (∀ x ∈ s.uc.reqs, x.lh.val ≠ 0)) ∧
    (∀ st ∈ [SealState.open_, .sealed], let r := req1 47 0
     let s := sealing 1 { Uc.reset with leaving := [r], step := 0xFFFFFFFFFFFF, sealSt := st }
     s.safe = true ∧ s.uc.leaving[0]? = some r ∧ r.step = s.uc.step + 1 ∧ s.uc.heldSweep = none ∧ (∀ x ∈ s.uc.held, x.lh ≠ r.lh)) ∧
    (let r := req1 47 2
     let s := sealing 1 { Uc.reset with leaving := [r] }
     s.safe = true ∧ s.uc.leaving[0]? = some r ∧ r.step ≠ s.uc.step ∧ r.step ≠ s.uc.step + 1 ∧ (s.uc.sealSt = .sealed → s.uc.heldSweep = none)) ∧
    (∀ st ∈ [SealState.refused, .withheld], ∀ n ∈ [0, 1], let r := req1 47 (BitVec.ofNat 48 n)
     let s := sealing 1 { Uc.reset with leaving := [r], sealSt := st }
     s.safe = true ∧ s.uc.leaving[0]? = some r ∧ (s.uc.sealSt = .refused ∨ s.uc.sealSt = .withheld) ∧
     (r.step = s.uc.step ∨ r.step = s.uc.step + 1)) := by decide +kernel

theorem wit_SealIsGrantedWhenAllHaveAsked :
    let r := req1 47 0
    let s := sealing (1 + 2 ^ 47) { Uc.reset with leaving := [r], reqs := [req1 0 0] }
    s.safe = true ∧ s.uc.leaving[0]? = some r ∧ r.tq < beatOf s r.lh ∧ r.step = s.uc.step ∧ s.uc.sealSt = .open_ ∧ s.uc.heldSweep = none ∧
    normOthers s = [] ∧ MayEmit s evSealed ucPage ∧ (∀ x ∈ s.uc.reqs, x.lh ≠ r.lh ∧ x.norm.nb = r.norm.nb) ∧
    (∀ x ∈ s.uc.reqs ++ [r], x.norm.n % 127 = x.norm.res % 127) ∧
    (∀ k : Fin 48, (sealExpect s).testBit k = true → ∃ x ∈ s.uc.reqs ++ [r], x.lh.val = k) ∧
    (∀ k, 48 ≤ k → (sealExpect s).testBit k = false) :=
  ⟨by decide +kernel, by decide +kernel, by decide +kernel, by decide +kernel, by decide +kernel, by decide +kernel, by decide +kernel,
   ⟨by decide +kernel, by decide +kernel⟩, by decide +kernel, by decide +kernel, by decide +kernel,
   fun k hk => Nat.testBit_lt_two_pow (Nat.lt_of_lt_of_le (by decide +kernel : _ < 2 ^ 48) (Nat.pow_le_pow_right (by decide) hk))⟩

/-- A sweep of a descriptor. -/
def sweep1 (d : SweepDesc) (wait : Bool) : Sweep := { desc := d, ctx := 0, resume := false, normWait := wait, signalled := 0 }

/-- A descriptor of no segment. -/
def desc0 : SweepDesc :=
  { addr := 0, step := 0, segCount := 0, clip := false, skip := false, clipMax := 0, doneVid := 0, doneEn := false, journal := lpBase, segs := []
    crc := 0, reserved := false }

/-- Reset with a seal state, a sweep state and a sweep. -/
def ucIs (st : SealState) (sw : SweepState) (w : Option Sweep) : State :=
  { R with uc := { Uc.reset with sealSt := st, sweepState := sw, sweep := w } }

theorem wit_UcCommandsActOnTheSeal :
    (∀ s ∈ [ucIs .refused .idle none, ucIs .withheld .running none, ucIs .sealed .done none, ucIs .sealed .running none, ucIs .open_ .idle none,
        ucIs .open_ .partial_ none], s.safe = true) ∧
    ((ucIs .refused .idle none).uc.sealSt = .refused ∧ (ucIs .withheld .running none).uc.sealSt = .withheld ∧
      (ucIs .sealed .done none).uc.sealSt = .sealed ∧ ¬ ((ucIs .sealed .done none).uc.sweepState = .running ∨
        (ucIs .sealed .done none).uc.sweepState = .partial_) ∧ (ucIs .sealed .running none).uc.sweepState = .running ∧
      (ucIs .open_ .idle none).uc.reqs = [] ∧ (ucIs .open_ .partial_ none).uc.sweepState = .partial_) ∧
    (8 : W32).getLsbD 3 = true ∧ (4 : W32).getLsbD 2 = true ∧ (0 : W32).getLsbD 3 = false ∧ (0 : W32).getLsbD 2 = false ∧
    (let w := sweep1 desc0 true
     let s := ucIs .sealed .running (some w)
     s.safe = true ∧ s.uc.sweep = some w ∧ w.normWait = true) := by decide +kernel

/-- Memory with a descriptor of one FP32 segment at 0x1000: its flags, its step, its count and its gradient plane. -/
def descMem (flags step count g : Nat) : List (Nat × Byte) :=
  let m := memWrite [] 0x1000 (bytesLE 6 step)
  let m := memWrite (memWrite m 0x1008 [1]) 0x100C (bytesLE 4 flags)
  let m := memWrite (memWrite m 0x1018 (bytesLE 8 lpBase)) 0x1040 (bytesLE 4 count)
  memWrite (memWrite (memWrite m 0x1044 [0x30, 3]) 0x1048 (bytesLE 8 0x2000)) 0x1058 (bytesLE 8 g)

/-- Reset with that descriptor, a recipe in slot 0 and UC as given. -/
def sweeps (flags step count g : Nat) (u : Uc) : State :=
  { R with mem := descMem flags step count g, uc := u, ustore := { words := [], valid := [(0, 1)] } }

theorem wit_SweepsAreAcceptedRefusedOrSkipped :
    ¬ (0x1020 % 64 = 0 ∧ deviceRangeOk 0x1020 64 = true) ∧ ¬ (0xFFFFFFFFFFFFC0 % 64 = 0 ∧ deviceRangeOk 0xFFFFFFFFFFFFC0 64 = true) ∧
    (0x1000 % 64 = 0 ∧ deviceRangeOk 0x1000 64 = true) ∧
    (let s := sweeps 0 1 1 0x4000 .reset
     s.safe = true ∧ ¬ (readSweepDesc s 0x1000).step = s.uc.step.toNat) ∧
    (let s := sweeps 0 0 1 0x4000 { Uc.reset with sealSt := .sealed, sweepState := .running }
     s.safe = true ∧ (readSweepDesc s 0x1000).step = s.uc.step.toNat ∧ s.uc.sweepState = .running) ∧
    (let s := sweeps 4 0 1 0x4000 .reset
     s.safe = true ∧ (readSweepDesc s 0x1000).step = s.uc.step.toNat ∧ pageOff s ucPage = false ∧ s.uc.sweepState = .idle ∧ s.uc.heldSweep = none ∧
     descOk s (readSweepDesc s 0x1000) = false) ∧
    (let s := sweeps 0 0 1 0x2000 .reset
     s.safe = true ∧ descOk s (readSweepDesc s 0x1000) = true ∧ (readSweepDesc s 0x1000).skip = false ∧
     anyMeet (sweepRanges (readSweepDesc s 0x1000)) = true) ∧
    (let s := sweeps 0 0 1 0x4000 .reset
     s.safe = true ∧ descOk s (readSweepDesc s 0x1000) = true ∧ (readSweepDesc s 0x1000).skip = false ∧
     anyMeet (sweepRanges (readSweepDesc s 0x1000)) = false ∧ resumeOk s (readSweepDesc s 0x1000) = false ∧ s.uc.sealSt = .open_) ∧
    ((1 : W32).getLsbD 0 = true ∧ (3 : W32).getLsbD 1 = true ∧ (2 : W32).getLsbD 0 = false) ∧
    (let s := { sweeps 0 0 1 0x4000 .reset with hampers := (run0 0x1000 0).hampers }
     s.safe = true ∧ Ready s 0 [1] ∧ inWindow (getH s 0).core = false ∧ (sreg (getH s 0).core 1).toNat = 0x1000) ∧
    (let s := setReg (sweeps 2 0 1 0x4000 { Uc.reset with sealSt := .sealed }) ucPage Reg.ucSweepDesc 0x1000
     let d := readSweepDesc s (getReg s ucPage Reg.ucSweepDesc)
     s.safe = true ∧ sweepRefusal s d false = none ∧ d.skip = true ∧ d.doneEn = false ∧ s.uc.held = [] ∧ s.uc.nextRefused = false ∧
     s.uc.nextWithheld = false ∧ ledSlots s = 0) :=
  ⟨by decide +kernel, by decide +kernel, by decide +kernel, by decide +kernel, by decide +kernel, by decide +kernel, by decide +kernel,
   by decide +kernel, by decide +kernel, ⟨by decide +kernel, ⟨by decide +kernel, by decide +kernel⟩, by decide +kernel⟩, by decide +kernel⟩

/-- Reset with update unit 0 at a chunk of a segment of two chunks. -/
def chunking : State :=
  let s := sweeps 0 0 129 0x4000 .reset
  let w := sweep1 (readSweepDesc s 0x1000) false
  let s := setReg s ucPage Reg.ucJournalEvery 2
  { s with uc := { Uc.reset with sealSt := .sealed, sweepState := .running, sweep := some w }
           units := s.units.set 0 { UpdUnit.idle with active := true } }

theorem wit_ChunksCommitOrStopTheSweep :
    chunkDue R 19 = none ∧ R.safe = true ∧ chunking.safe = true ∧
    (chunkDue chunking 0).map (fun x => (x.1.signalled, x.2.1.count, x.2.2)) = some (0, 129, 0) ∧
    (∀ m ∈ chunking.hbm.toList ++ chunking.lpc.toList, m.poison = []) ∧ updArmed chunking 0 = false ∧
    ((chunkDue chunking 0).all (fun x => decide ((getUnit chunking 0).cursor + 1 < (unitChunks x.2.1 0).length))) = true ∧
    (getUnit chunking 0).seg = 0 ∧ (getUnit chunking 0).since + 1 < max 1 (getReg chunking ucPage Reg.ucJournalEvery % 65536) ∧
    inWindowCount chunking (unitUpdate 0) 86400 < 2 := by decide +kernel

/-- Reset with the expert level of a page unlocked. -/
def unlocked (page : Nat) : State := setFlags R page { PageFlags.reset with unlocked := true }

theorem wit_RegisterWritesFollowTheirAccess :
    R.safe = true ∧ (0 < pageBase) ∧ pageBase + pageWindow ≤ 0xF_0000_1000_0000 ∧ pagePresent R 9 = true ∧ pagePresent R 0xA = false ∧
    2 % (if true then 8 else 4) ≠ 0 ∧
    (regAt faultPage Reg.pageErr).map (·.wide) = some false ∧ (regAt mgmtPage Reg.mgPackageBeats).map (·.acc) = some .ro ∧
    (regAt powerPage Reg.pwrHardW).map (·.acc) = some .rwx ∧ (getFlags R powerPage).unlocked = false ∧
    (0xF_0000_0000_2000 + Reg.fltReplayLimit - pageBase) / 0x1000 = faultPage ∧ pagePresent R faultPage = true ∧ faultPage ≠ ramblerPage 0 ∧
    pagePresent R 0x3F8 = true ∧ pageType 0x3F8 = some (19, 143) := by decide +kernel

/-- Reset with the flags of a page. -/
def flagged (page : Nat) (f : PageFlags) : State := setFlags R page f

theorem wit_DrainEnableAndDebugSetPageFlags :
    (pagePresent R 0x3F8 = true ∧ drainUnit 0x3F8 = .hamper 47 ∧ usersOf R 47 = []) ∧
    (pagePresent R ucPage = true ∧ drainUnit ucPage = .uc ∧ R.uc.sweepState ≠ .running ∧ (getFlags R ucPage).draining = false ∧
      (getFlags R ucPage).drained = false ∧ (getFlags R ucPage).off = false) ∧
    (let s := ucIs .sealed .running none
     s.safe = true ∧ s.uc.sweepState = .running ∧ (getFlags s ucPage).draining = false) ∧
    (drainUnit 1 = .none_ ∧ pagePresent R 1 = true ∧ drainUnit 0x19 = .port 9 ∧ R.hostSessions = [] ∧ R.nearSessions = []) ∧
    (∀ p ∈ [ucPage, 0x19, 0x400 - 8], let s := flagged p { PageFlags.reset with draining := true }
     s.safe = true ∧ pagePresent s p = true ∧ (getFlags s p).draining = true) ∧
    (let s := flagged ucPage { PageFlags.reset with drained := true, disabled := true }
     s.safe = true ∧ (getFlags s ucPage).drained = true ∧ (getFlags s ucPage).fault = false ∧ (getFlags s ucPage).off = false ∧
     enablePage ucPage = true) ∧
    (let s := flagged ucPage { PageFlags.reset with drained := true, fault := true }
     s.safe = true ∧ (getFlags s ucPage).fault = true) ∧
    anyLaunch R = false ∧ (ctxIs 15 { Context.empty with state := .running }).safe = true ∧
    anyLaunch (ctxIs 15 { Context.empty with state := .running }) = true := by decide +kernel

theorem wit_RecipeStoreRegistersReadWriteAndCommit :
    (let s := { reg 0x3F2 Reg.vecRstoreSel 0x7FF with hampers := (rloading 1 [{ call1 with slot := 63 }]).hampers, dies := Vector.replicate 4 2 }
     s.safe = true ∧ PageOf s 47 2 0x3F2 ∧ slotHeld s 47 63 = false) ∧
    (let s := setReg (rloading 1 [call1]) 0x102 Reg.vecRstoreSel 63
     s.safe = true ∧ PageOf s 0 2 0x102 ∧ slotHeld s 0 (getReg s 0x102 Reg.vecRstoreSel % 64) = true) ∧
    (checkRecipe false (slotWords .empty 63 32) (1 % 64) = none ∧ checkRecipe false (slotWords .empty 63 32) (33 % 64) = some (1, 0)) ∧
    (ucIs .sealed .running none).safe = true ∧ (ucIs .sealed .running none).uc.sweepState = .running ∧ R.uc.sweepState ≠ .running ∧
    checkRecipe true (slotWords .empty 15 32) (1 % 64) = none ∧ checkRecipe true (slotWords .empty 15 32) (0 % 64) = some (1, 0) :=
  ⟨⟨by decide +kernel, ⟨by decide +kernel, by decide +kernel, by decide +kernel, by decide +kernel⟩, by decide +kernel⟩,
   ⟨by decide +kernel, ⟨by decide +kernel, by decide +kernel, by decide +kernel, by decide +kernel⟩, by decide +kernel⟩, by decide +kernel⟩

theorem wit_InjectionsAndSelfTestsAreArmed :
    (∀ p ∈ [0x3F8, 0x3F2, 0x3F1, hbmcPage 15, lpcPage 15, updPage 19, ramblerPage 1],
      (unlocked p).safe = true ∧ pagePresent (unlocked p) p = true ∧ (getFlags (unlocked p) p).unlocked = true ∧ (getFlags R p).unlocked = false) ∧
    PageOf R 47 8 0x3F8 ∧ 6 ≤ 8 ∧ PageOf R 47 2 0x3F2 ∧ PageOf R 47 1 0x3F1 ∧
    (∀ l ∈ logicalsOf R 47, frameState (getFrame (getH R l) 2) (beatOf R l) = 0 ∧ callRunning (getH R l) (beatOf R l) = none) ∧
    bistReg 0x3F8 = some Reg.frameBist ∧ (reg 0x3F8 Reg.frameBist 1).safe = true ∧
    (getReg (reg 0x3F8 Reg.frameBist 1) 0x3F8 Reg.frameBist).testBit 0 = true ∧ (getReg R 0x3F8 Reg.frameBist).testBit 0 = false :=
  ⟨by decide +kernel, ⟨by decide +kernel, by decide +kernel, by decide +kernel, by decide +kernel⟩, by decide,
   ⟨by decide +kernel, by decide +kernel, by decide +kernel, by decide +kernel⟩,
   ⟨by decide +kernel, by decide +kernel, by decide +kernel, by decide +kernel⟩, by decide +kernel⟩

/-- Hamper 47 with a core and stack 7. -/
def at47 (h : Hamper) (page : Nat) : State := setH (unlocked page) 47 h

theorem wit_HamperRegistersAreWritten :
    (∀ i ∈ [0, 31], let s := setReg (at47 .idle 0x3F0) 0x3F0 Reg.hamSregSel i
     s.safe = true ∧ (getFlags s 0x3F0).unlocked = true ∧ lselOf s 0x3F0 = 47 ∧ sregOpen (getH s 47).core = true ∧
     getReg s 0x3F0 Reg.hamSregSel % 32 = i) ∧
    (let s := at47 .idle 0x3F0
     s.safe = true ∧ PageOf s 47 0 0x3F0 ∧ lselOf s 0x3F0 = 47 ∧ (getFlags s 0x3F0).unlocked = true ∧ sregOpen (getH s 47).core = true ∧
     sregOpen (getH (at47 { Hamper.idle with core := coreIs 0 0 } 0x3F0) 47).core = false ∧ (getFlags R 0x3F0).unlocked = false) ∧
    (let s := at47 .idle 0x3F4
     s.safe = true ∧ PageOf s 47 4 0x3F4 ∧ (getH s 47).stackRegs[7].depth = 0 ∧ 0xC_0000_0000 % 4096 = 0 ∧ 0xC_0000_0000 < hbmEnd ∧
     dieOfHbm 0xC_0000_0000 = 47 / 12 ∧ stashAlloc (getH s 47) 7 (2 ^ 33) ≤ 2 ^ 33 ∧ 2 ^ 33 < stashAlloc (getH s 47) 7 (2 ^ 33 + 4096) ∧
     regionOf lpBase = .lpddr ∧ 1 % 4096 ≠ 0) ∧
    (let s := at47 { Hamper.idle with stackRegs := Hamper.idle.stackRegs.set 7 { Stack.zero with depth := 1 } } 0x3F4
     s.safe = true ∧ (getH s 47).stackRegs[7].depth ≠ 0) ∧
    (let s := at47 .idle 0x3F5
     s.safe = true ∧ PageOf s 47 5 0x3F5 ∧ (getH s 47).list.items = [] ∧ ¬ ((getH s 47).core.launched = true ∧ ctxRuns (getCtx s 0) = true) ∧
     listFits (setReg s (lbank 47 listSub) Reg.listBase (listValue Reg.listBase 4096)) 47 = true ∧ (getFlags s 0x3F5).unlocked = true ∧
     (1 : W32).getLsbD 0 = true) ∧
    (let s := at47 { Hamper.idle with list := { ListUnit.empty with items := [item true 1] } } 0x3F5
     s.safe = true ∧ (getH s 47).list.items ≠ []) ∧
    (unlocked 0x3F3).safe = true ∧ PageOf (unlocked 0x3F3) 47 3 0x3F3 ∧ (getFlags (unlocked 0x3F3) 0x3F3).unlocked = true ∧ (4 : W32).getLsbD 2 = true :=
  ⟨by decide +kernel, ⟨by decide +kernel, ⟨by decide +kernel, by decide +kernel, by decide +kernel, by decide +kernel⟩, by decide +kernel⟩,
   ⟨by decide +kernel, ⟨by decide +kernel, by decide +kernel, by decide +kernel, by decide +kernel⟩, by decide +kernel⟩, by decide +kernel,
   ⟨by decide +kernel, ⟨by decide +kernel, by decide +kernel, by decide +kernel, by decide +kernel⟩, by decide +kernel⟩, by decide +kernel,
   by decide +kernel, ⟨by decide +kernel, by decide +kernel, by decide +kernel, by decide +kernel⟩, by decide +kernel⟩

/-- A tally operation of hamper 47 on tally 1023. -/
def tmsg (op : TallyOp) (n : Nat) : TallyMsg :=
  { op := op, lh := some 47, dst := 31, ctx := 0, vid := 4095, phys := 1023, n := n, agent := 47, beat := 0 }

/-- Reset at beat 1 with that operation on its way and tally 1023 as given. -/
def tallied (m : TallyMsg) (k : Tally) : State :=
  { R with dies := Vector.replicate 4 1, tly := { TallyState.reset with msgs := [m], tallies := [(1023, k)] } }

/-- A core that waits for n. -/
def waits (n : Nat) : Waiter := { src := .core 47 31, n := n, ctx := 0, vid := 4095 }

theorem wit_SignalsReachTheirTally :
    (∀ k ∈ [Tally.free, { Tally.free with observe := [waits 3], consume := [waits 3] }, { Tally.free with observe := [waits 2] },
        { Tally.free with consume := [waits 2, waits 1] }, { Tally.free with count := 2 ^ 32 - 2 }],
      let s := tallied (tmsg .signal 2) k
      s.safe = true ∧ s.tly.msgs[0]? = some (tmsg .signal 2) ∧ (tmsg .signal 2).op = .signal ∧ signalReady s 0 (tmsg .signal 2) = true ∧
      getTally s 1023 = k) ∧
    0 + 2 < 2 ^ 32 ∧ 0 + 2 < (waits 3).n ∧ (waits 2).n ≤ 0 + 2 ∧ 0 + 2 - (waits 2).n < (waits 1).n ∧ 2 ^ 32 ≤ (2 ^ 32 - 2) + 2 ∧
    (waits 2).src = .core 47 31 := by decide +kernel

theorem wit_WaitsQueueOrAreAnswered :
    (∀ op ∈ [TallyOp.observe, .consume], ∀ n ∈ [0, 2, 3], let s := tallied (tmsg op n) { Tally.free with count := 2 }
      s.safe = true ∧ s.tly.msgs[0]? = some (tmsg op n) ∧ (tmsg op n).lh = some 47 ∧ (getTally s 1023).count = 2 ∧ (getTally s 1023).consume = []) ∧
    (let s := tallied (tmsg .consume 1) { Tally.free with count := 2, consume := [waits 3] }
     s.safe = true ∧ (getTally s 1023).consume ≠ []) := by decide +kernel

/-- Reset at beat 1 with an arrival of hamper 47 on its way to slot 63, which is as given. -/
def arriving (wait : Bool) (b : BarSlot) : State :=
  { R with dies := Vector.replicate 4 1
           tly := { TallyState.reset with msgs := [{ tmsg (.arrive wait) 0 with phys := 63 }], slots := TallyState.reset.slots.set 63 b } }

theorem wit_BarrierArrivalsCompleteGenerations :
    (∀ w ∈ [false, true], ∀ b ∈ [{ BarSlot.free with hampers := 1 + 2 ^ 47 }, { BarSlot.free with hampers := 2 ^ 47 }, BarSlot.free,
        { BarSlot.free with broken := true }],
      (arriving w b).safe = true ∧ (arriving w b).tly.msgs[0]? = some { tmsg (.arrive w) 0 with phys := 63 } ∧
      getSlot (arriving w b) 63 = b ∧ b.current.testBit 47 = false ∧ b.waiters = [] ∧ b.modules = 0 ∧ b.next = 0) ∧
    (1 + 2 ^ 47).testBit 47 = true ∧ (1 + 2 ^ 47).testBit 0 = true ∧ (0 : Nat).testBit 0 = false ∧ 0 ≠ 47 ∧
    covers (0 ||| 2 ^ 47) (2 ^ 47) = true ∧ (0 : Nat).testBit 47 = false := by decide +kernel

theorem wit_TallyRegistersAndLendingTakeEffect :
    (let s := { unlocked tallyPage with tly := { TallyState.reset with table := [(0, ⟨.local_, 0, 1023⟩)], tallies := [(1023, .free)] } }
     s.safe = true ∧ (getFlags s tallyPage).unlocked = true ∧ ctxRuns (getCtx s (tlySel s).1) = false ∧
     (getEntry s (tlySel s).1 (tlySel s).2).kind = .local_ ∧ (getTally s 1023).observe = [] ∧ (getTally s 1023).consume = [] ∧
     (1 : W32).getLsbD 0 = true ∧ (getSlot s (getReg s tallyPage Reg.tlyBarSel % 64)).waiters = []) ∧
    (getFlags R tallyPage).unlocked = false ∧ (getEntry (unlocked tallyPage) 0 0).kind ≠ .local_ ∧
    (let s := { unlocked tallyPage with tly := { TallyState.reset with slots := TallyState.reset.slots.set 0 { BarSlot.free with waiters := [(waits 0, 0)] } } }
     s.safe = true ∧ (getSlot s (getReg s tallyPage Reg.tlyBarSel % 64)).waiters ≠ []) ∧
    (let s := at0 { Hamper.idle with core := { coreIs 0 0 with run := .waiting .tally 1 } }
     s.safe = true ∧ getReg s tallyPage Reg.tlyLendThresh ≠ 0 ∧ s.tly.lent.any (fun x => x.1 == 0) = false ∧ dieHeld s 0 = true ∧
     s.power.floor.toList.getD 0 0 ≤ s.power.mv.toList.getD 0 0) := by decide +kernel

/-- A host session. -/
def host1 : HostSession :=
  { session := 7, port := 0, half := 0, addr := 1, appNext := 1, rxNext := 1, rxSeen := [], txNext := 1, unacked := [], waiting := [] }

/-- A near session to a module that is up. -/
def near1 (m : Nat) : NearSession :=
  { module := m, session := 9, port := 9, half := 1, up := true, rxNext := 1, txNext := 1, unacked := [], waiting := [], limit := 100, sent := 0
    rxLimit := 100, rxLimitSent := 100, users := [] }

/-- Reset with a host session, a near session to module 255 and VID 4095 of context 15 mapped. -/
def messaged (e : Entry) (t : TallyState) : State :=
  { R with hostSessions := [host1], nearSessions := [near1 255], tly := { t with table := [(15 * 4096 + 4095, e)] } }

theorem wit_TallyMessagesTakeEffect :
    senderUp R { sender := none, ctx := 15, step := 0, attempt := 1 } = false ∧
    (∀ e ∈ [Entry.unmapped, ⟨.local_, 0, 1023⟩, ⟨.barrier, 0, 63⟩],
      let s := messaged e { TallyState.reset with slots := TallyState.reset.slots.set 63 { BarSlot.free with hampers := 1 + 2 ^ 48 } }
      senderUp s { sender := none, ctx := 15, step := 0, attempt := 1 } = true ∧ getEntry s 15 4095 = e ∧
      (getCtx s 15).state ≠ .resetting ∧ (getTally s 1023).observe = [] ∧ (getTally s 1023).consume = [] ∧
      (getTally s 1023).count + (2 ^ 32 - 1) < 2 ^ 32 ∧ remoteWaiters s < 1024 ∧ (getTally s 1023).count < 1 ∧
      (getSlot s 63).broken = false ∧ (getSlot s 63).hampers.testBit 48 = true ∧ (getSlot s 63).current.testBit 48 = false ∧
      (getSlot s 63).hampers.testBit 0 = true ∧ (getSlot s 63).waiters = []) ∧
    (messaged ⟨.local_, 0, 1023⟩ .reset).safe = true ∧
    (let w : SentWait := { lh := 47, dst := 31, module := 255, token := 2 ^ 32 - 1 }
     let s := messaged ⟨.local_, 0, 1023⟩ { TallyState.reset with sent := [w] }
     s.safe = true ∧ senderUp s { sender := some 255, ctx := 15, step := 0, attempt := 1 } = true ∧
     s.tly.sent.find? (fun w => decide (w.module = 255) && decide (w.token = 2 ^ 32 - 1)) = some w) ∧
    MayEmit (messaged ⟨.barrier, 0, 63⟩ .reset) evBarrierBroken tallyPage :=
  ⟨by decide +kernel, by decide +kernel, by decide +kernel, by decide +kernel, by decide +kernel, by decide +kernel⟩

theorem wit_MemoryIsReadAndWritten :
    R.safe = true ∧ (∀ m ∈ R.hbm.toList ++ R.lpc.toList, m.poison = []) ∧ deviceRangeOk (hbmEnd - 4) 4 = true ∧ deviceRangeOk (larderBase - 4) 4 = true ∧
    (injectedWrite R (hbmEnd - 4) 4).1 = false ∧ armedUnits R armsRead (hbmEnd - 4) 4 = [] ∧ armedUnits R armsRead 0x1000 4 = [] ∧ deviceRangeOk (pantryAddr 47 0) 4 = false ∧ pantryRangeOk R (pantryAddr 47 (pantrySize R 47 - 4)) 4 = true ∧
    (deviceRangeOk (hbmEnd - 3) 4 = false ∧ pantryRangeOk R (hbmEnd - 3) 4 = false) ∧
    (deviceRangeOk larderBase 1 = false ∧ pantryRangeOk R larderBase 1 = false) ∧
    (injected R (hbmEnd - 4) .clean).2 = .clean ∧
    rowDue (trackRow (getCtl R (ctlOf (hbmEnd - 4))).track (ctlRow (hbmEnd - 4)) (clockSec R)) (ctlRow (hbmEnd - 4)) = false := by decide +kernel

theorem wit_MemoryIsReadAndWritten_checked :
    injected R 0x1000 .corrected = (R, .corrected) ∧ injected R 0x1000 .uncorrectable = (R, .uncorrectable) := ⟨rfl, rfl⟩

/-- Reset with controller 15 of a tier as given. -/
def ctl15 (hbm : Bool) (m : MemCtl) : State := setCtl R (hbm, 15) m

theorem wit_MemoryMaintenanceTakesEffect :
    (let s := ctl15 true { MemCtl.reset with rowCopy := some 7 }
     s.safe = true ∧ (getCtl s (true, 15)).rowCopy = some 7 ∧ s.events.length < 4096 ∧
     (getReg s (hbmcPage 15) Reg.pageEventMask).testBit (maskBit evRowRetired) = false) ∧
    (let s := ctl15 true { MemCtl.reset with migrating := some (31, 7) }
     s.safe = true ∧ (getCtl s (true, 15)).migrating = some (31, 7) ∧
     (getReg s (hbmcPage 15) Reg.pageEventMask).testBit (maskBit evPcRetired) = false) ∧
    (let s := ctl15 false { MemCtl.reset with repairing := some (3, 7) }
     s.safe = true ∧ (getCtl s (false, 15)).repairing = some (3, 7) ∧ 3 < 4 ∧
     (getReg s (lpcPage 15) Reg.pageEventMask).testBit (maskBit evRowRetired) = false) ∧
    (getFlags R (hbmcPage 15)).unlocked = false ∧
    (let s := unlocked (hbmcPage 15)
     let h := getCtl s (true, 15)
     s.safe = true ∧ (getFlags s (hbmcPage 15)).unlocked = true ∧ hbmEnd ≤ hbmEnd ∧ stackOf 0 ≠ 15 ∧ stackOf 0xF_0000_0000 = 15 ∧
     ¬ (hbmEnd ≤ 0xF_0000_0000 ∨ h.rowCopy.isSome = true ∨ h.migrating.isSome = true ∨ h.pcs.any (fun x => x.1 == pcOf 0xF_0000_0000) = true) ∧
     pcRows h (rowPc (rowKey 0xF_0000_0000)) < 4 ∧ h.spares.countP (fun k => k / 24576 == rowKey 0xF_0000_0000 / 24576) < 4) := by decide +kernel

theorem wit_MemoryMaintenanceTakesEffect_scrub :
    injected (ctl15 true { MemCtl.reset with scrubPos := 1 }) (scrubAddr true 15 1) .clean = (ctl15 true { MemCtl.reset with scrubPos := 1 }, .clean) :=
  rfl

theorem wit_LedgerCommandsTakeEffect :
    (let s := { unlocked ledgerPage with ledger := { Ledger.reset with waiting := [(1, 2 ^ 48 - 1)] } }
     s.safe = true ∧ s.ledger.waiting.any (fun x => x.2 == 2 ^ 48 - 1) = true ∧ 2 ^ 48 - 1 ∉ s.ledger.toExport ∧
     ¬ (s.ledger.waiting.any (fun x => x.2 == 0) = true) ∧ (getFlags s ledgerPage).unlocked = true ∧ (1 : W32).getLsbD 0 = true ∧
     anyLaunch s = false) ∧
    (let s := { unlocked ledgerPage with ctxs := (ctxIs 0 { Context.empty with state := .stopping }).ctxs }
     s.safe = true ∧ anyLaunch s = true ∧ (getFlags s ledgerPage).unlocked = true ∧ ctxRuns (getCtx s (ledCtx s)) = true) ∧
    ctxRuns (getCtx R (ledCtx R)) = false ∧ ringOk (0x1000 / 4096 * 4096) (ledSlots R) = true ∧
    ringOk (getReg (reg ledgerPage Reg.ledBase lpBase) ledgerPage Reg.ledBase) (65535 % 65536) = true := by decide +kernel

/-- Reset with the site count as given. -/
def scIs (f : SiteCount) : State := { R with sc := f, nearSessions := [{ near1 255 with port := 9 }] }

theorem wit_SiteCountIsMeasuredAndSet :
    (∀ n ∈ [0, 1, 2, 3, 4], let s := scIs { R.sc with src := n, sync := .acquiring, streak := 15, near := 7 }
     s.safe = true ∧ s.sc.src = n ∧ s.sc.sync = .acquiring ∧ (nearSess s 255).map (fun x => (x.up, x.port)) = some (true, 2 + s.sc.near)) ∧
    (getReg R scPage Reg.scStepLimit : Int).natAbs ≤ getReg R scPage Reg.scStepLimit ∧
    ¬ ((getReg R scPage Reg.scStepLimit : Int) + 1).natAbs ≤ getReg R scPage Reg.scStepLimit ∧
    (let s := setReg (scIs { R.sc with src := 2 }) (portPage 1) Reg.portPtp 0x2FF
     s.safe = true ∧ (getReg s (portPage 1) Reg.portPtp).testBit 9 = true ∧ getReg s (portPage 1) Reg.portPtp % 256 = (255 : BitVec 8).toNat) ∧
    (scIs { R.sc with src := 1, sync := .locked }).sc.sync = .locked ∧ (scIs { R.sc with sync := .holdover }).sc.sync = .holdover ∧
    R.sc.sync ≠ .holdover ∧ (unlocked scPage).safe = true ∧ (getFlags (unlocked scPage) scPage).unlocked = true ∧
    (getFlags R scPage).unlocked = false := by decide +kernel

/-- An image for hamper 47 with its entry section at 0x1000. -/
def im1 : Image :=
  { handle := 5, mask := 2 ^ 47, pantryUse := 4, entrySec := 0, entries := List.replicate 48 0x1000, placed := [⟨1, 47, 0x1000, 512, 0⟩], symbols := 0
    patched := false, hash := [], patchHash := [], vslots := [], uslots := [], grants := [7], pinit := [], relocs := [] }

/-- A staged image at 0: one code section of 384 bytes, fixed at 0x10000. -/
def staged : List (Nat × Byte) :=
  let m := memWrite [] 0 (bytesLE 4 0x4F560716 ++ bytesLE 4 1 ++ bytesLE 4 0x10716 ++ bytesLE 4 1 ++ bytesLE 8 0x1E0)
  let m := memWrite m 0x1D [0x80]
  memWrite m 0x40 ([1, 2, 0x3F, 6] ++ bytesLE 4 0 ++ bytesLE 8 0x60 ++ bytesLE 8 0x180 ++ bytesLE 8 0x10000)

/-- Whether a plan passed. -/
def planned {α β : Type} : Except α β → Bool
  | .ok _ => true
  | .error _ => false

/-- A relocation record of the first symbol. -/
def rel1 : RelocRec := { target := 1, kind := 2, symbol := some 0, section_ := 0, off := 0, orig := 0, addr := 0x1100 }

/-- Reset with a loader command and the context of im1 in a state. -/
def loading (c : LoadCmd) (st : CtxState) (im : Image) (m : List (Nat × Byte)) : State :=
  { ctxIs 15 { Context.empty with state := st, image := some im } with loader := { R.loader with cmd := some c, state := 1 }, mem := m }

theorem wit_LoaderCommandsTakeEffect :
    (R.loader.cmd = none ∧ (∀ j : Fin 3, ∀ i : Fin 3, (2 ^ i.val).testBit j = decide (j.val = i.val)) ∧ (3 : Nat).testBit 0 = true ∧ (3 : Nat).testBit 1 = true) ∧
    (let s := loading (.load 15 0 64) .loaded im1 []
     s.safe = true ∧ s.loader.cmd ≠ none ∧ s.loader.cmd = some (.load 15 0 64) ∧ (getCtx s 15).image.isSome = true) ∧
    (let s := { R with loader := { R.loader with cmd := some (.load 15 0 480) }, mem := staged }
     s.safe = true ∧ (getCtx s 15).image = none ∧ ¬ (32 % 64 = 0 ∧ deviceRangeOk 32 480 = true) ∧ planned (planLoad s 15 0 63) = false ∧
     planned (planLoad s 15 0 480) = true) ∧
    (∀ st ∈ [CtxState.loaded, .running], let s := loading (.unload 5) st im1 []
     s.safe = true ∧ s.loader.cmd = some (.unload 5) ∧ (holderOf s 6).isNone = true ∧ holderOf s 5 = some (15, im1) ∧
     launchRuns (getCtx s 15) = decide (st = .running)) ∧
    (∀ v ∈ [(0 : Nat), 2 ^ 32 - 1, 2 ^ 32], let s := loading (.patch 5 0) .loaded { im1 with relocs := [rel1], symbols := 1 } (memWrite [] 0 (bytesLE 8 v))
     s.safe = true ∧ s.loader.cmd = some (.patch 5 0) ∧ relocField rel1.kind rel1.orig (memNat s.mem 0 8) = (if v = 2 ^ 32 then none else some v) ∧
     rel1.target ≠ im1.entrySec ∧ (∀ l ∈ maskList im1.mask, im1.entries.getD l 0 % 8 = 0)) := by decide +kernel

/-- Reset with im1 in context 15, in a state. -/
def held1 (st : CtxState) (l : Option Launch) (im : Image) : State := ctxIs 15 { Context.empty with state := st, image := some im, launch := l }

theorem wit_LaunchesAreHeldStartedAndDone :
    (∀ st ∈ [CtxState.loaded, .preempted, .held], let s := held1 st (if st = .held then some launch1 else none) im1
     s.safe = true ∧ (∀ k : Fin 16, (getCtx s k).image.any (fun im => im.handle == 5) = true ↔ k = 15) ∧
     (∀ k : Fin 16, ¬ (getCtx s k).image.any (fun im => im.handle == 6) = true) ∧
     (getCtx s 15).image.all (fun im => im.symbols == 0 || im.patched) = true ∧ (getCtx s 15).state = st ∧ hampersFree s 15 = true ∧
     s.power.phase = .running ∧ s.flt.replace = false ∧ talliesOf s 15 = [] ∧ slotsOf s 15 = [] ∧ s.sc.count < 1 ∧
     (getCtx s 15).launch = (if st = .held then some launch1 else none)) ∧
    (let s := held1 .loaded none { im1 with symbols := 1 }
     s.safe = true ∧ ¬ (getCtx s 15).image.all (fun im => im.symbols == 0 || im.patched) = true) ∧
    (let s := { held1 .loaded none im1 with sc := { R.sc with src := 1, sync := .unlocked } }
     s.safe = true ∧ ¬ ((1 : Word) = 0 ∨ s.sc.src = 0 ∨ (s.sc.sync ≠ .acquiring ∧ s.sc.sync ≠ .unlocked))) ∧
    (let s := { held1 .loaded none im1 with flt := { R.flt with replace := true } }
     s.safe = true ∧ s.flt.replace = true) ∧
    (let s := setH (held1 .running (some launch1) im1) 47 { Hamper.idle with core := { coreIs 0 0 with ctx := 15, ended := true } }
     s.safe = true ∧ ctxRuns (getCtx s 15) = true ∧ hampersOf s 15 = [47] ∧ (∀ k ∈ hampersOf s 15, (getH s k).core.ended = true) ∧
     contextQuiet s 15 = true ∧ s.flt.draining = false) ∧
    (let s := setH (held1 .running (some launch1) im1) 47 { Hamper.idle with core := { coreIs 0 0 with ctx := 15 } }
     s.safe = true ∧ 47 ∈ hampersOf s 15 ∧ (getH s 47).core.ended = false) := by decide +kernel

/-- Reset with context 15 as given and hamper 47 in it. -/
def ctx15 (x : Context) (c : Core) : State := setH (ctxIs 15 x) 47 { Hamper.idle with core := { c with ctx := 15 } }

/-- A context with im1 and an image area of 1 GiB in LPDDR5X. -/
def area (st : CtxState) : Context :=
  { Context.empty with state := st, image := some im1, launch := some launch1, imageAddr := lpBase, imageSize := 2 ^ 30 }

/-- A context image in memory: its header of 256 bytes alone, and its contents beside it. -/
def saved1 (m : List (Nat × Byte)) : SavedImage :=
  { addr := lpBase, mode := 1, restartDue := false, stopBeat := 0, p := 0, launch := some launch1, hash := [], patchHash := [], seed := 9, ucStep := 0
    mask := 2 ^ 47, hampers := [{ lh := 47, h := Hamper.idle, pantry := [(0, 1)] }], tallies := [], slots := [], reqs := [], len := 0x100
    check := sha256 (memRead m lpBase 0xE0) }

/-- The header of that image. -/
def header1 : List (Nat × Byte) := memWrite (memWrite [] lpBase (bytesLE 4 0xC7E00716 ++ bytesLE 4 1)) (lpBase + 0x10) (bytesLE 8 0x100)

/-- Context 15 with that image at its address, its CHECK as given. -/
def preempted (m : List (Nat × Byte)) (check : List Byte) : State :=
  { ctxIs 15 (area .preempted) with mem := memWrite m (lpBase + 0xE0) check, images := [saved1 m] }

theorem wit_ContextsStopRestoreAndReset_preempt :
    (2 : BitVec 2) ≠ 3 ∧
    (∀ st ∈ [CtxState.held, .running, .loaded], let s := ctx15 (area st) (coreIs 0 0)
     s.safe = true ∧ (getCtx s 15).state = st ∧ (getCtx s 15).image.all (fun im => imageAreaOk (getCtx s 15) (largestImage im)) = true) ∧
    (let s := ctx15 { area .running with imageSize := 0 } (coreIs 0 0)
     s.safe = true ∧ ¬ (getCtx s 15).image.all (fun im => imageAreaOk (getCtx s 15) (largestImage im)) = true) ∧
    (let s := ctx15 { area .stopping with mode := 2 } (coreIs 0 0)
     s.safe = true ∧ (getCtx s 15).stopAt = none ∧ s.flt.restart = none ∧ contextBeat s 15 = some 0 ∧ modeHolds s 15 0 2 = true) ∧
    (let s := ctx15 (area .stopping) { coreIs 0 0 with interlocked := true }
     s.safe = true ∧ modeHolds s 15 ((contextBeat s 15).getD 0) 0 = false) ∧
    (let s := ctx15 { area .stopping with stopAt := some 0 } (coreIs 0 0)
     s.safe = true ∧ (getCtx s 15).stopAt = some 0 ∧ (getCtx s 15).image = some im1 ∧ contextQuiet s 15 = true) ∧
    (let s := ctx15 { area .stopping with stopAt := some 0 } { coreIs 0 0 with starts := [{ b0 := 1, op := .vcall 0, tag := tag0 }] }
     s.safe = true ∧ contextQuiet s 15 = false) := by decide +kernel

theorem wit_ContextsStopRestoreAndReset_restore :
    (let s := preempted [] []
     s.safe = true ∧ (getCtx s 15).state = .preempted ∧ headerOk s lpBase = false ∧ planned (restoreCheck s 15) = false) ∧
    (let s := preempted header1 []
     s.safe = true ∧ headerOk s lpBase = true ∧
     imageCheck s lpBase (headerField s lpBase 0x10 8) ≠ memRead s.mem (lpBase + 0xE0) 32) ∧
    (let s := preempted header1 (saved1 header1).check
     s.safe = true ∧ planned (restoreCheck s 15) = true) ∧
    (∀ b ∈ [false, true], let i := { saved1 [] with restartDue := b }
     let s := ctxIs 15 { area .restoring with saved := some i }
     s.safe = true ∧ (getCtx s 15).state = .restoring ∧ (getCtx s 15).saved = some i ∧ i.hampers.Pairwise (fun y z => y.lh ≠ z.lh) ∧
     s.flt.restart = none ∧ i.restartDue = b ∧ (∀ y ∈ i.hampers, ∀ z ∈ y.pantry, z.1 < ((getCtx s 15).image.map (·.pantryUse)).getD 0)) := by
  decide +kernel

theorem wit_ContextsStopRestoreAndReset_reset :
    (∀ st ∈ [CtxState.empty, .resetting, .running, .stopping], (ctx15 (area st) (coreIs 0 0)).safe = true ∧
      (getCtx (ctx15 (area st) (coreIs 0 0)) 15).state = st) ∧
    (let s := ctx15 (area .running) (coreIs 0 0)
     dieReady s 3 = false ∧ ∀ l : Fin 48, (l ∈ dieHampers 3 ∧ hamperAcked (getH s l) s.dies[(3 : Fin 4)] = false) →
       (getH s l).core.launched = true ∧ (getCtx s (getH s l).core.ctx).state ≠ .empty ∧ (getCtx s (getH s l).core.ctx).state ≠ .resetting) ∧
    dieReady R 3 = true := by decide +kernel

/-- Reset in the replay domain of module 255, with a near session to it, and context 15 running on hamper 47 with a replay point. -/
def domained (u : Uc) (f : FaultState) : State :=
  let p : ReplayPoint := { step := some u.step, pc := 0x1008, sregs := Vector.replicate 32 5, drains := Vector.replicate 3 .zero, vsum := .zero, beat := 3
                           gstep := 1, ns := 0 }
  { setReg (ctx15 (area .running) { coreIs 0 0 with points := [p] }) faultPage (Reg.fltDomain + 24) (2 ^ 63) with
    uc := u, flt := f, nearSessions := [near1 255] }

theorem wit_FaultCommandsTakeEffect_restart :
    (let s := domained .reset { R.flt with restart := some { ctx := 15, goal := 2, fromNs := 0 } }
     s.safe = true ∧ s.flt.restart = some { ctx := 15, goal := 2, fromNs := 0 } ∧ contextQuiet s 15 = true ∧ s.flt.held = [] ∧
     (hampersOf s 15).all (fun k => (replayPoint s (getH s k).core).isSome) = true ∧ talliesOf s 15 = [] ∧ slotsOf s 15 = [] ∧
     s.events.length < 4096 ∧ (getReg s faultPage Reg.pageEventMask).testBit (maskBit evStepReplay) = false) ∧
    R.flt.restart = none ∧ nearUp R 255 = false ∧
    (∀ st ∈ [SealState.open_, .refused, .sealed], let s := domained { Uc.reset with sealSt := st, step := 4 } R.flt
     s.safe = true ∧ nearUp s 255 = true ∧ 255 ∈ domainOthers s ∧ s.uc.sealSt = st ∧ s.uc.step = 4 ∧ s.flt.attempt ≤ 1 ∧ 0 < s.flt.attempt) ∧
    (5 : BitVec 48).toNat = (4 : BitVec 48).toNat + 1 ∧ (3 : BitVec 48).toNat < (4 : BitVec 48).toNat ∧
    (let s := domained .reset R.flt
     ctxRuns (getCtx s 15) = true ∧ (getCtx s 15).stopAt = none ∧ s.flt.replace = false ∧
     s.flt.refusals + 1 < Nat.max 1 (getReg s faultPage Reg.fltReplayLimit % 256)) := by decide +kernel

theorem wit_FaultCommandsTakeEffect_faults :
    (let s := domained .reset { R.flt with draining := true }
     s.safe = true ∧ s.flt.draining = true ∧ s.uc.sweepState ≠ .running ∧ (∀ d ∈ runningCtxs s, contextQuiet s d = true)) ∧
    (R.flt.draining = false ∧ rising R.flt.lagSeen = true ∧ rising R.flt.lagHist = true ∧ coreDomain 0x200F = some 3 ∧ R.power.throttled = false) ∧
    (let s := { R with flt := { R.flt with lag := [(47, lagWindow)] } }
     s.safe = true ∧ lagInterval * 5 < (sparseGet 0 s.flt.lag 47 - sparseGet 0 s.flt.lagSeen 47) * 100 ∧
     lagWindow * 15 < ((sparseGet 0 s.flt.lag 47 :: sparseGet [] s.flt.lagHist 47).take 10).sum * 100 ∧ 47 ∉ s.flt.lagSuspect) ∧
    ((0 : Word).getLsbD 48 = false ∧ (0x1000000000000 : Word).getLsbD 48 = true) ∧
    ((getFlags R faultPage).unlocked = false ∧ (unlocked faultPage).safe = true ∧ (getFlags (unlocked faultPage) faultPage).unlocked = true) ∧
    ((getFlags R mgmtPage).unlocked = false ∧ (unlocked mgmtPage).safe = true ∧ (getFlags (unlocked mgmtPage) mgmtPage).unlocked = true ∧
     anyLaunch (unlocked mgmtPage) = false ∧ (unlocked mgmtPage).flt.replace = false) ∧
    (let s := setFlags (held1 .running (some launch1) im1) mgmtPage { PageFlags.reset with unlocked := true }
     s.safe = true ∧ anyLaunch s = true) := by decide +kernel

theorem wit_FaultCommandsTakeEffect_clear :
    (∃ v, v = Config.clearCode R.part.serial) ∧ ∃ v, v ≠ Config.clearCode R.part.serial :=
  ⟨⟨_, rfl⟩, Config.clearCode R.part.serial + 1, by simp⟩

/-- A request of a class from a source. -/
def ask (c : Fin 10) (k : Nat) : ArbReq := { cls := c, src := k, pc := 0 }

/-- Reset with arbiter 57 as given. -/
def arb57 (x : Arb) : State := { R with arbs := R.arbs.set 57 x }

theorem wit_ArbitersGrantCutOffAndTakeSettings_grants :
    (let s := arb57 { Arb.reset with served := 255, granted := List.replicate 10 7 }
     let x := endUnit (getArb s 57)
     let rs := [ask 1 3, ask 2 0]
     s.safe = true ∧ x.served < x.window ∧ x.masked.getD 1 false = false ∧ x.owner = none ∧ (x.cls 1).high = true ∧
     x.granted.getD 1 0 < (x.cls 1).quota ∧ (∀ d : Fin 10, rs.any (fun r => r.cls.val == d) = true → 1 ≤ d.val) ∧ x.lastSrc.getD 1 none = none ∧
     (∀ r ∈ rs, r.cls.val = 1 → 3 ≤ r.src)) ∧
    (let s := arb57 { Arb.reset with served := 0, lastSrc := List.replicate 10 (some 5) }
     let x := endUnit (getArb s 57)
     let rs := [ask 3 2, ask 3 4]
     s.safe = true ∧ x.served < x.window ∧ x.masked.getD 3 false = false ∧ (x.cls 3).high = false ∧ 0 < x.weight 3 ∧
     (∀ d : Fin 10, rs.any (fun r => r.cls.val == d) = true → d = 3) ∧ (∀ r ∈ rs, r.src ≤ 5 ∧ 2 ≤ r.src)) ∧
    (let s := arb57 { Arb.reset with served := 0 }
     let x := endUnit (getArb s 57)
     let rs := [ask 9 1]
     s.safe = true ∧ x.served < x.window ∧ (x.cls 9).high = false ∧ ¬ 0 < x.weight 9 ∧ x.lastSrc.getD 9 none = none ∧
     (∀ d : Fin 10, rs.any (fun r => r.cls.val == d) = true → d = 9)) ∧
    (let s := arb57 { Arb.reset with served := 0, owner := some (3, 6), inUnit := true }
     let x := endUnit (getArb s 57)
     s.safe = true ∧ x.served < x.window ∧ x.owner = some (3, 6) ∧ (x.cls 3).high = false ∧ 0 < x.weight 3 ∧
     (∀ d : Fin 10, [ask 3 6].any (fun r => r.cls.val == d) = true ↔ d = 3)) ∧
    (endUnit (getArb R 57)).window ≤ (endUnit (getArb R 57)).served := by decide +kernel

theorem wit_ArbitersGrantCutOffAndTakeSettings_settings :
    (getArb R 57).inUnit = false ∧
    (∀ c ∈ [none, some (9, 255)], let s := arb57 { Arb.reset with owner := some (9, 255), inUnit := true, cut := c }
     s.safe = true ∧ (getArb s 57).inUnit = true ∧ (getArb s 57).owner = some (9, 255) ∧ (getArb s 57).cut = c) ∧
    ((arbsOf 0x11).isEmpty = false ∧ arbConfigReg (Reg.arbPrio + 36) = true ∧ (Reg.arbPrio + 36) % 4 = 0 ∧ ¬ Reg.arbPrio + 36 < Reg.arbPrio ∧
     (getFlags R 0x11).unlocked = false ∧ arbConfigReg Reg.arbWindow = true ∧ Reg.arbWindow % 4 = 0 ∧ Reg.arbWindow < Reg.arbPrio) ∧
    (∀ v ∈ [(1023 : Nat), 64], let u := setReg R 0x11 Reg.arbWindow (arbConfigVal Reg.arbWindow v)
     arbValid (windowOf (getReg u 0x11 Reg.arbWindow)) (catchupOf (getReg u 0x11 Reg.arbWindow)) ((List.range 10).map (arbClassOf u 0x11)) =
       decide (v = 1023)) ∧
    ((arbsOf 0x12).isEmpty = true ∧ arbConfigReg 0x40 = false) := by decide +kernel

/-- Reset with a port as given. -/
def portIs (p : Nat) (x : Port) : State := setPort R p x

/-- A split port with both links up. -/
def upPort : Port := { link := #v[.up, .up], split := true, retired := [], fallback := none, echoes := [], downSince := none }

/-- A frame of a protocol. -/
def frame1 (k : FrameKind) (good : Bool) (h : List Byte) : RxFrame :=
  { len := 64, fcsGood := good, destOwn := true, broadcast := false, pause := false, vlan := none, ipPlain := true, kind := k, udpPort := 0x4F56
    udpGood := true, header := h, payload := [], residueGood := true }

/-- The header of a message with no payload: mode, kind, session and SEQ below 256, and its check. -/
def head1 (mode kind session seq check : Byte) : List Byte :=
  [0x10 + 4 * mode, kind, 0, 0, 0, 0, 0, 0, 0, 0, 0, session, 0, 0, 0, seq] ++ List.replicate 19 0 ++ [check] ++ List.replicate 4 0

/-- Port 9 split and up with its UDP port set, a host session and a near session on it. -/
def receiving (x : NearSession) : State :=
  { portIs 9 upPort with hostSessions := [{ host1 with port := 9, half := 1 }], nearSessions := [x]
                         regs := (setReg R mgmtPage Reg.vyvUdpPort 0x4F56).regs }

theorem wit_PortsTrainRetireAndReceive_lanes :
    (let s := portIs 9 { upPort with split := false, retired := [0], fallback := some 1 }
     s.safe = true ∧ (getPort s 9).retired.contains 0 = true ∧ (getPort s 9).fallback = some (1 - 3 / 4)) ∧
    ((portIs 9 upPort).safe = true ∧ ¬ ((getPort (portIs 9 upPort) 9).retired.contains 7 = true) ∧ (getPort (portIs 9 upPort) 9).split = true ∧
     inWindowCount (portIs 9 upPort) (unitLane 9 7) 600 + 1 < 9) ∧
    (let s := { portIs 9 upPort with flt := { R.flt with events := List.replicate 8 (unitLane 9 7, 0) } }
     s.safe = true ∧ 9 ≤ inWindowCount s (unitLane 9 7) 600 + 1) ∧
    ((unlocked (portPage 9)).safe = true ∧ (getFlags (unlocked (portPage 9)) (portPage 9)).unlocked = true ∧ (getFlags R (portPage 9)).unlocked = false ∧
     (0x107 : W32).getLsbD 8 = true ∧ (getPort R 9).retired.contains (0x107 % 8) = false) ∧
    (let s := setReg (unlocked (portPage 9)) (portPage 9) Reg.portLoopback 1
     s.safe = true ∧ (getReg s (portPage 9) Reg.portLoopback).testBit 0 = true ∧ outOfService (getPort s 9) 0 = false) ∧
    (let s := { portIs 9 { upPort with link := #v[.training, .down], downSince := some (0, false) } with clockNs := 1 }
     s.safe = true ∧ linkTrains s 9 0 = true ∧ (getPort s 9).downSince = some (0, false) ∧ 0 < s.clockNs) ∧
    linkTrains (portIs 9 upPort) 9 0 = false ∧
    (let s := { receiving (near1 255) with ctxs := (ctxIs 0 { Context.empty with state := .running }).ctxs }
     s.safe = true ∧ portInLaunch s 9 = true) ∧
    portInLaunch R 9 = false ∧ getReg R (portPage 9) Reg.portCfg ≠ (getReg R (portPage 9) Reg.portCfg + 1) % 4 := by decide +kernel

theorem wit_PortsTrainRetireAndReceive_frames :
    (let s := portIs 9 upPort
     s.safe = true ∧ portUp s 9 1 = true ∧ portUp R 9 1 = false ∧ (getPort s 9).echoes.countP (fun e => e.2 == clockSec s && e.1 == 1) < 100) ∧
    (let s := portIs 9 { upPort with echoes := List.replicate 100 (1, 0) }
     s.safe = true ∧ 100 ≤ (getPort s 9).echoes.countP (fun e => e.2 == clockSec s && e.1 == 1)) ∧
    (∀ v4 ∈ [false, true], let s := setReg (portIs 9 { upPort with split := false }) (portPage 9) Reg.portIpLo (if v4 then 0xFFFF_0A00_0001 else 1)
     s.safe = true ∧ portUp s 9 0 = true ∧ isV4 (portAddr s 9 0) = v4) ∧
    (let s := receiving { near1 255 with port := 9 }
     s.safe = true ∧ portUp s 9 1 = true ∧ frameOk s 9 1 (frame1 .echo true []) = true ∧ frameOk s 9 1 { frame1 .echo true [] with pause := true } = false ∧
     frameOk s 9 1 (frame1 .vyvex true []) = true ∧ headerGood [] 0 = false ∧ headerGood (head1 0 0x10 7 1 0) 0 = true ∧
     headerGood (head1 1 2 9 1 0) 0 = true ∧ crc32c [] = headField (head1 0 0x10 7 1 0) 0x20 4 ∧ crc32c [] ≠ headField (head1 0 0x10 7 1 1) 0x20 4 ∧
     (hostSess s (headField (head1 0 0x10 7 1 0) 8 4)).map (fun y => (y.rxNext, y.rxSeen)) = some (headField (head1 0 0x10 7 1 0) 0x0C 4, []) ∧
     (nearByNumber s 9 1 (headField (head1 1 2 9 1 0) 8 4)).map (·.rxNext) = some (headField (head1 1 2 9 1 0) 0x0C 4) ∧
     headField (head1 1 2 9 3 0) 0x0C 4 ≠ 1) := by decide +kernel

/-- Reset with ports 0 and 9 up, a route for host address 1, module 5 of the site and module 3 its peer on port 9. -/
def sited (hs : List HostSession) (ns : List NearSession) : State :=
  let s := setPort (setPort R 0 { upPort with split := false }) 9 upPort
  let s := setReg (setReg s mgmtPage Reg.vyvHostAllowCfg (0x100 + 128)) mgmtPage Reg.vyvHostAllowLo 1
  let s := setReg (setReg s mgmtPage Reg.vyvSelf 0x105) (peerBank 3) Reg.vyvPeerPorts (0x100 + 2 ^ 7)
  { s with hostSessions := hs, nearSessions := ns }

/-- A session header. -/
def sess (port : Fin 10) (near : Option (Fin 256)) (session addr : Nat) (credit : BitVec 16) : SessHead :=
  { port := port, half := 0, near := near, ctx := 0, session := BitVec.ofNat 32 session, seq := 0xFFFFFFFF, ack := 0, credit := credit
    addr := BitVec.ofNat 128 addr }

theorem wit_SessionsOpenCloseAndAcknowledge_open :
    (let s := sited [] []
     s.safe = true ∧ portUp s 0 0 = true ∧ (getFlags s (portPage 0)).draining = false ∧ portUp R 0 0 = false ∧ hostAllowed s 1 = true ∧
     hostAllowed s 2 = false ∧ hostSess s 7 = none ∧ s.hostSessions.length < 8 ∧ s.hostHeld = []) ∧
    (let s := sited ((List.range 8).map (fun k => { host1 with session := k + 100 })) []
     s.safe = true ∧ hostSess s 7 = none ∧ 8 ≤ s.hostSessions.length) ∧
    (let s := sited [host1, { host1 with session := 8, addr := 2 }] []
     s.safe = true ∧ hostSess s 7 = some host1 ∧ host1.addr = 1 ∧ hostSess s 8 = some { host1 with session := 8, addr := 2 }) ∧
    (let s := sited [] []
     inSite s = true ∧ 3 < selfModule s ∧ peerValid s 3 = true ∧ (peerCfg s 3).testBit (9 - 2) = true ∧ portUp s 9 0 = true ∧ nearSess s 3 = none ∧
     (sess 9 (some 3) 9 0 0x7FFF).credit.toNat < 2 ^ 15 ∧ 1 ≤ (sess 9 (some 3) 9 0 1).credit.toNat) ∧
    inSite R = false ∧
    (∀ b ∈ [false, true], let s := sited [] [{ near1 3 with up := b }]
     s.safe = true ∧ nearSess s 3 = some { near1 3 with up := b }) := by decide +kernel

theorem wit_SessionsOpenCloseAndAcknowledge_ack :
    (let m : OutMsg := { kind := 0x12, fields := [], data := [] }
     ∀ k ∈ [0, 255], let x := { host1 with unacked := [{ seq := 5, msg := m, resends := k, timeout := 100 }] }
     let s := setReg { sited [x] [] with sink := none } mgmtPage Reg.vyvHostRetries 255
     s.safe = true ∧ hostSess s 7 = some x ∧ x.waiting = [] ∧ s.sink ≠ some 7 ∧
     x.unacked.find? (fun u => u.seq == 5) = some { seq := 5, msg := m, resends := k, timeout := 100 } ∧
     (k < Nat.max 1 (getReg s mgmtPage Reg.vyvHostRetries % 256) ↔ k = 0)) ∧
    (∀ n ∈ [100, 101], let x := { near1 3 with rxLimitSent := n }
     let s := sited [] [x]
     s.safe = true ∧ nearSess s 3 = some x ∧ x.up = true ∧ x.waiting = [] ∧ (x.rxLimit = x.rxLimitSent ↔ n = 100) ∧ selfModule s ≥ 3) ∧
    nearUp (sited [] []) 3 = false ∧ hostSess (sited [] []) 7 = none ∧
    (let s := { sited [] [{ near1 3 with users := [0] }] with
      tly := { TallyState.reset with slots := TallyState.reset.slots.set 63 { BarSlot.free with owner := some 0, modules := 8 } } }
     s.safe = true ∧ (getSlot s 63).owner.isSome = true ∧ (getSlot s 63).modules.testBit 3 = true ∧ s.uc.owner = none ∧ s.uc.sealSt = .open_ ∧
     s.events.length < 4096) := by decide +kernel

/-- Reset with session 7 due to take the message SEQ FFFFFFFF of it, its unacknowledged messages as given. -/
def msgs (us : List Unacked) : State :=
  { R with hostSessions := [{ host1 with appNext := 0xFFFFFFFF, rxNext := 0, unacked := us }] }

/-- The header of message SEQ FFFFFFFF of host session 7. -/
def hd : SessHead := sess 0 none 7 0 0

theorem wit_MessagesReadWriteAndMerge_due :
    (∀ k ∈ [0, 255], let us := List.replicate k { seq := 5, msg := { kind := 0x12, fields := [], data := [] }, resends := 0, timeout := 100 }
     let s := msgs us
     s.safe = true ∧ hd.near = none ∧ (hostSess s 7).map (fun x => (x.appNext, x.rxNext)) = some (hd.seq.toNat, 0) ∧
     seqBelow hd.seq.toNat 0 = true ∧ us.length < 256) ∧
    hostSess R 7 = none ∧ seqBelow hd.seq.toNat 1 = true ∧ seqBelow 1 1 = false ∧
    pagePresent (msgs []) ((pageBase + 0xA000 - pageBase) / 0x1000) = false ∧ pageBase + 0xA000 < pageBase + pageWindow ∧
    pageBase ≤ regAddr faultPage Reg.fltReplayLimit ∧
    (match accessAt (msgs []) (regAddr faultPage Reg.fltFlagClear) false with
     | .reg page off d => d.acc == .rwx && !(getFlags (msgs []) page).unlocked && off != Reg.pwrReset
     | _ => false) = true := by decide +kernel

theorem wit_MessagesReadWriteAndMerge_bulk :
    bulkRangeOk (msgs []) 0xFFFF_FFFF_FFFF_FFC0 64 = false ∧ bulkRangeOk (msgs []) 0 64 = true ∧ bulkRangeOk (msgs []) 0 8192 = true ∧
    poisoned (msgs []) 0 8192 = false ∧ (injectedWrite (msgs []) 0 8192).1 = false ∧ armedUnits (msgs []) armsRead 0 8192 = [] ∧ deviceRangeOk 0 64 = true ∧
    (let s := { msgs [] with tly := { TallyState.reset with table := [(4095, ⟨.local_, 0, 1023⟩)] } }
     s.safe = true ∧ (getEntry s hd.ctx 4095).kind = .local_ ∧ bulkRangeOk s 0 8192 = true) := by decide +kernel

theorem wit_MessagesReadWriteAndMerge_merge :
    (let s := domained Uc.reset { R.flt with attempt := 2 }
     let h : MsgHead := { sender := some 255, ctx := 15, step := 0, attempt := 1 }
     s.safe = true ∧ nearUp s 255 = true ∧ nearUp s 254 = false ∧ (ctxMask s 15).testBit 47 = true ∧ (ctxMask s 15).testBit 63 = false ∧
     255 ∈ domainOthers s ∧ h.step = s.uc.step ∧ h.attempt.toNat < s.flt.attempt ∧ ¬ (2 : BitVec 16).toNat < s.flt.attempt) := by decide +kernel

/-- A command record: operation, flags, step, tally field, round and peer. -/
def record (op flags step tally round peer : Nat) : List Byte :=
  bytesLE 1 op ++ bytesLE 1 flags ++ bytesLE 6 0 ++ bytesLE 8 step ++ bytesLE 4 tally ++ List.replicate 12 0 ++ bytesLE 4 round ++ bytesLE 1 peer ++
  List.replicate 27 0

/-- A descriptor of one FP32 segment of n elements, all of them sent. -/
def segment1 (n : Nat) : List Byte :=
  bytesLE 4 1 ++ List.replicate 60 0 ++ bytesLE 4 n ++ bytesLE 4 3 ++ bytesLE 8 0x10000 ++ bytesLE 8 0 ++ bytesLE 8 0x20000 ++ bytesLE 8 0x30000 ++
  bytesLE 8 0x40000

/-- Site 15 of the group of sites 14 and 15, from rounds 0 and 3, whose ring of one record holds b, with one unit of its command tally. -/
def ringed (m : Rmb) (b : List Byte) : State :=
  let regs := [(Reg.rmbCfg, 15 + 65536 * 15), (Reg.rmbMember + 4 * 15, 2 ^ 31 + 3), (Reg.rmbCmdBase, 0x1000), (Reg.rmbCmdCfg, 65536 + 4095),
    (Reg.rmbDesc, 0x2000), (Reg.rmbOutbox, 0x100000), (Reg.rmbOutboxSize, 0x1000)]
  let s := regs.foldl (fun s x => setReg s leadPage x.1 x.2) (ctxIs 15 (area .running))
  { s with rmb := m, mem := memWrite (memWrite [] 0x2000 (segment1 1)) 0x1000 b
           tly := { TallyState.reset with table := [(15 * 4096 + 4095, ⟨.local_, 0, 1023⟩)], tallies := [(1023, { Tally.free with count := 1 })] } }

/-- Site 14 in the group as well, from round 0. -/
def two (s : State) : State := setReg s leadPage (Reg.rmbMember + 4 * 14) (2 ^ 31)

/-- The command of the record in a state's ring. -/
def cmd1 (s : State) : RmbCmd := cmdOf (cmdAddr s) (rmbCtx s) (cmdBytes s (cmdAddr s))

/-- RecordWaits, as a Bool, for the record in the ring. -/
def waiting (s : State) : Bool :=
  s.safe && s.rmb.cmd.isNone && rmbSlots s != 0 && !pageOff s (ramblerPage 0) && !pageOff s (ramblerPage 1) && commandTally s == some 1023 &&
  cmdOk (cmdBytes s (cmdAddr s))

theorem wit_RamblerCommandsRunAndReport_taken :
    (∀ f ∈ [0, 2], let s := ringed Rmb.reset (record 1 f 0 0 0 0)
     s.safe = true ∧ s.rmb.cmd = none ∧ rmbSlots s ≠ 0 ∧ pageOff s (ramblerPage 0) = false ∧ pageOff s (ramblerPage 1) = false ∧
     commandTally s = some 1023 ∧ cmdOk (cmdBytes s (cmdAddr s)) = decide (f = 0)) ∧
    (∀ st ∈ [0, 1], let s := ringed Rmb.reset (record 1 0 st 0x8FFF 0 0)
     waiting s = true ∧ ((cmd1 s).step = s.uc.step.toNat ↔ st = 0)) ∧
    (∀ op ∈ [1, 2, 3], let q := { cmd1 (ringed Rmb.reset (record op 0 0 0 0 0)) with addr := 0x1040 }
     let s := ringed { Rmb.reset with paused := some q } (record op 1 0 0 0 0)
     waiting s = true ∧ fieldN (cmdBytes s (cmdAddr s)) 1 1 % 2 = 1 ∧ s.rmb.paused = some q ∧ q.op = (cmd1 s).op ∧ q.step = (cmd1 s).step) ∧
    (R.rmb.cmd = none ∧ rmbSlots R = 0 ∧ commandTally R = none) := by decide +kernel

theorem wit_RamblerCommandsRunAndReport_compose :
    (let s := ringed { Rmb.reset with latest := some (3, some 0) } (record 1 0 0 0 0 0)
     waiting s = true ∧ fieldN (cmdBytes s (cmdAddr s)) 1 1 % 2 ≠ 1 ∧ (cmd1 s).op = 1 ∧ s.rmb.latest = some (3, some (cmd1 s).step)) ∧
    (let s := ringed Rmb.reset (record 255 0 0 0 0 0)
     waiting s = true ∧ (cmd1 s).op = 255 ∧ s.rmb.latest = none) ∧
    (∀ n ∈ [0, 0x1000], let s := setReg (ringed Rmb.reset (record 1 0 0 0 0 0)) leadPage Reg.rmbOutboxSize n
     let gs := xSegs s (rmbDesc s)
     let body := (gs.zipIdx).flatMap (fun x => segBody x.1 x.2 (nextRound s % 2 ^ 32) (selfSite s) 0 1 (composeSeg s x.1).sent)
     waiting s = true ∧ composeLater s 0 = true ∧ xDescOk s (rmbDesc s) = true ∧ memberValid s (selfSite s) = true ∧
     outboxPlace (pruneOutbox s) body.length = (if n = 0 then none else some 0x100000) ∧ deviceRangeOk 0x100000 body.length = true ∧
     getReg s (ramblerPage 0) Reg.rmbInject = 0 ∧ getReg s (ramblerPage 1) Reg.rmbInject = 0) ∧
    (∀ m ∈ R.hbm.toList ++ R.lpc.toList, m.poison = []) := by decide +kernel

/-- A body of round 3 composed at step 0. -/
def composed3 : Composed := { round := 3, step := 0, steps := 1, off := 0x100000, len := 256, hash := [], nonfin := 0, sat := 0 }

theorem wit_RamblerCommandsRunAndReport_apply :
    (let s := ringed { Rmb.reset with lastApply := some (0, 255) } (record 2 0 0 0 0 0)
     waiting s = true ∧ (cmd1 s).op = 2 ∧ s.rmb.lastApply = some ((cmd1 s).step, 255)) ∧
    (∀ d ∈ [0x2000, 0x2001], let s := setReg (ringed { Rmb.reset with lastApply := some (1, 0) } (record 2 0 0 0 0 0)) leadPage Reg.rmbDesc d
     waiting s = true ∧ xDescOk s (rmbDesc s) = decide (d = 0x2000) ∧ rmbReplay s = false ∧ (cmd1 s).step = 0) ∧
    (∀ r ∈ [3, 4], let s := ringed { Rmb.reset with conflicts := [r] } (record 2 0 0 0 0 0)
     waiting s = true ∧ (oldestRound s < r ↔ r = 4)) ∧
    (let s := ringed Rmb.reset (record 2 0 0 0 0 0)
     waiting s = true ∧ s.rmb.conflicts = [] ∧ (completeFrom s (roundBound s) (oldestRound s)).isEmpty = true) ∧
    (let s := ringed { Rmb.reset with composed := [composed3], latest := some (3, some 0) } (record 2 0 0 0 0 0)
     waiting s = true ∧ (completeFrom s (roundBound s) (oldestRound s)).isEmpty = false) := by decide +kernel

/-- A snapshot of round 0 with one range of 64 bytes of zeros at 0x50000, for a context of image hash zero, after its round. -/
def snap0 (magic : Nat) : List Byte :=
  bytesLE 8 0 ++ bytesLE 4 magic ++ List.replicate 92 0 ++ bytesLE 4 1 ++ List.replicate 28 0 ++ bytesLE 8 0x50000 ++ bytesLE 8 64 ++
  sha256 (List.replicate 64 0) ++ List.replicate 64 0

theorem wit_RamblerCommandsRunAndReport_join :
    (∀ r ∈ [3, 2], let s := two (ringed Rmb.reset (record 3 0 0 0 r 14))
     waiting s = true ∧ (cmd1 s).op = 3 ∧ xDescOk s (rmbDesc s) = true ∧ (cmd1 s).peer < 16 ∧ memberValid s (cmd1 s).peer = true ∧
     (cmd1 s).peer ≠ selfSite s ∧ memberValid s (selfSite s) = true ∧ (fieldN (cmdBytes s (cmdAddr s)) 0x20 4 = firstRound s (selfSite s) ↔ r = 3)) ∧
    (let d := { cmd1 (ringed Rmb.reset (record 3 0 0 0 3 14)) with phase := 1 }
     ∀ g ∈ [0x5A9A0716, 0], let s := two (ringed { Rmb.reset with cmd := some d, snap := some (snap0 g) } [])
     s.safe = true ∧ s.rmb.cmd = some d ∧ d.op = 3 ∧ d.status = 0 ∧ s.rmb.snap = some (snap0 g) ∧
     snapOk s ((snap0 g).drop 8) (fieldN (snap0 g) 0 8) (firstRound s (selfSite s)) = decide (g = 0x5A9A0716)) ∧
    (let d := { cmd1 (ringed Rmb.reset (record 3 0 0 0 3 14)) with phase := 2 }
     let s := two (ringed { Rmb.reset with cmd := some d, applied := some 1, empties := [(2, 14)] } [])
     s.safe = true ∧ joinGone s = true ∧
     (let s := two (ringed { Rmb.reset with cmd := some d, applied := some 2 } [])
      s.safe = true ∧ firstRound s (selfSite s) ≤ oldestRound s ∧ joinGone s = false)) := by decide +kernel

theorem wit_RamblerCommandsRunAndReport_done :
    (∀ x ∈ [0, 1, 2, 3], let d := { cmd1 (ringed Rmb.reset (record (1 + x % 2) 0 0 (0x8000 + 4095) 0 0)) with
      status := x, done := (if x = 1 then some composed3 else none), round := some 3 }
     let s := ringed { Rmb.reset with cmd := some d } []
     s.safe = true ∧ s.rmb.cmd = some d ∧ (d.status = 0 ↔ x = 0) ∧ deviceRangeOk d.addr 64 = true ∧ d.tally = some 4095 ∧
     (getEntry s d.ctx 4095).kind = .local_) := by decide +kernel

/-- A peer whose session 9 is up over route 3 since time 0, with a key of epoch 5. -/
def far1 : FarPeer :=
  { FarPeer.none_ with session := some 9, keys := [{ epoch := 5, key := [1], wrapped := [2], high := 8192, seen := [8192] }], routes := [(3, 0)] }

/-- Site 15 of two, with peer 14 as given, its route 3 configured, and an exchange state. -/
def farIs (p : FarPeer) (m : Rmb) : State :=
  setReg (setReg (two (ringed { m with peers := m.peers.set 14 p } [])) (routeBank 0 14 3) Reg.rmbRouteCfg 4) leadPage Reg.rmbArchiveRounds 4

/-- A message of peer 14 on route 3. -/
def from14 (session epoch counter : Nat) (good : Bool) : FarHead :=
  { site := 14, route := 3, session := BitVec.ofNat 32 session, epoch := BitVec.ofNat 32 epoch, counter := BitVec.ofNat 32 counter, good := good }

/-- FarGood, as a Bool. -/
def farGood (s : State) (m : FarHead) : Bool :=
  (getPeer s m.site).session == some m.session.toNat && m.good && reachable s m.site &&
  (getPeer s m.site).keys.any (fun k => k.epoch == m.epoch.toNat && !k.seen.contains m.counter.toNat && decide (k.high ≤ m.counter.toNat + 4096))

/-- A shard of message 7 of site 14's round. -/
def shard1 (round k : Nat) (data : List Byte) : ShardMsg :=
  { stream := 0, index := 0, k := Fin.ofNat 33 k, origin := 14, round := round, msg := 7, off := 0, total := data.length, data := data, bodyGood := true }

/-- Message 7 sent to site 14, with parity shards sent. -/
def sent7 (parity : Nat) : FarMsg :=
  { site := 14, msg := 7, stream := 0, origin := 15, round := 3, off := 0, total := 64, l := 64, k := 1, data := List.replicate 64 0, parity := parity }

/-- Message 7 received from site 14, with a shard. -/
def received7 (decoded : Bool) (shards : List (Nat × List Byte)) : InMsg :=
  { site := 14, msg := 7, stream := 0, origin := 14, round := 3, off := 0, total := 128, k := 2, shards := shards, decoded := decoded }

theorem wit_FarMessagesAndTimersTakeEffect_accept :
    (let s := farIs far1 Rmb.reset
     s.safe = true ∧ (getPeer s 14).session ≠ some (from14 8 5 0 true).session.toNat ∧ (getPeer s 14).session = some (from14 9 6 0 true).session.toNat ∧
     (∀ k ∈ (getPeer s 14).keys, k.epoch < 6 ∧ k.epoch ≠ 4 ∧ 4 < k.epoch) ∧ (getPeer s 14).keys.isEmpty = false ∧
     (getPeer s 14).keys.find? (fun k => k.epoch == 5) = some { epoch := 5, key := [1], wrapped := [2], high := 8192, seen := [8192] } ∧
     8192 ∈ [8192] ∧ 4095 + 4096 < 8192 ∧ farGood s (from14 9 5 4096 true) = true ∧ farGood s (from14 9 5 4095 true) = false ∧
     farGood s (from14 9 5 8192 true) = false) := by decide +kernel

theorem wit_FarMessagesAndTimersTakeEffect_shards :
    (∀ r ∈ [6, 7], let s := farIs far1 Rmb.reset
     s.safe = true ∧ (shard1 r 2 [1]).k.val ≠ 0 ∧ (shard1 r 2 [1]).index.val < (shard1 r 2 [1]).k.val ∧ s.rmb.ins = [] ∧
     shardInWindow s (shard1 r 2 [1]) = decide (r = 6)) ∧
    (let s := farIs far1 { Rmb.reset with ins := [received7 true [(1, [1])]], key := some [3] }
     s.safe = true ∧ farGood s (from14 9 5 9000 true) = true ∧ s.rmb.ins.find? (fun y => y.site == 14 && y.msg == 7) = some (received7 true [(1, [1])]) ∧
     (received7 true []).k = (shard1 3 2 [1]).k.val ∧ s.rmb.key.isSome = true ∧ s.rmb.count < 2 ^ 28) ∧
    (let s := setReg (farIs far1 Rmb.reset) leadPage Reg.rmbArchiveSlot 0x1000
     let sh := shard1 3 1 (List.replicate 64 1)
     let whole := rsDecode 1 [(sh.index.val, sh.data)] |>.take (sh.total - sh.off)
     s.safe = true ∧ farGood s (from14 9 5 9000 true) = true ∧ sh.k.val = 1 ∧ shardInWindow s sh = true ∧ whole.length = sh.total ∧ s.rmb.bodies = [] ∧
     findArrived s 3 14 = none ∧ archiveTakes s 3 = true ∧ whole.length ≤ (archivePlace s 3 14).2 ∧
     deviceRangeOk (archivePlace s 3 14).1 whole.length = true) ∧
    (let b : Arrived := { round := 3, site := 14, addr := 0, len := 64, hash := [] }
     let s := farIs far1 { Rmb.reset with arrived := [b] }
     s.safe = true ∧ findArrived s 3 14 = some b ∧ b.hash ≠ sha256 (rsDecode 1 [(0, List.replicate 64 1)])) := by decide +kernel

theorem wit_FarMessagesAndTimersTakeEffect_sent :
    (∀ n ∈ [15, 16], let s := farIs far1 { Rmb.reset with out := [sent7 n] }
     s.safe = true ∧ outMsg s 14 7 = some (sent7 n) ∧ outMsg s 14 8 = none ∧ canSend s 14 = true ∧ (n < 16 ↔ n = 15)) ∧
    (let s := farIs { far1 with routes := [] } { Rmb.reset with out := [sent7 0] }
     s.safe = true ∧ canSend s 14 = false) ∧
    (∀ d ∈ [false, true], let s := farIs far1 { Rmb.reset with ins := [received7 d [(1, [1])]], key := some [3] }
     s.safe = true ∧ s.rmb.ins.find? (fun y => y.site == 14 && y.msg == 7) = some (received7 d [(1, [1])]) ∧ upRoutes s 14 ≠ [] ∧
     s.rmb.ins.find? (fun y => y.site == 14 && y.msg == 6) = none) ∧
    (let s := farIs far1 { Rmb.reset with key := some [3], count := 2 ^ 28 - 1 }
     s.safe = true ∧ sessionPeers s = [14] ∧ validRoutes s 14 = [3] ∧ s.rmb.key.isSome = true ∧ s.rmb.count < 2 ^ 28) ∧
    sessionPeers R = [] := by decide +kernel

theorem wit_FarMessagesAndTimersTakeEffect_answers :
    (let s := farIs far1 Rmb.reset
     s.safe = true ∧ BitVec.ofNat 32 (tableCrc s) ≠ 0 ∧ tableCrc s < 2 ^ 32 ∧ getReg s leadPage Reg.rmbSnapAddr = 0) ∧
    (let s := setReg (farIs far1 Rmb.reset) leadPage Reg.rmbSnapAddr 0x1000
     s.safe = true ∧ getReg s leadPage Reg.rmbSnapAddr ≠ 0 ∧ (servedSnapshot s).length ≤ 32 * shardLen s) ∧
    (let b : Arrived := { round := 3, site := 14, addr := 0, len := 2048, hash := [] }
     let s := farIs far1 { Rmb.reset with arrived := [b] }
     s.safe = true ∧ s.rmb.arrived.filter (fun x => x.round == 3) = [b] ∧ b.len ≤ 32 * shardLen s) ∧
    (∀ r ∈ [2, 3], let s := farIs far1 Rmb.reset
     s.safe = true ∧ s.rmb.arrived = [] ∧ (r < oldestRound s ↔ r = 2)) ∧
    (∀ n ∈ [2999999, 3000000], let s := { setReg (farIs far1 Rmb.reset) leadPage Reg.rmbTimers 1 with clockNs := n }
     s.safe = true ∧ (getPeer s 14).routes.find? (fun x => x.1 == 3) = some (3, 0) ∧
     (0 + 3 * Nat.max 1 (getReg s leadPage Reg.rmbTimers % 256) * 1000000 ≤ s.clockNs ↔ n = 3000000)) := by decide +kernel

/-- A handshake as the initiator or not. -/
def trans9 : FarTrans := { session := 9, hash := [], peerKey := [], initiator := false }

theorem wit_FarSessionsAndKeysTakeEffect_hellos :
    (∀ n ∈ [3, 4], let s := { farIs { far1 with hellos := (0, n) } Rmb.reset with sec := { Secure.reset with entropyOk := true } }
     s.safe = true ∧ s.sec.entropyOk = true ∧ ((getPeer s 14).hellos.1 = clockSec s ∧ 4 ≤ (getPeer s 14).hellos.2 ↔ n = 4)) ∧
    (let s := { R with sec := { Secure.reset with entropyOk := false } }
     s.safe = true ∧ s.sec.entropyOk = false ∧ (getPeer s 14).hello = none) ∧
    (let s := farIs { far1 with hello := some (9, [1]) } Rmb.reset
     s.safe = true ∧ (getPeer s 14).hello = some (9, [1])) ∧
    (let s := setReg (farIs { far1 with session := none } Rmb.reset) leadPage Reg.rmbCfg (13 + 65536 * 15)
     s.safe = true ∧ (farPeers s).filter (fun k => decide (selfSite s < k) && (getPeer s k).session.isNone) = [14, 15] ∧
     (let s := setReg s leadPage (Reg.rmbMember + 4 * 15) 0
      s.safe = true ∧ s.sec.entropyOk = true ∧ validRoutes s 14 ≠ [] ∧
      (farPeers s).filter (fun k => decide (selfSite s < k) && (getPeer s k).session.isNone) = [14])) ∧
    (farPeers R).isEmpty = true := by decide +kernel

theorem wit_FarSessionsAndKeysTakeEffect_keys :
    (let s := farIs { far1 with pending := some trans9 } Rmb.reset
     s.safe = true ∧ (getPeer s 14).pending = some trans9 ∧ trans9.session = 9 ∧ natOfBE ((List.replicate 772 (0 : Byte)).take 4) = 0) ∧
    (let s := farIs { far1 with trans := some trans9 } Rmb.reset
     s.safe = true ∧ (getPeer s 14).pending = none ∧ (getPeer s 14).session = some 9 ∧ (getPeer s 14).session ≠ some 8 ∧
     (∀ e ∈ [(5 : Nat), 6, 7], ((getPeer s 14).keys.find? (fun x => x.epoch == e)).isSome = decide (e = 5) ∧
       (e = (if (getPeer s 14).keys = [] then 0 else ((getPeer s 14).keys.map (·.epoch)).foldl Nat.max 0 + 1) ↔ e = 6)) ∧
     (getPeer s 14).trans = some trans9) ∧
    (let s := farIs far1 { Rmb.reset with key := some [1], epoch := 6, nextKey := some [2] }
     s.safe = true ∧ s.rmb.key.isSome = true ∧ s.rmb.nextKey.isSome = true ∧ s.rmb.epoch + 1 = 7 ∧ (getPeer s 14).session = some 9 ∧
     (from14 9 5 4096 true).good = true ∧ farGood s (from14 9 5 4096 true) = true) ∧
    (∀ x ∈ [(7, 8192), (7, 8193), (7, 4096), (6, 4096)],
     let s := farIs { far1 with ackSeen := [x] } { Rmb.reset with key := some [1], epoch := 6, nextKey := some [2] }
     s.safe = true ∧ (getPeer s 14).session = some 9 ∧
     (((7, 4096) ∈ (getPeer s 14).ackSeen ∨ ∃ y ∈ (getPeer s 14).ackSeen, y.1 = 7 ∧ 4096 + 4096 < y.2) ↔ x ∈ [(7, 8193), (7, 4096)])) ∧
    R.rmb.key.isSome = false := by decide +kernel

theorem wit_FarSessionsAndKeysTakeEffect_epochs :
    (∀ n ∈ [2 ^ 28 - 2 ^ 24 - 1, 2 ^ 28 - 2 ^ 24, 2 ^ 28], let s := farIs far1 { Rmb.reset with key := some [1], count := n }
     s.safe = true ∧ s.rmb.nextKey = none ∧ s.sec.entropyOk = true ∧ epochReached s (2 ^ 28 - 2 ^ 24) 3540 = decide (2 ^ 28 - 2 ^ 24 ≤ n) ∧
     epochReached s (2 ^ 28) 3600 = decide (n = 2 ^ 28)) ∧
    (∀ a ∈ [[], [6]], let s := farIs { far1 with trans := some trans9, acked := a } { Rmb.reset with key := some [1], epoch := 6 }
     s.safe = true ∧ sessionPeers s = [14] ∧ s.rmb.key.isSome = true ∧ s.rmb.nextKey = none ∧ (s.rmb.epoch ∈ (getPeer s 14).acked ↔ a = [6]) ∧
     (getPeer s 14).trans.isSome = true ∧ validRoutes s 14 ≠ []) ∧
    sessionPeers R = [] ∧
    (∀ n ∈ [119999999999, 120000000000], let s := { farIs { far1 with newer := some 0 } Rmb.reset with clockNs := n }
     s.safe = true ∧ (getPeer s 14).newer = some 0 ∧ (0 + 120000000000 ≤ s.clockNs ↔ n = 120000000000)) ∧
    ((unlocked (ramblerPage 0)).safe = true ∧ (getFlags (unlocked (ramblerPage 0)) (ramblerPage 0)).unlocked = true ∧
     (getFlags R (ramblerPage 0)).unlocked = false ∧ (1 : W32).getLsbD 0 = true ∧ (2 : W32).getLsbD 0 = false) := by decide +kernel

/-- Reset with a secure engine. -/
def secured (x : Secure) : State := { R with sec := x }

/-- The SECURE page in expert level, the staged range as given. -/
def stagedAt (a n : Nat) (x : Secure) : State :=
  { setReg (setReg (unlocked securePage) securePage Reg.secStageAddr a) securePage Reg.secStageLen n with sec := x }

theorem wit_SecureCommandsTakeEffect_requests :
    (secured Secure.reset).safe = true ∧ Secure.reset.op = none ∧
    (∀ e ∈ [false, true], let s := setReg (secured { Secure.reset with op := some (.report true), entropyOk := e }) securePage Reg.secReportAddr lpBase
     s.safe = true ∧ s.sec.op = some (.report true) ∧ s.sec.entropyOk = e ∧ getReg s securePage Reg.secReportAddr % 4096 = 0 ∧
     lpRangeOk (getReg s securePage Reg.secReportAddr) 0x2000 = true) ∧
    (∀ n ∈ [0x3FF, 0x400], let s := stagedAt 0 n { Secure.reset with op := some .fwStage }
     s.safe = true ∧ s.sec.op = some .fwStage ∧ deviceRangeOk 0 (getReg s securePage Reg.secStageLen) = true ∧
     (getReg s securePage Reg.secStageLen < 0x400 ↔ n = 0x3FF) ∧ s.sec.boot < 2) ∧
    (let s := stagedAt (2 ^ 60) 64 { Secure.reset with op := some .fwStage }
     s.safe = true ∧ deviceRangeOk (getReg s securePage Reg.secStageAddr) (getReg s securePage Reg.secStageLen) = false) := by decide +kernel

theorem wit_SecureCommandsTakeEffect_fuses :
    (getFlags R securePage).unlocked = false ∧
    (∀ v ∈ [(0 : Nat), 1], let s := stagedAt 0 64 Secure.reset
     s.safe = true ∧ (getFlags s securePage).unlocked = true ∧ (v % 256 = s.sec.running.svn ↔ v = 0)) ∧
    (∀ v ∈ [(0x103 : Nat), 0x100, 3], let x := { Secure.reset with revoked := [1] }
     let s := stagedAt 0 64 x
     s.safe = true ∧ ((BitVec.ofNat 32 v).getLsbD 8 = true ↔ v ≠ 3) ∧ (v % 4 = x.running.keySlot ↔ v = 0x100)) ∧
    ([2, 3].filter (fun i => !([3].contains i)) = [2]) := by decide +kernel

theorem wit_SecureCommandsTakeEffect_chains :
    (let s := setFlags (farIs far1 Rmb.reset) securePage { PageFlags.reset with unlocked := true }
     s.safe = true ∧ (getFlags s securePage).unlocked = true ∧ farSessionExists s = true) ∧
    (∀ n ∈ [0, 1, 384, 385, 4096, 4097], let s := stagedAt 0 n Secure.reset
     s.safe = true ∧ farSessionExists s = false ∧ deviceRangeOk 0 (getReg s securePage Reg.secStageLen) = true ∧
     ((1 ≤ getReg s securePage Reg.secStageLen ∧ getReg s securePage Reg.secStageLen ≤ 4096) ↔ (n ≠ 0 ∧ n ≠ 4097)) ∧
     (getReg s securePage Reg.secStageLen = 384 ↔ n = 384)) ∧
    (let s := stagedAt (2 ^ 60) 64 Secure.reset
     s.safe = true ∧ farSessionExists s = false ∧
     deviceRangeOk (getReg s securePage Reg.secStageAddr) (getReg s securePage Reg.secStageLen) = false) := by decide +kernel

/-- Reset in a phase of the power manager. -/
def phased (p : Phase) : State := { R with power := { R.power with phase := p } }

/-- How a start-up goes. -/
def outcome (g : Option (Fin 5)) (pcs : List (Fin 16 × Fin 32)) (us : List (BitVec 16)) : StartOutcome :=
  { railFail := g, slotOk := true, badPcs := pcs, badUnits := us }

theorem wit_StartsAndResetsFollowTheirSteps_starts :
    ((phased .running).safe = true ∧ (phased .running).power.phase ≠ .off ∧ railsUp (phased .running) = true ∧ warmQuiet (phased .warm) = true) ∧
    (let s := phased .off
     s.safe = true ∧ s.power.phase = .off ∧ railsUp s = false ∧ (outcome (some 4) [] []).railFail = some 4 ∧ bootChoice s.sec ≠ none) ∧
    (let s := { phased .off with flash := { R.flash with pcs := [(0, 0, 0), (15, 30, 1)] } }
     s.safe = true ∧ (∀ x ∈ s.flash.pcs, x.1 ≠ (15 : Fin 16).val ∨ x.2.1 ≠ (31 : Fin 32).val) ∧ (∀ x ∈ s.flash.pcs, x.2.2 ≠ 2) ∧
     (∀ j, j < 2 → ∃ x ∈ s.flash.pcs, x.1 < 16 ∧ x.2.2 = j)) ∧
    (47#16).toNat < 48 := by decide +kernel

theorem wit_StartsAndResetsFollowTheirSteps_releases :
    (∀ p ∈ [Phase.starting 1 true, .starting 2 false, .powerFault 4, .tripped, .warm], (phased p).safe = true ∧ (phased p).power.phase = p) ∧
    (latched (phased .warm) = false ∧ Phase.warm ≠ .bootFail) ∧
    ((phased (.starting 0 false)).events.length < 4096 ∧ unmaskable evReady = true) ∧
    (let s := { phased .warm with merges := [merge1 none none] }
     s.safe = true ∧ warmQuiet s = false) := by decide +kernel

/-- Reset, running, with the power manager's state as given. -/
def managing (f : Power → Power) : State := { R with power := f { R.power with phase := .running } }

theorem wit_PowerManagerActsOnItsInputs_samples :
    (let s := managing id
     s.safe = true ∧ railsUp s = true ∧ powerHalted s = false ∧ 0 < getReg s powerPage Reg.pwrHardW % 65536) ∧
    railsUp (phased .off) = false ∧
    (∀ k ∈ [998, 999], let s := managing (fun p => { p with hot := k })
     s.safe = true ∧ p1Above { s.power with samples := [2600001] } 100 2600 = true ∧ (1000 ≤ k + 1 ↔ k = 999)) ∧
    (∀ k ∈ [9, 10], let s := managing (fun p => { p with exceeds := k })
     let b := budgetOf s
     s.safe = true ∧ p1Above { s.power with samples := [1000 * b + 1] } 100 b = true ∧ p1Above { s.power with samples := [1000 * b] } 100 b = false ∧
     1000 * b + 1 ≤ 1000 * (getReg s powerPage Reg.pwrHardW % 65536) ∧ (k % 10 ≠ 0 ↔ k = 9)) ∧
    (let s := managing (fun p => { p with mv := Vector.ofFn (fun d => p.floor.toList.getD d.val 700) })
     s.safe = true ∧ coresAtFloor s = true) ∧
    (let s := managing (fun p => { p with mv := Vector.ofFn (fun d => p.floor.toList.getD d.val 700 + 5) })
     s.safe = true ∧ coresAtFloor s = false) ∧
    (∀ k ∈ [98, 99], let s := managing (fun p => { p with under := k, samples := [] })
     let q := { s.power with samples := [1000] }
     s.safe = true ∧ s.power.throttled = false ∧ 100 * (p1Frac q).1 < 98 * budgetOf s * 1000 * (p1Frac q).2 ∧ (k + 1 < 100 ↔ k = 98)) ∧
    (∀ h ∈ [false, true], let s := managing (fun p => { p with halts := { p.halts with power := h, thermal := !h } })
     s.safe = true ∧ powerHalted s = true ∧ s.power.phase = .running) := by decide +kernel

theorem wit_PowerManagerActsOnItsInputs_writes :
    (∀ tj ∈ [99, 100, 105, 106], (managing id).power.halts.thermal = false ∧ (105 < tj ↔ tj = 106) ∧
     (let s := managing (fun p => { p with halts := { p.halts with thermal := true } })
      s.safe = true ∧ s.power.halts.thermal = true ∧ (tj < 100 ↔ tj = 99))) ∧
    (∀ v ∈ [0x8000 + 679, 0x8000 + 680, 0x8000 + 900, 0x8000 + 901], let s := setReg (unlocked powerPage) powerPage Reg.pwrDomSel 7
     s.safe = true ∧ (getFlags s powerPage).unlocked = true ∧ (getFlags R powerPage).unlocked = false ∧ anyLaunch s = false ∧ domSel s = 7 ∧
     (BitVec.ofNat 32 v).getLsbD 15 = true ∧ ((680 ≤ v % 1024 ∧ v % 1024 ≤ 900) ↔ (v = 0x8000 + 680 ∨ v = 0x8000 + 900))) ∧
    (let s := setReg (unlocked powerPage) powerPage Reg.pwrDomSel 8
     s.safe = true ∧ 8 ≤ domSel s) ∧
    (anyLaunch (ctxIs 15 (area .running)) = true) := by decide +kernel

theorem wit_ManagementBusAnswers :
    (R.safe = true ∧ (phased .off).safe = true ∧ railsUp (phased .running) = true ∧ railsUp (phased .off) = false) ∧
    (∀ k ∈ [0, 1, 2], (phased (.starting k false)).safe = true ∧ (phased (.starting k false)).power.phase = .starting k false) := by decide +kernel

/-! ## Ill-formed commands, which WellFormed refuses -/

theorem test_wellFormed_refuses_core_fields :
    wellFormed (.b 0 .always 1 0 8) = false ∧ wellFormed (.b 0 .always 0 1 8) = false ∧ wellFormed (.window 0 0 0) = false ∧
    wellFormed (.illegalInstruction 0 0x1A30000000000080) = false ∧ wellFormed (.sumr 0 0 0 10) = false ∧ wellFormed (.post 0 0 0 true 1) = false := by decide +kernel

theorem test_wellFormed_refuses_absent_pages :
    ([.pageExpertKeyWrite 10 0, .drain 10, .enable 10, .drainComplete 10, .frameInject 0x100 0, .frameBist 0x100 0, .bistComplete 0x100 true,
      .stashDescriptorWrite 0x100 0x800 0, .vecRstoreDataRead 0x100, .vecRstoreDataWrite 0x100 0, .vecRstoreCommit 0x100 0, .vecInject 0x100 0,
      .vecBist 0x100 0, .hamSregDataWrite 0x101 0, .hazLogClear 0x100 0, .listConfigWrite 0x100 0x40 0, .listFlush 0x100 0, .arbConfigWrite 0x100 0x840 0,
      .feedInject 0x100 0] : List Instr).all (fun i => !wellFormed i) = true := by decide +kernel

theorem test_wellFormed_refuses_upsets_elsewhere :
    wellFormed (.beatAdvance 0 [.feedLine 12] none) = false ∧ wellFormed (.beatAdvance 0 [.rodResidue 12 0 0] none) = false ∧
    wellFormed (.beatAdvance 0 [.shiftAdders 12 0 0] none) = false ∧ wellFormed (.beatAdvance 0 [.vecResidue 12 0] none) = false ∧
    wellFormed (.beatAdvance 0 [.storageParity 10] none) = false ∧ wellFormed (.beatAdvance 0 [.feedLine 11] none) = true := by decide +kernel

theorem test_wellFormed_refuses_lengths :
    wellFormed (.registerWrite .host 0 false (2 ^ 32)) = false ∧ wellFormed (.memoryRead .host 0 0 .clean) = false ∧
    wellFormed (.memoryWrite .host 0 [] []) = false ∧ wellFormed (.memoryWrite .host 0 [0] [1]) = false ∧
    wellFormed (.pageWrite hd 0 true (List.replicate 256 0) 0) = false ∧ wellFormed (.pageWrite hd 0 false [2 ^ 32] 0) = false ∧
    wellFormed (.bulkWrite hd 0 (List.replicate 8193 0) none 0 []) = false ∧ wellFormed (.bulkWrite hd 0 [0] none 0 [1]) = false ∧
    wellFormed (.bulkData hd 0 0 0 (List.replicate 8193 0) true) = false ∧
    wellFormed (.merge { sender := none, ctx := 0, step := 0, attempt := 0 } 0 0 []) = false ∧
    wellFormed (.frameReceive 0 0 { frame1 .vyvex true [] with len := 0, payload := [0] }) = false := by decide +kernel

theorem test_wellFormed_refuses_far_fields :
    wellFormed (.shard (from14 9 5 0 true) (shard1 0 0 [0])) = false ∧ wellFormed (.shard (from14 9 5 0 true) { shard1 0 2 [0] with index := 2 }) = false ∧
    wellFormed (.shard (from14 9 5 0 true) (shard1 0 1 [])) = false ∧ wellFormed (.need (from14 9 5 0 true) 0 33) = false ∧
    wellFormed (.heartbeat (from14 9 5 0 true) ⟨2 ^ 32, 0, 0, 0⟩) = false ∧ wellFormed (.heartbeat (from14 9 5 0 true) ⟨0, 2 ^ 32, 0, 0⟩) = false ∧
    wellFormed (.heartbeat (from14 9 5 0 true) ⟨0, 0, 2 ^ 32, 0⟩) = false ∧ wellFormed (.requestArchive (from14 9 5 0 true) (2 ^ 32) 0) = false ∧
    wellFormed (.requestArchive (from14 9 5 0 true) 0 (2 ^ 32)) = false := by decide +kernel

/-! ## Worked examples of the spec's text -/

/-- 01_number_formats.md, "Worked conversions": the BF16 block converted to BS16. -/
theorem test_bf16_block_to_bs16 :
    let xs := ([0x4050, 0xBDC0, 0x3B81, 0x7FC1, 0xFF80, 0x8000] ++ List.replicate 26 0).map (fun n => (fp32Val (bf16Widen (BitVec.ofNat 16 n)), Rounding.rne))
    toBlock bs16Params xs = (128, [26624, -768, 32, 0, -32767, 0] ++ List.replicate 26 0, ⟨1, 1⟩) := by decide +kernel

/-- The same section: that block converted back to BF16. -/
theorem test_bs16_block_to_bf16 :
    ([26624, -768, 32, 0, -32767] : List Int).map (fun m => (toBf16 .rne (fvalOfExact (blockVal bs16Params m 128))).1) =
      [0x4050#16, 0xBDC0#16, 0x3B80#16, 0x0000#16, 0xC080#16] := by decide +kernel

/-- The same section: 21083/16384 to BF16 under RNE and under SR. -/
theorem test_drain_to_bf16 :
    (toBf16 .rne (.fin false 21083 (-14))).1 = 0x3FA5#16 ∧
    (List.range 16).map (fun r => (toBf16 (.sr r) (.fin false 21083 (-14))).1) = List.replicate 5 0x3FA4#16 ++ List.replicate 11 0x3FA5#16 := by decide +kernel

/-- The same section: the carry of 0x3FFF_FFFF is clamped and not counted. -/
theorem test_block_carry_is_clamped : toBlock bs16Params [(fp32Val 0x3FFFFFFF#32, .rne)] = (127, [32767], noCounts) := by decide +kernel

/-- 02_matrix_frames.md, worked dot product: the aligned products with their residues, and their sum. -/
theorem test_rod_products :
    let ps := [cellProduct false 60 ⟨26624, 128, 81⟩ ⟨20480, 126, 33⟩, cellProduct false 60 ⟨-768, 128, 121⟩ ⟨16384, 127, 1⟩,
      cellProduct false 60 ⟨12288, 128, 96⟩ ⟨-24576, 125, 62⟩, cellProduct false 60 ⟨5, 128, 5⟩ ⟨-3, 134, 124⟩]
    ps = [⟨1064960, 65, false⟩, ⟨-49152, 124, false⟩, ⟨-294912, 109, false⟩, ⟨-8, 119, false⟩] ∧ ps.foldl rodAdd .zero = ⟨720888, 36, false⟩ := by
  decide +kernel

/-- 04_vector_recipes.md: SOFTMAX as stored passes the checks and takes 76 beats for one row of 512 elements. -/
theorem test_softmax_recipe :
    let code : List W32 := [0x04000000, 0x0C400000, 0x587E0001, 0x64020001, 0x70000000, 0x04000000, 0x0C400000, 0x587E0001, 0x5C838000, 0x64440000,
      0x70000000, 0x04000000, 0x0C400000, 0x587E0001, 0x5C838000, 0x2CC59000, 0x6C33C000, 0x08060000]
    checkRecipe false code 18 = none ∧ callBeats code 1 512 = 76 := by decide +kernel

/-- 04_vector_recipes.md, rows b and c of the SOFTMAX example: the numerators of a row with infinities, and a third. -/
theorem test_softmax_infinities :
    [0x7F800000#32, 0x40A00000#32, 0x7F800000#32, 0xFF800000#32].map (fun x => fpSmxp x 0x7F800000#32) = [fpOne, 0, fpOne, 0] ∧
    fpDiv0 fpOne 0x40400000#32 = 0x3EAAAAAB#32 := by decide +kernel

/-- 05_update_units.md: the clipping scale of the step whose squares sum to 6.25. -/
theorem test_clip_scale : clipScale true fpOne (25 * 2 ^ 126) 0 = 0x3ECCCCCD#32 ∧ clipScale false fpOne (25 * 2 ^ 126) 0 = fpOne := by decide +kernel

/-- 06_control_core.md: words of the worked beat program are legal; an END with a nonzero RD is not. -/
theorem test_legal_words :
    [0x1A30000000000080, 0x2330000000004000, 0x4000000000004000, 0x330000000000017E, 0x3950020000000000, 0x300A80000000000A].all
      (fun w => legalWord w false) = true ∧ legalWord 0x3500000000000000 false = true ∧ legalWord 0x3508000000000000 false = false := by decide +kernel

/-- 07_beat_schedule_contract.md: the mapping of die C2 of an OV716-B40 whose H27 and H31 are disabled. -/
theorem test_folded_mapping :
    let s := { R with part := { R.part with hampersOn := (List.range 48).filter (fun h => h != 27 && h != 31) } }
    (List.range 12).map (fun k => physOf s (24 + k)) = [24, 25, 26, 28, 29, 30, 32, 33, 34, 35, 24, 25] := by decide +kernel

/-- 10_memory_tiers.md: the decoding of 0x0_0046_2345_6780 and of 0x1_0012_3456_7A40. -/
theorem test_address_slices :
    (stackOf 0x4623456780, dieOfHbm 0x4623456780, pcOf 0x4623456780, rowOf 0x4623456780, homeUnit 0x4623456780) = (6, 1, 7, 9320, 6) ∧
    pcOf 0x4623456800 = 8 ∧ (chanOf 0x1234567A40, packageOf 0x1234567A40, homeUnit 0x1001234567A40) = (1, 10, 18) := by decide +kernel

/-- 11_reproducibility.md, R279: the outputs of vectors A and B. -/
theorem test_generator :
    (let x := gen 0 0 0 0
     genWord x = 0x23F587DA ∧ x.x0 ^^^ x.x2 = 0x1DBD9240 ∧ genSr 0 0 0 0 = 2) ∧
    (let x := gen 0 0 0x100000000 0
     genWord x = 0x5881FD6F ∧ x.x0 ^^^ x.x2 = 0xF4DCE241 ∧ genSr 0 0 0x100000000 0 = 5) := by decide +kernel

/-- 15_far_exchange.md: the selection, the sent block and the residual block of the COMPOSE example. -/
theorem test_compose_example :
    let es : List (Option Exact) := [some ⟨1, -6⟩, some ⟨-389, -9⟩, some ⟨1, -8⟩, some ⟨1, -1⟩, some ⟨-1, -3⟩, some ⟨0, 0⟩, some ⟨-1, -1⟩, some ⟨-1, -17⟩]
    let sent := (xSend (xSelect es 2)).1
    sent = [(1, -97, 126), (3, 64, 126)] ∧ gapsFrom 0 (sent.map (·.1)) = [1, 1] ∧
    (let rest := es.zipIdx.map (fun x => (fvalOfExact (exactAdd (x.1.getD exactZero) (exactNeg (sentVal sent x.2))), Rounding.rne))
     toBlock bs16Params rest = (126, [512, -64, 128, 0, -4096, 0, -16384, 0], noCounts)) := by decide +kernel

/-- 15_far_exchange.md: the weights of STEPS 32, 32 and 64. -/
theorem test_weights : weights [32, 32, 64] = [0x3E800000#32, 0x3E800000#32, 0x3F000000#32] := by decide +kernel

/-- 19_register_pages.md: HBMC page 0x2A: its TYPE and INSTANCE, the write refused while it is locked, and the key that unlocks it. -/
theorem test_hbmc_page :
    pageType 0x2A = some (10, 10) ∧ pageType 0x2D8 = some (19, 89) ∧
    (match exec (.registerWrite .host 0xF00000002A808 true 0xA00000000) R with
     | .next t => decide (getReg t 0x2A Reg.pageErr = 0x2000000 ∧ getReg t 0x2A Reg.hbmInjectAddr = 0)
     | _ => false) = true ∧
    (match exec (.pageExpertKeyWrite 0x2A 0xCA0A) R with
     | .next t => (getFlags t 0x2A).unlocked
     | _ => false) = true := by decide +kernel

/-- 06_control_core.md, R155: an ADD wraps modulo 2^64, its destination also a source. -/
theorem test_add_wraps :
    (match exec (.add 0 1 1 2) (run0 (2 ^ 63) (2 ^ 63 + 5)) with
     | .next t => decide (sreg (getH t 0).core 1 = 5)
     | _ => false) = true := by decide +kernel
end Sys2Proof.Tests
end

section
/-!
No command faults and none is refused (R10).
-/
namespace Sys2Proof.Machine

/-- MFR_MODULE_STATE answers whether or not the memory test's bit is drawn. -/
theorem execMfrModuleState_next (s : State) : ∃ t, execMfrModuleState s = .next t := by
  unfold execMfrModuleState
  dsimp only
  split
  · exact ⟨_, rfl⟩
  · exact ⟨_, rfl⟩

/-- Settles O1: every arm of exec is a next state as it stands, but for MFR_MODULE_STATE, which branches first. -/
theorem commandsNeverFaultOrRefuse : Obligations.CommandsNeverFaultOrRefuse := by
  unfold Obligations.CommandsNeverFaultOrRefuse
  intro i s
  cases i with
  | mfrModuleState => exact execMfrModuleState_next s
  | _ => exact ⟨_, rfl⟩

end Sys2Proof.Machine
end

section
/-!
Proofs of the register obligations: one rule per outcome of a register write: what an access meets, the error it leaves and what it keeps (R12–R17).
-/
namespace Sys2Proof.Machine

/-! ## Errors and single registers -/

/-- An error bit of a page set and counted changes that page's two error registers alone (R466, R467). -/
theorem setErr_errorOnly {s : State} (hr : rising s.regs = true) (page b : Nat) : ErrorOnly s (setErr s page b) page b := by
  have hr1 := setReg_rising s hr page Reg.pageErr (getReg s page Reg.pageErr ||| 2 ^ b)
  have hne : regKey page Reg.pageErr ≠ regKey page Reg.pageErrCount := by simp [regKey, Reg.pageErr, Reg.pageErrCount]
  refine ⟨?_, ⟨?_, ?_⟩, ?_⟩
  · rw [setErr, countReg_fields]; rfl
  · rw [setErr, getReg_countReg_ne hr1 1 hne, getReg_setReg_self s hr]
  · rw [setErr, getReg_countReg_self hr1 _ _ Nat.one_ne_zero, getReg_setReg_ne s hr _ hne.symm]
  · intro bank off hk
    simp only [List.mem_cons, List.not_mem_nil, or_false, not_or] at hk
    rw [setErr, getReg_countReg_ne hr1 1 hk.2, getReg_setReg_ne s hr _ hk.1]

theorem setReg_setsOnly {s : State} (hr : rising s.regs = true) (bank off v : Nat) : SetsOnly s (setReg s bank off v) bank off v :=
  ⟨rfl, getReg_setReg_self s hr bank off v, fun _ _ hk => getReg_setReg_ne s hr v (by simpa using hk)⟩

theorem setFlags_flagsOnly {s : State} (hp : rising s.pages = true) (page : Nat) (f : PageFlags → PageFlags) :
    FlagsOnly s (setFlags s page (f (getFlags s page))) [page] f := by
  refine ⟨rfl, fun p h => ?_, fun p h => getFlags_setFlags_ne s hp _ (by simpa using h)⟩
  obtain rfl : p = page := by simpa using h
  exact getFlags_setFlags_self s hp p _

/-! ## What an access meets (R13, R14) -/

theorem accessIn_misaligned {page off : Nat} {wide : Bool} (h : off % (if wide then 8 else 4) ≠ 0) : accessIn page off wide = .badSize page :=
  if_pos h

theorem accessIn_of_regAt {page off : Nat} {wide : Bool} {d : RegDesc} (h : off % (if wide then 8 else 4) = 0) (hd : regAt page off = some d) :
    accessIn page off wide = if d.wide = wide then .reg page off d else .badSize page := by
  simp only [accessIn, h, hd, ne_eq, not_true_eq_false, if_false]

section
variable {s : State} {addr : Nat} {wide : Bool}

/-- No page of the register window holds an address (R12, R459). -/
def MeetsNoPage (s : State) (addr : Nat) : Prop :=
  addr < pageBase ∨ pageBase + pageWindow ≤ addr ∨ pagePresent s ((addr - pageBase) / 0x1000) = false

theorem accessAt_noPage (h : MeetsNoPage s addr) : accessAt s addr wide = .absent := if_pos h

theorem accessAt_page (h : ¬ MeetsNoPage s addr) :
    accessAt s addr wide = accessIn ((addr - pageBase) / 0x1000) ((addr - pageBase) % 0x1000) wide := if_neg h

/-- The address of a register of a page that is present meets that register's offset there (R13). -/
theorem accessAt_regAddr {page off : Nat} (hp : pagePresent s page = true) (hk : page < 0x10000) (ho : off < 0x1000) :
    accessAt s (regAddr page off) wide = accessIn page off wide := by
  have hpage : (regAddr page off - pageBase) / 0x1000 = page := by unfold regAddr; omega
  have hoff : (regAddr page off - pageBase) % 0x1000 = off := by unfold regAddr; omega
  have hin : ¬ MeetsNoPage s (regAddr page off) := by
    unfold MeetsNoPage
    rw [hpage, hp]
    simp only [Bool.true_eq_false, or_false, not_or, Nat.not_lt, Nat.not_le]
    exact ⟨by unfold regAddr; omega, by unfold regAddr pageWindow; omega⟩
  rw [accessAt_page hin, hpage, hoff]

/-! ## What a write does (R15–R17) -/

variable {rq : Requester} {v : Nat}

theorem regWrite_absent (h : accessAt s addr wide = .absent) : (regWrite s rq addr wide v).1 = setErr s (rqPage s rq) errOutOfMap := by
  rw [regWrite, h]

theorem regWrite_badSize {page : Nat} (h : accessAt s addr wide = .badSize page) :
    (regWrite s rq addr wide v).1 = setErr s page errAccessSize := by
  rw [regWrite, h]

theorem regWrite_ro {page off : Nat} {d : RegDesc} (h : accessAt s addr wide = .reg page off d) (hd : d.acc = .ro) :
    (regWrite s rq addr wide v).1 = s := by
  simp only [regWrite, h, hd]

theorem regWrite_locked {page off : Nat} {d : RegDesc} (h : accessAt s addr wide = .reg page off d) (hd : d.acc = .rwx)
    (hl : (getFlags s page).unlocked = false) : (regWrite s rq addr wide v).1 = setErr s page errExpertDenied := by
  simp only [regWrite, h, hd, hl, Bool.false_eq_true, if_false]

/-- A register that is neither read-only nor expert takes the bits that are not reserved (R15, R16). -/
theorem regWrite_through {page off : Nat} {d : RegDesc} (h : accessAt s addr wide = .reg page off d) (hro : d.acc ≠ .ro) (hrwx : d.acc ≠ .rwx) :
    (regWrite s rq addr wide v).1 = writeReg s page off (v % 2 ^ (if wide then 64 else 32) &&& d.mask) := by
  rw [regWrite, h]
  cases hd : d.acc with
  | ro => exact absurd hd hro
  | rwx => exact absurd hd hrwx
  | rw | wo | w1c => simp only [hd]

end

/-- A mask of the low k bits of a wider word keeps those bits. -/
theorem mod_and_lowMask (v : Nat) {k n m : Nat} (hm : m = 2 ^ k - 1) (h : k ≤ n) : v % 2 ^ n &&& m = v % 2 ^ k := by
  rw [hm, Nat.and_two_pow_sub_one_eq_mod, Nat.mod_mod_of_dvd _ (Nat.pow_dvd_pow 2 h)]

/-! ## The common header (R462) -/

/-- The row of PAGE_ERR in every page. -/
def pageErrRow : RegDesc := ⟨"PAGE_ERR", Reg.pageErr, 1, 0, false, .w1c, 0xFFFFFFF, 0x0⟩

/-- The row of PAGE_EXPERT_KEY in every page. -/
def pageExpertKeyRow : RegDesc := ⟨"PAGE_EXPERT_KEY", Reg.pageExpertKey, 1, 0, false, .rw, 0xFFFF, 0x0⟩

theorem regAt_pageErr (page : Nat) : regAt page Reg.pageErr = some pageErrRow := rfl

theorem regAt_pageExpertKey (page : Nat) : regAt page Reg.pageExpertKey = some pageExpertKeyRow := rfl

theorem writeReg_pageErr (s : State) {page : Nat} (v : Nat) (h : page ≠ ramblerPage 0) :
    writeReg s page Reg.pageErr v = clearErr s page v := by
  have : ¬ (page = ramblerPage 0 ∧ v.testBit 6 = true) := fun hc => h hc.1
  show (if page = ramblerPage 0 ∧ v.testBit 6 = true then rmbResolve (clearErr s page v) else clearErr s page v) = _
  rw [if_neg this]

theorem writeReg_pageExpertKey (s : State) (page v : Nat) : writeReg s page Reg.pageExpertKey v = expertKey s page v := rfl

/-- Writing 1 to a bit of PAGE_ERR clears it, and writing 0 leaves it (R15). -/
theorem clearErr_testBit {s : State} (hr : rising s.regs = true) (page v : Nat) {b : Nat} (hb : b < 32) :
    (getReg (clearErr s page v) page Reg.pageErr).testBit b = ((getReg s page Reg.pageErr).testBit b && !v.testBit b) := by
  have hones : (0xFFFFFFFF : Nat).testBit b = true := by
    rw [show (0xFFFFFFFF : Nat) = 2 ^ 32 - 1 from rfl, Nat.testBit_two_pow_sub_one]; exact decide_eq_true hb
  rw [clearErr, getReg_setReg_self s hr, Nat.testBit_and, Nat.testBit_xor, hones, Bool.xor_true]

/-- The numbers of a page: it lies in the map, and its number among its kind fits the field of its unlock value (R17, R458). -/
theorem pageType_bounds {page ty i : Nat} (h : pageType page = some (ty, i)) : page < 0x400 ∧ i < 256 := by
  unfold pageType at h
  dsimp only at h
  repeat' split at h
  all_goals cases h <;> omega

/-- PAGE_EXPERT_KEY of a page with an expert level: its unlock value unlocks, and any other locks (R17). -/
theorem expertKey_eq (s : State) {page ty i : Nat} (v : Nat) (h0 : page ≠ 0) (ht : pageType page = some (ty, i)) :
    expertKey s page v = setFlags s page { getFlags s page with unlocked := decide (v % 65536 = 0xC000 + 0x100 * ty + i) } := by
  have hi : i % 256 = i := Nat.mod_eq_of_lt (pageType_bounds ht).2
  simp only [expertKey, typeInst, ht, Option.getD_some, if_neg h0, hi]
  congr

/-! ## FLT_REPLAY_LIMIT (R321) -/

/-- The row of FLT_REPLAY_LIMIT. -/
def fltReplayLimitRow : RegDesc := ⟨"FLT_REPLAY_LIMIT", Reg.fltReplayLimit, 1, 0, false, .rw, 0xFF, 0x3⟩

theorem regAt_fltReplayLimit : regAt faultPage Reg.fltReplayLimit = some fltReplayLimitRow := rfl

theorem writeReg_fltReplayLimit (s : State) (v : Nat) :
    writeReg s faultPage Reg.fltReplayLimit v = setReg s faultPage Reg.fltReplayLimit v := rfl

/-! ## Commands -/

theorem exec_registerWrite (rq : Requester) (addr : Addr) (wide : Bool) (v : Word) (s : State) :
    exec (.registerWrite rq addr wide v) s = .next (regWrite s rq addr.toNat wide v.toNat).1 := rfl

section
variable {s : State} {rq : Requester} {addr : Addr} {wide : Bool} {v : Word}

/-- A register write that only sets an error bit. -/
theorem registerWrite_answers_error {page b : Nat} (hr : rising s.regs = true)
    (h : (regWrite s rq addr.toNat wide v.toNat).1 = setErr s page b) :
    Answers (.registerWrite rq addr wide v) s (fun t => ErrorOnly s t page b) :=
  ⟨_, exec_registerWrite rq addr wide v s, h ▸ setErr_errorOnly hr page b⟩

/-- R16: FLT_REPLAY_LIMIT takes its eight bits. -/
theorem fltReplayLimit_answers (hr : rising s.regs = true)
    (hacc : accessAt s addr.toNat false = .reg faultPage Reg.fltReplayLimit fltReplayLimitRow) :
    Answers (.registerWrite rq addr false v) s (fun t => SetsOnly s t faultPage Reg.fltReplayLimit (v.toNat % 256)) := by
  refine ⟨_, exec_registerWrite rq addr false v s, ?_⟩
  have hv : v.toNat % 2 ^ 32 &&& 0xFF = v.toNat % 256 := mod_and_lowMask v.toNat (k := 8) rfl (by decide)
  rw [regWrite_through hacc (by decide) (by decide), writeReg_fltReplayLimit]
  exact hv ▸ setReg_setsOnly hr faultPage Reg.fltReplayLimit _

/-- R15: PAGE_ERR is cleared where a 1 is written. -/
theorem pageErr_answers {page : Nat} (hr : rising s.regs = true) (h8 : page ≠ ramblerPage 0)
    (hacc : accessAt s addr.toNat false = .reg page Reg.pageErr pageErrRow) :
    Answers (.registerWrite rq addr false v) s (fun t => t = { s with regs := t.regs } ∧
      (∀ b, b < 28 → (getReg t page Reg.pageErr).testBit b = ((getReg s page Reg.pageErr).testBit b && !v.getLsbD b)) ∧
      KeepsRegs s t [regKey page Reg.pageErr]) := by
  refine ⟨_, exec_registerWrite rq addr false v s, ?_⟩
  have hv : v.toNat % 2 ^ 32 &&& 0xFFFFFFF = v.toNat % 2 ^ 28 := mod_and_lowMask v.toNat (k := 28) rfl (by decide)
  rw [regWrite_through hacc (by decide) (by decide), writeReg_pageErr s _ h8]
  refine ⟨rfl, fun b hb => ?_, (setReg_setsOnly hr page Reg.pageErr _).2.2⟩
  rw [clearErr_testBit hr page _ (by omega)]
  congr 2
  calc (v.toNat % 2 ^ 32 &&& 0xFFFFFFF).testBit b = (v.toNat % 2 ^ 28).testBit b := by rw [hv]
    _ = v.getLsbD b := by rw [Nat.testBit_mod_two_pow, decide_eq_true hb, Bool.true_and]; rfl

/-- R17: a write of PAGE_EXPERT_KEY. -/
theorem pageExpertKeyWrite_answers {page ty i : Nat} (k : W32) (hp : rising s.pages = true) (h0 : page ≠ 0)
    (hpres : pagePresent s page = true) (ht : pageType page = some (ty, i)) :
    Answers (.pageExpertKeyWrite page k) s (fun t =>
      FlagsOnly s t [page] (fun f => { f with unlocked := decide (k.toNat % 65536 = 0xC000 + 0x100 * ty + i) })) := by
  have hk : page < 0x10000 := by have := (pageType_bounds ht).1; omega
  have hacc : accessAt s (regAddr page Reg.pageExpertKey) false = .reg page Reg.pageExpertKey pageExpertKeyRow := by
    rw [accessAt_regAddr hpres hk (by decide), accessIn_of_regAt (by decide) (regAt_pageExpertKey page)]; rfl
  have hv : (k.toNat % 2 ^ 32 &&& 0xFFFF) % 65536 = k.toNat % 65536 := by
    rw [mod_and_lowMask k.toNat (k := 16) (m := 0xFFFF) rfl (by decide)]; exact Nat.mod_mod _ _
  refine ⟨_, rfl, ?_⟩
  rw [rowWrite, if_pos rfl, regWrite_through hacc (by decide) (by decide), writeReg_pageExpertKey, expertKey_eq s _ h0 ht]
  simp only [Bool.false_eq_true, if_false, pageExpertKeyRow, hv]
  exact setFlags_flagsOnly hp page (fun f => { f with unlocked := decide (k.toNat % 65536 = 0xC000 + 0x100 * ty + i) })

end

/-- Settles O32: each clause is the rule of what its access meets, read through the two tables a safe state keeps in order. -/
theorem registerWritesFollowTheirAccess : Obligations.RegisterWritesFollowTheirAccess := by
  unfold Obligations.RegisterWritesFollowTheirAccess
  intro s rq addr wide v hs
  obtain ⟨-, hr, -, hp, -⟩ := safe_tables hs
  intro a page off w outside
  have hreg {d : RegDesc} (hin : ¬ outside) (ha : off % (if wide then 8 else 4) = 0) (hd : regAt page off = some d) :
      accessAt s a wide = if d.wide = wide then .reg page off d else .badSize page :=
    (accessAt_page hin).trans (accessIn_of_regAt ha hd)
  refine ⟨fun hout => ?_, fun hin ha => ?_, fun d hin ha hd => ⟨fun hw => ?_, fun hw hro => ?_, fun hw hx hl => ?_⟩,
    fun hin hw hpage hoff => ?_, fun hin hw h8 hoff => ?_, fun p k ty i h0 hpres ht => ?_⟩
  · exact registerWrite_answers_error hr (regWrite_absent (accessAt_noPage hout))
  · exact registerWrite_answers_error hr (regWrite_badSize ((accessAt_page hin).trans (accessIn_misaligned ha)))
  · exact registerWrite_answers_error hr (regWrite_badSize ((hreg hin ha hd).trans (if_neg hw)))
  · exact ⟨_, exec_registerWrite rq addr wide v s, regWrite_ro ((hreg hin ha hd).trans (if_pos hw)) hro⟩
  · exact registerWrite_answers_error hr (regWrite_locked ((hreg hin ha hd).trans (if_pos hw)) hx hl)
  · subst hw
    have hacc := (hreg (d := fltReplayLimitRow) hin (by rw [hoff]; decide) (by rw [hpage, hoff]; exact regAt_fltReplayLimit)).trans (if_pos rfl)
    exact fltReplayLimit_answers hr (hpage ▸ hoff ▸ hacc)
  · subst hw
    have hacc := (hreg (d := pageErrRow) hin (by rw [hoff]; decide) (by rw [hoff]; exact regAt_pageErr page)).trans (if_pos rfl)
    exact pageErr_answers hr h8 (hoff ▸ hacc)
  · exact pageExpertKeyWrite_answers k hp h0 hpres ht

end Sys2Proof.Machine
end

section
/-!
What a read or a write of memory keeps and what it reports: one rule per outcome of a controller's access (R258–R260).
-/
namespace Sys2Proof.Machine

/-! ## Controllers -/

theorem getCtl_setCtl_self (s : State) {c : Bool × Nat} (m : MemCtl) (hc : c.2 < 16) : getCtl (setCtl s c m) c = m := by
  obtain ⟨tier, i⟩ := c
  cases tier <;> simp [getCtl, setCtl, hc]

theorem getCtl_setCtl_ne (s : State) {c d : Bool × Nat} (m : MemCtl) (h : d ≠ c) : getCtl (setCtl s c m) d = getCtl s d := by
  obtain ⟨tier, i⟩ := c
  obtain ⟨tier', j⟩ := d
  cases tier <;> cases tier' <;> simp only [getCtl, setCtl, Bool.false_eq_true, if_true, if_false]
  all_goals rw [Vector.getElem?_setIfInBounds_ne (fun e => h (by rw [e]))]

theorem setCtl_regs (s : State) (c : Bool × Nat) (m : MemCtl) : (setCtl s c m).regs = s.regs := by
  unfold setCtl
  split <;> rfl

theorem setCtl_mem (s : State) (c : Bool × Nat) (m : MemCtl) : (setCtl s c m).mem = s.mem := by
  unfold setCtl
  split <;> rfl

theorem getReg_setCtl (s : State) (c : Bool × Nat) (m : MemCtl) (bank off : Nat) : getReg (setCtl s c m) bank off = getReg s bank off := by
  unfold getReg
  rw [setCtl_regs]

theorem ctlOf_lt (a : Nat) : (ctlOf a).2 < 16 := by
  unfold ctlOf
  split
  · simp only [stackOf, bits]; omega
  · simp only [packageOf, bits]; omega

/-! ## Poison (R260) -/

/-- An element of a vector, or the default past its end. -/
theorem getElem?_getD_mem_or {α : Type} {n : Nat} (v : Vector α n) (d : α) (i : Nat) : v[i]?.getD d ∈ v.toList ∨ v[i]?.getD d = d := by
  cases h : v[i]? with
  | none => exact .inr rfl
  | some x => exact .inl (Vector.mem_toList_iff.2 (Vector.mem_of_getElem? h))

/-- No poisoned unit is listed exactly when each controller's list is empty. -/
theorem noPoison_iff (s : State) : NoPoison s ↔ ∀ c, (getCtl s c).poison = [] := by
  constructor
  · rintro h ⟨tier, i⟩
    have hreset : MemCtl.reset.poison = [] := rfl
    cases tier with
    | false =>
      rcases getElem?_getD_mem_or s.lpc .reset i with hm | hm
      · exact h _ (List.mem_append_right _ hm)
      · exact (congrArg MemCtl.poison hm).trans hreset
    | true =>
      rcases getElem?_getD_mem_or s.hbm .reset i with hm | hm
      · exact h _ (List.mem_append_left _ hm)
      · exact (congrArg MemCtl.poison hm).trans hreset
  · intro h m hm
    rcases List.mem_append.1 hm with hm | hm
    · obtain ⟨i, hi⟩ := Vector.getElem?_of_mem (Vector.mem_toList_iff.1 hm)
      have := h (true, i)
      rwa [getCtl, if_pos rfl, hi] at this
    · obtain ⟨i, hi⟩ := Vector.getElem?_of_mem (Vector.mem_toList_iff.1 hm)
      have := h (false, i)
      rwa [getCtl, if_neg Bool.false_ne_true, hi] at this

theorem poisoned_of_noPoison {s : State} (h : NoPoison s) (a n : Nat) : poisoned s a n = false := by
  have hu : poisonUnits s = [] := by
    simp only [poisonUnits, List.append_eq_nil_iff, List.flatMap_eq_nil_iff, List.map_eq_nil_iff]
    exact ⟨fun m hm => h m (List.mem_append_left _ hm), fun m hm => h m (List.mem_append_right _ hm)⟩
  rw [poisoned, hu]
  rfl

/-- Filtering the poison lists of controllers that hold none changes no controller. -/
theorem map_poison_filter {n : Nat} {v : Vector MemCtl n} (keep : Nat → Bool) (h : ∀ m ∈ v.toList, m.poison = []) :
    v.map (fun m => { m with poison := m.poison.filter keep }) = v := by
  refine (Vector.map_congr_left fun m hm => ?_).trans v.map_id
  have hp : m.poison = [] := h m (Vector.mem_toList_iff.2 hm)
  show { m with poison := m.poison.filter keep } = m
  rw [hp, List.filter_nil, ← hp]

theorem clearPoison_of_noPoison {s : State} (h : NoPoison s) (a n : Nat) : clearPoison s a n = s := by
  simp only [clearPoison]
  rw [map_poison_filter _ fun m hm => h m (List.mem_append_left _ hm), map_poison_filter _ fun m hm => h m (List.mem_append_right _ hm)]

/-! ## Writes (R258) -/

theorem storeBytes_of_noPoison {s : State} (h : NoPoison s) (a : Nat) (bs : List Byte) :
    storeBytes s a bs = { s with mem := memWrite s.mem a bs } :=
  clearPoison_of_noPoison (s := { s with mem := memWrite s.mem a bs }) h a bs.length

theorem memWritten_memWrite {s t : State} (hm : Memory.wf s.mem = true) {a : Nat} {bs : List Byte} (ht : t.mem = memWrite s.mem a bs) :
    MemWritten s t a bs := by
  rw [MemWritten, ht]
  exact ⟨memRead_write hm a bs, fun _ hx => memGet_write_out hm a bs hx⟩

/-- A write that meets no armed check leaves the injection registers alone. -/
theorem injectedWrite_of_unarmed {s : State} {a n : Nat} (h : (injectedWrite s a n).1 = false) : injectedWrite s a n = (false, s) := by
  simp only [injectedWrite, Bool.not_eq_false', List.isEmpty_iff] at h
  simp only [injectedWrite, h, List.isEmpty_nil, Bool.not_true, List.foldl_nil]

section
variable {s : State} {rq : Requester} {a : Nat} {bs : List Byte} {bad : List Nat}

/-- A write within device memory with no check armed: the bytes are stored, and a wrong residue is then reported (R258). -/
theorem checkedWrite_device (hd : deviceRangeOk a bs.length = true) (hi : (injectedWrite s a bs.length).1 = false) (hn : NoPoison s) :
    checkedWrite s rq a bs bad =
      if bad.isEmpty then { s with mem := memWrite s.mem a bs } else writeCheck { s with mem := memWrite s.mem a bs } rq a := by
  simp only [checkedWrite, hd, if_true, injectedWrite_of_unarmed hi, storeBytes_of_noPoison hn, Bool.false_or, Bool.not_eq_true']
  cases bad <;> rfl

theorem checkedWrite_pantry (hd : deviceRangeOk a bs.length = false) (hp : pantryRangeOk s a bs.length = true) (hn : NoPoison s) :
    checkedWrite s rq a bs [] = { s with mem := memWrite s.mem a bs } := by
  simp only [checkedWrite, hd, hp, Bool.false_eq_true, if_false, if_true, List.isEmpty_nil, storeBytes_of_noPoison hn]

theorem checkedWrite_outside (hd : deviceRangeOk a bs.length = false) (hp : pantryRangeOk s a bs.length = false) :
    checkedWrite s rq a bs bad = setErr s (rqPage s rq) errOutOfMap := by
  simp only [checkedWrite, hd, hp, Bool.false_eq_true, if_false]

end

/-! ## Armed errors (R270, R273) -/

/-- The offsets of the injection registers of a controller's page. -/
def injectOffs : List Nat := [Reg.hbmInject, Reg.lpcInject, Reg.hbmInjectAddr, Reg.lpcInjectAddr]

/-- The armed units are read from the injection registers alone. -/
theorem armedUnits_congr {s t : State} (h : ∀ bank, ∀ off ∈ injectOffs, getReg t bank off = getReg s bank off) (arm : Nat → Bool) (a n : Nat) :
    armedUnits t arm a n = armedUnits s arm a n := by
  have hu : armedUnit t arm = armedUnit s arm := by
    funext ⟨tier, i⟩
    cases tier with
    | false => simp only [armedUnit, Bool.false_eq_true, if_false, h _ Reg.lpcInject (by decide), h _ Reg.lpcInjectAddr (by decide)]
    | true => simp only [armedUnit, if_true, h _ Reg.hbmInject (by decide), h _ Reg.hbmInjectAddr (by decide)]
  rw [armedUnits, hu, armedUnits]

/-! ## What a report of an error keeps

A read error is counted, reported in PAGE_ERR and told to the host. The registers that this writes are named by their offsets, since the port
that carries an EVENT is a host session's own. -/

/-- t has the memory and the poison lists of s, and its registers but for those at the offsets of offs. -/
structure StoreKept (offs : List Nat) (s t : State) : Prop where
  mem : t.mem = s.mem
  poison : ∀ c, (getCtl t c).poison = (getCtl s c).poison
  rising : rising t.regs = true
  regs : ∀ bank off, off < 0x1000 → off ∉ offs → getReg t bank off = getReg s bank off

namespace StoreKept
variable {offs : List Nat} {s t : State}

theorem refl (hr : Machine.rising s.regs = true) : StoreKept offs s s := ⟨rfl, fun _ => rfl, hr, fun _ _ _ _ => rfl⟩

/-- Changes of other fields. -/
theorem of_eq {u : State} (h : StoreKept offs s t) (hm : u.mem = t.mem) (hr : u.regs = t.regs) (hh : u.hbm = t.hbm) (hl : u.lpc = t.lpc) :
    StoreKept offs s u where
  mem := hm.trans h.mem
  poison c := by rw [← h.poison c, getCtl, getCtl, hh, hl]
  rising := hr ▸ h.rising
  regs b o ho hn := by rw [← h.regs b o ho hn, getReg, getReg, hr]

theorem setReg (h : StoreKept offs s t) (bank : Nat) {off : Nat} (v : Nat) (ho : off < 0x1000) (hm : off ∈ offs) :
    StoreKept offs s (setReg t bank off v) where
  mem := h.mem
  poison := h.poison
  rising := setReg_rising t h.rising bank off v
  regs b o hb hn := by
    have hne : (b, o) ≠ (bank, off) := fun e => hn ((Prod.mk.inj e).2 ▸ hm)
    rw [getReg_setReg_ne t h.rising v (regKey_ne hb ho hne), h.regs b o hb hn]

theorem countReg (h : StoreKept offs s t) (bank : Nat) {off : Nat} (n : Nat) (ho : off < 0x1000) (hm : off ∈ offs) :
    StoreKept offs s (countReg t bank off n) := by
  unfold Machine.countReg
  split
  · exact h
  · exact h.setReg bank _ ho hm

theorem setErr (h : StoreKept offs s t) (page b : Nat) (he : Reg.pageErr ∈ offs) (hc : Reg.pageErrCount ∈ offs) :
    StoreKept offs s (setErr t page b) :=
  (h.setReg page _ (by decide) he).countReg page 1 (by decide) hc

/-- A controller's other fields. -/
theorem setCtl (h : StoreKept offs s t) {c : Bool × Nat} {m : MemCtl} (hm : m.poison = (getCtl t c).poison) (hc : c.2 < 16) :
    StoreKept offs s (setCtl t c m) where
  mem := (setCtl_mem t c m).trans h.mem
  poison d := by
    rw [← h.poison d]
    by_cases hd : d = c
    · rw [hd, getCtl_setCtl_self t m hc, hm]
    · rw [getCtl_setCtl_ne t m hd]
  rising := (setCtl_regs t c m).symm ▸ h.rising
  regs b o hb hn := (getReg_setCtl t c m b o).trans (h.regs b o hb hn)

section
variable (htx : Reg.portTxFrames ∈ offs)
include htx

theorem hostPush (h : StoreKept offs s t) (x : HostSession) (m : OutMsg) : StoreKept offs s (hostPush t x m) := by
  unfold Machine.hostPush
  split
  · refine StoreKept.countReg ?_ _ 1 (by decide) htx
    exact h.of_eq rfl rfl rfl rfl
  · exact h.of_eq rfl rfl rfl rfl

theorem sendEvent (h : StoreKept offs s t) (e : Event) : StoreKept offs s (sendEvent t e) := by
  unfold Machine.sendEvent
  split
  · exact h
  · split
    · exact (hostPush htx h _ _).of_eq rfl rfl rfl rfl
    · exact h

/-- An event is queued and told to the host, or counted as lost (R358, R359). -/
theorem emit (h : StoreKept offs s t) (hlost : Reg.vyvEventsLost ∈ offs) (code page : Nat) (data : List Byte) :
    StoreKept offs s (emit t code page data) := by
  unfold Machine.emit
  split
  · exact h
  · dsimp only
    split
    · refine StoreKept.countReg ?_ _ 1 (by decide) hlost
      exact h.of_eq rfl rfl rfl rfl
    · refine sendEvent htx ?_ _
      exact h.of_eq rfl rfl rfl rfl

end

/-- A counter that was counted first stays counted (R467). -/
theorem getReg_counted {page off : Nat} (h : StoreKept offs (Machine.countReg s page off 1) t) (hr : Machine.rising s.regs = true)
    (ho : off < 0x1000) (hm : off ∉ offs) : getReg t page off = satAdd (regWidth page off) (getReg s page off) 1 :=
  (h.regs page off ho hm).trans (getReg_countReg_self hr page off Nat.one_ne_zero)

theorem noPoison (h : StoreKept offs s t) (hn : NoPoison s) : NoPoison t :=
  (noPoison_iff t).2 fun c => (h.poison c).trans ((noPoison_iff s).1 hn c)

theorem armedUnits (h : StoreKept offs s t) (hi : ∀ off ∈ injectOffs, off < 0x1000 ∧ off ∉ offs) (arm : Nat → Bool) (a n : Nat) :
    armedUnits t arm a n = armedUnits s arm a n :=
  armedUnits_congr (fun bank off hoff => h.regs bank off (hi off hoff).1 (hi off hoff).2) arm a n

end StoreKept

/-! ## Reads of device memory (R259, R260) -/

/-- The registers, beside the counts and PAGE_ERR, that the report of a read error writes: the last address, and those of the EVENT it sends. -/
def reportOffs : List Nat :=
  [Reg.hbmLastCeAddr, Reg.lpcLastCeAddr, Reg.hbmLastUeAddr, Reg.lpcLastUeAddr, Reg.portTxFrames, Reg.vyvEventsLost]

/-- The same with the registers of an error bit. -/
def errorReportOffs : List Nat := Reg.pageErr :: Reg.pageErrCount :: reportOffs

section
variable {s : State} {a : Nat}

/-- A correctable error of a row that is not due writes, beyond its count, the registers of its report alone. -/
theorem correctable_storeKept (hr : rising s.regs = true)
    (hdue : rowDue (trackRow (getCtl s (ctlOf a)).track (ctlRow a) (clockSec s)) (ctlRow a) = false) :
    StoreKept reportOffs (countReg s (ctlPage (ctlOf a)) (if (ctlOf a).1 then Reg.hbmCe else Reg.lpcCe) 1) (correctable s a) := by
  have hlast : ∀ b : Bool, (if b then Reg.hbmLastCeAddr else Reg.lpcLastCeAddr) < 0x1000 ∧
      (if b then Reg.hbmLastCeAddr else Reg.lpcLastCeAddr) ∈ reportOffs := by decide
  unfold correctable
  extract_lets c page counted noted m row track due logged told
  have hnoted : StoreKept reportOffs counted noted := (StoreKept.refl (countReg_rising hr _ _ _)).setReg _ _ (hlast _).1 (hlast _).2
  have hlogged : StoreKept reportOffs counted logged := hnoted.of_eq rfl rfl rfl rfl
  have htold : StoreKept reportOffs counted told := by
    unfold told
    split
    · exact hlogged.emit (by decide) (by decide) _ _ _
    · exact hlogged
  have hnotDue : ¬ due = true := by
    rw [show due = (rowDue track row && !ctlBusy m) from rfl, show rowDue track row = false from hdue]
    exact Bool.false_ne_true
  show StoreKept reportOffs counted _
  rw [if_neg hnotDue]
  split
  · exact hnoted
  · exact htold.setCtl ((hnoted.poison c).trans (htold.poison c).symm) (ctlOf_lt a)

theorem setErr_rising (h : rising s.regs = true) (page b : Nat) : rising (setErr s page b).regs = true :=
  countReg_rising (setReg_rising s h _ _ _) _ _ _

/-- An error bit set between changes that leave PAGE_ERR and its count alone is set and counted once (R466, R467). -/
theorem flagged_of_storeKept {before after : List Nat} {n t : State} {page b : Nat} (h : StoreKept before s n)
    (ht : StoreKept after (setErr n page b) t) (hb : Reg.pageErr ∉ before ∧ Reg.pageErrCount ∉ before)
    (ha : Reg.pageErr ∉ after ∧ Reg.pageErrCount ∉ after) : Flagged s t page b := by
  obtain ⟨-, ⟨herr, hcount⟩, -⟩ := setErr_errorOnly h.rising page b
  constructor
  · rw [ht.regs page _ (by decide) ha.1, herr, h.regs page _ (by decide) hb.1]
  · rw [ht.regs page _ (by decide) ha.2, hcount, h.regs page _ (by decide) hb.2]

/-- An uncorrectable error is counted and reported, and its unit is then poisoned (R260). -/
theorem uncorrectable_reported (hr : rising s.regs = true) :
    ∃ t, uncorrectable s a = poison t a ∧ Flagged s t (ctlPage (ctlOf a)) 0 ∧
      StoreKept errorReportOffs (countReg s (ctlPage (ctlOf a)) (if (ctlOf a).1 then Reg.hbmUe else Reg.lpcUe) 1) t := by
  have hue : ∀ b : Bool, (if b then Reg.hbmUe else Reg.lpcUe) < 0x1000 ∧
      (if b then Reg.hbmUe else Reg.lpcUe) ∈ Reg.hbmUe :: Reg.lpcUe :: reportOffs := by decide
  have hlast : ∀ b : Bool, (if b then Reg.hbmLastUeAddr else Reg.lpcLastUeAddr) < 0x1000 ∧
      (if b then Reg.hbmLastUeAddr else Reg.lpcLastUeAddr) ∈ reportOffs := by decide
  unfold uncorrectable
  extract_lets c page counted noted told
  have hnoted : StoreKept (Reg.hbmUe :: Reg.lpcUe :: reportOffs) s noted :=
    ((StoreKept.refl hr).countReg _ 1 (hue _).1 (hue _).2).setReg _ _ (hlast _).1
      (List.mem_cons_of_mem _ (List.mem_cons_of_mem _ (hlast _).2))
  have htold : StoreKept reportOffs (setErr noted page 0) told :=
    (StoreKept.refl (setErr_rising hnoted.rising page 0)).emit (by decide) (by decide) _ _ _
  refine ⟨told, rfl, flagged_of_storeKept hnoted htold (by decide) (by decide), ?_⟩
  have hcounted : StoreKept errorReportOffs counted counted := StoreKept.refl (countReg_rising hr _ _ _)
  exact ((hcounted.setReg _ _ (hlast _).1 (List.mem_cons_of_mem _ (List.mem_cons_of_mem _ (hlast _).2))).setErr page 0 (by decide)
    (by decide)).emit (by decide) (by decide) _ _ _

theorem poison_of_empty (h : (getCtl s (ctlOf a)).poison = []) :
    poison s a = setCtl s (ctlOf a) { getCtl s (ctlOf a) with poison := [unitAddr a] } := by
  simp [poison, h]

/-- A clean read that meets no armed error changes nothing (R270, R273). -/
theorem injected_clean (h : (injected s a .clean).2 = .clean) : injected s a .clean = (s, .clean) := by
  unfold injected at h ⊢
  dsimp only at h ⊢
  generalize getReg s _ (if (ctlOf a).1 then Reg.hbmInjectAddr else _) = armed at h ⊢
  generalize getReg s _ (if (ctlOf a).1 then Reg.hbmInject else _) = v at h ⊢
  by_cases hne : armed ≠ unitAddr a
  · exact if_pos hne
  · rw [if_neg hne] at h ⊢
    by_cases hue : v.testBit 1 = true
    · rw [if_pos hue] at h; cases h
    · rw [if_neg hue] at h ⊢
      by_cases hce : v.testBit 0 = true
      · rw [if_pos hce] at h; cases h
      · exact if_neg hce

theorem ctlRead_clean (h : (injected s a .clean).2 = .clean) : ctlRead s a .clean = s := by
  rw [ctlRead, injected_clean h]

theorem ctlRead_corrected (h : injected s a .corrected = (s, .corrected)) : ctlRead s a .corrected = correctable s a := by
  rw [ctlRead, h]

theorem ctlRead_uncorrectable (h : injected s a .uncorrectable = (s, .uncorrectable)) : ctlRead s a .uncorrectable = uncorrectable s a := by
  rw [ctlRead, h]

/-! ## Commands -/

variable {rq : Requester} {addr : Addr} {len : Nat}

theorem exec_memoryWrite (data : List Byte) (bad : List Nat) :
    exec (.memoryWrite rq addr data bad) s = .next (checkedWrite s rq addr.toNat data bad) := rfl

/-- A read within device memory, where no unit is armed once the controller has read the first: the bytes go to the requester, which fails its
check on a poisoned unit (R259, R260). -/
theorem exec_memoryRead_device {ecc : Ecc} (hd : deviceRangeOk addr.toNat len = true)
    (hu : armedUnits (ctlRead s addr.toNat ecc) armsRead addr.toNat len = []) :
    exec (.memoryRead rq addr len ecc) s = .next
      (if poisoned (ctlRead s addr.toNat ecc) addr.toNat len then
        requesterFailure { ctlRead s addr.toNat ecc with answer := memRead s.mem addr.toNat len } rq addr.toNat
      else { ctlRead s addr.toNat ecc with answer := memRead s.mem addr.toNat len }) := by
  show execMemoryRead rq addr len ecc s = _
  simp only [execMemoryRead, hd, if_true, armedReads, hu, List.foldl_nil]
  rfl

theorem exec_memoryRead_pantry (hd : deviceRangeOk addr.toNat len = false) (hp : pantryRangeOk s addr.toNat len = true) :
    exec (.memoryRead rq addr len .clean) s = .next { s with answer := memRead s.mem addr.toNat len } := by
  show execMemoryRead rq addr len .clean s = _
  simp only [execMemoryRead, hd, hp, Bool.false_eq_true, if_false, if_true, reduceCtorEq]

theorem exec_memoryRead_outside (ecc : Ecc) (hd : deviceRangeOk addr.toNat len = false) (hp : pantryRangeOk s addr.toNat len = false) :
    exec (.memoryRead rq addr len ecc) s = .next (setErr { s with answer := List.replicate len 0 } (rqPage s rq) errOutOfMap) := by
  show execMemoryRead rq addr len ecc s = _
  simp only [execMemoryRead, hd, hp, Bool.false_eq_true, if_false]

theorem requesterFailure_unit (s : State) (u : Fin 20) (a : Nat) : requesterFailure s (.unit u) a = s := rfl

/-- R258: a word with a wrong residue is stored, counted and reported to the unit that wrote it. -/
theorem writeCheck_unit (hr : rising s.regs = true) (u : Fin 20) :
    let page := ctlPage (ctlOf a)
    let checks := if (ctlOf a).1 then Reg.hbmWriteChecks else Reg.lpcWriteChecks
    writeCheck s (.unit u) a = { s with regs := (writeCheck s (.unit u) a).regs } ∧ Flagged s (writeCheck s (.unit u) a) page 1 ∧
      getReg (writeCheck s (.unit u) a) page checks = satAdd (regWidth page checks) (getReg s page checks) 1 := by
  intro page checks
  have hoff : ∀ b : Bool, (if b then Reg.hbmWriteChecks else Reg.lpcWriteChecks) < 0x1000 ∧
      (if b then Reg.hbmWriteChecks else Reg.lpcWriteChecks) ∈ [Reg.hbmWriteChecks, Reg.lpcWriteChecks] ∧
      (if b then Reg.hbmWriteChecks else Reg.lpcWriteChecks) ∉ [Reg.pageErr, Reg.pageErrCount] := by decide
  obtain ⟨hlt, hmem, hnot⟩ := hoff (ctlOf a).1
  have hr1 : rising (countReg s page checks 1).regs = true := countReg_rising hr page checks 1
  have hcounted : StoreKept [Reg.hbmWriteChecks, Reg.lpcWriteChecks] s (countReg s page checks 1) := (StoreKept.refl hr).countReg page 1 hlt hmem
  have hflagged : StoreKept [Reg.pageErr, Reg.pageErrCount] (countReg s page checks 1) (setErr (countReg s page checks 1) page 1) :=
    (StoreKept.refl hr1).setErr page 1 (by decide) (by decide)
  refine ⟨?_, flagged_of_storeKept hcounted (StoreKept.refl (offs := []) (setErr_rising hr1 page 1)) (by decide) (by decide), ?_⟩
  · show setErr (countReg s page checks 1) page 1 = _
    rw [(setErr_errorOnly hr1 page 1).1, countReg_fields]
    rfl
  · exact hflagged.getReg_counted hr hlt hnot

/-- R259: a correctable error of a row that is not due is counted, and the reader gets the corrected bytes. -/
theorem memoryRead_corrected (hr : rising s.regs = true) (hn : NoPoison s) (hd : deviceRangeOk addr.toNat len = true)
    (hu : armedUnits s armsRead addr.toNat len = []) (hi : injected s addr.toNat .corrected = (s, .corrected))
    (hdue : rowDue (trackRow (getCtl s (ctlOf addr.toNat)).track (ctlRow addr.toNat) (clockSec s)) (ctlRow addr.toNat) = false) :
    let page := ctlPage (ctlOf addr.toNat)
    let ce := if (ctlOf addr.toNat).1 then Reg.hbmCe else Reg.lpcCe
    Answers (.memoryRead rq addr len .corrected) s (fun t => t.answer = memRead s.mem addr.toNat len ∧ t.mem = s.mem ∧
      getReg t page ce = satAdd (regWidth page ce) (getReg s page ce) 1) := by
  intro page ce
  have hoff : ∀ b : Bool, (if b then Reg.hbmCe else Reg.lpcCe) < 0x1000 ∧ (if b then Reg.hbmCe else Reg.lpcCe) ∈ [Reg.hbmCe, Reg.lpcCe] ∧
      (if b then Reg.hbmCe else Reg.lpcCe) ∉ reportOffs := by decide
  obtain ⟨hlt, hmem, hnot⟩ := hoff (ctlOf addr.toNat).1
  have hcounted : StoreKept [Reg.hbmCe, Reg.lpcCe] s (countReg s page ce 1) := (StoreKept.refl hr).countReg page 1 hlt hmem
  have hread := correctable_storeKept hr hdue
  rw [← ctlRead_corrected hi] at hread
  have hunarmed : armedUnits (ctlRead s addr.toNat .corrected) armsRead addr.toNat len = [] := by
    rw [hread.armedUnits (by decide), hcounted.armedUnits (by decide), hu]
  refine ⟨_, exec_memoryRead_device hd hunarmed, ?_⟩
  rw [poisoned_of_noPoison (hread.noPoison (hcounted.noPoison hn)), if_neg Bool.false_ne_true]
  exact ⟨rfl, hread.mem.trans hcounted.mem, hread.getReg_counted hr hlt hnot⟩

/-- R260: an uncorrectable error is counted and reported and poisons its unit; an update unit that reads it acts itself. -/
theorem memoryRead_uncorrectable (hr : rising s.regs = true) (hn : NoPoison s) (hd : deviceRangeOk addr.toNat len = true)
    (hu : armedUnits s armsRead addr.toNat len = []) (hi : injected s addr.toNat .uncorrectable = (s, .uncorrectable)) (u : Fin 20) :
    let c := ctlOf addr.toNat
    let page := ctlPage c
    let ue := if c.1 then Reg.hbmUe else Reg.lpcUe
    Answers (.memoryRead (.unit u) addr len .uncorrectable) s (fun t => t.answer = memRead s.mem addr.toNat len ∧ t.mem = s.mem ∧
      Flagged s t page 0 ∧ getReg t page ue = satAdd (regWidth page ue) (getReg s page ue) 1 ∧ (getCtl t c).poison = [unitAddr addr.toNat]) := by
  intro c page ue
  have hoff : ∀ b : Bool, (if b then Reg.hbmUe else Reg.lpcUe) < 0x1000 ∧ (if b then Reg.hbmUe else Reg.lpcUe) ∈ [Reg.hbmUe, Reg.lpcUe] ∧
      (if b then Reg.hbmUe else Reg.lpcUe) ∉ errorReportOffs := by decide
  obtain ⟨hlt, hmem, hnot⟩ := hoff (ctlOf addr.toNat).1
  have hcounted : StoreKept [Reg.hbmUe, Reg.lpcUe] s (countReg s page ue 1) := (StoreKept.refl hr).countReg page 1 hlt hmem
  obtain ⟨t, ht, hflag, hreport⟩ := uncorrectable_reported (a := addr.toNat) hr
  have hempty : (getCtl t c).poison = [] := (hreport.poison c).trans ((hcounted.poison c).trans ((noPoison_iff s).1 hn c))
  have hread : ctlRead s addr.toNat .uncorrectable = setCtl t c { getCtl t c with poison := [unitAddr addr.toNat] } := by
    rw [ctlRead_uncorrectable hi, ht, poison_of_empty hempty]
  have hregs : ∀ bank off, getReg (ctlRead s addr.toNat .uncorrectable) bank off = getReg t bank off := fun bank off => by
    rw [hread, getReg_setCtl]
  have hunarmed : armedUnits (ctlRead s addr.toNat .uncorrectable) armsRead addr.toNat len = [] := by
    rw [armedUnits_congr (fun bank off _ => hregs bank off), hreport.armedUnits (by decide), hcounted.armedUnits (by decide), hu]
  refine ⟨_, exec_memoryRead_device hd hunarmed, ?_⟩
  rw [requesterFailure_unit, ite_self]
  refine ⟨rfl, ?_, ⟨(hregs page _).trans hflag.1, (hregs page _).trans hflag.2⟩, ?_, ?_⟩
  · show (ctlRead s addr.toNat .uncorrectable).mem = s.mem
    rw [hread, setCtl_mem, hreport.mem, hcounted.mem]
  · exact (hregs page ue).trans (hreport.getReg_counted hr hlt hnot)
  · show (getCtl (ctlRead s addr.toNat .uncorrectable) c).poison = _
    rw [hread, getCtl_setCtl_self t _ (ctlOf_lt addr.toNat)]

end

/-- Settles O42: each clause is the rule of its outcome, with the memory written or read as it stands and the registers of the report. -/
theorem memoryIsReadAndWritten : Obligations.MemoryIsReadAndWritten := by
  unfold Obligations.MemoryIsReadAndWritten
  intro s rq addr data len hs hn
  obtain ⟨hmem, hr, -⟩ := safe_tables hs
  intro a c page ce ue checks outside written
  have hwritten : written { s with mem := memWrite s.mem a data } := memWritten_memWrite hmem rfl
  refine ⟨fun hd hi => ⟨?_, ?_⟩, fun hd hp => ?_, fun hout bad => ?_, fun hd hu hi => ?_, fun hd hu hi hdue => ?_, fun u hd hu hi hrq => ?_,
    fun hd hp => ?_, fun hout ecc => ?_⟩
  · exact ⟨_, exec_memoryWrite data [], by rw [checkedWrite_device hd hi hn]; exact ⟨rfl, hwritten⟩⟩
  · rintro u w ws rfl
    obtain ⟨hkeeps, hflag, hcount⟩ := writeCheck_unit (s := { s with mem := memWrite s.mem a data }) (a := a) hr u
    refine ⟨_, exec_memoryWrite data (w :: ws), ?_⟩
    rw [checkedWrite_device hd hi hn]
    exact ⟨hkeeps, memWritten_memWrite hmem (congrArg State.mem hkeeps), hflag, hcount⟩
  · exact ⟨_, exec_memoryWrite data [], by rw [checkedWrite_pantry hd hp hn]; exact ⟨rfl, hwritten⟩⟩
  · exact ⟨_, exec_memoryWrite data bad, by rw [checkedWrite_outside hout.1 hout.2]; exact setErr_errorOnly hr _ _⟩
  · have hread : ctlRead s a .clean = s := ctlRead_clean hi
    refine ⟨_, exec_memoryRead_device hd (hread.symm ▸ hu), ?_⟩
    rw [hread, poisoned_of_noPoison hn, if_neg Bool.false_ne_true]
  · exact memoryRead_corrected hr hn hd hu hi hdue
  · exact hrq ▸ memoryRead_uncorrectable hr hn hd hu hi u
  · exact ⟨_, exec_memoryRead_pantry hd hp, rfl⟩
  · exact ⟨_, exec_memoryRead_outside ecc hout.1 hout.2, setErr_errorOnly (s := { s with answer := List.replicate len 0 }) hr _ _⟩

end Sys2Proof.Machine
end

section
/-!
What an engine's last beat leaves behind (R48, R51, R77, R101, R110, R165): the effects of a completion, one rule per kind, and what a beat of a
pass, a load, a turn and a call leaves alone.
-/
namespace Sys2Proof.Machine

/-! ## Parts of a hamper -/

theorem setH_getH (s : State) (lh : Fin 48) : setH s lh (getH s lh) = s := by
  have : s.hampers.setIfInBounds lh.val (getH s lh) = s.hampers := by
    ext i hi : 1
    by_cases h : lh.val = i
    · subst h
      simp [getH]
    · rw [Vector.getElem_setIfInBounds_ne hi h]
  rw [setH, this]

theorem getFrame_congr {h k : Hamper} (e : h.frames = k.frames) (f : Nat) : getFrame h f = getFrame k f := by
  rw [getFrame, e, getFrame]

theorem getH_modFrame_ne (s : State) {lh l : Nat} (f : Nat) (g : Frame → Frame) (hl : l ≠ lh) : getH (modFrame s lh f g) l = getH s l :=
  getH_setH_ne s _ hl

theorem setIfInBounds_fin {α : Type} {n : Nat} (v : Vector α n) (i : Fin n) (x : α) : v.setIfInBounds i x = v.set i x := by
  ext j hj : 1
  rw [Vector.getElem_setIfInBounds hj]
  exact (Vector.getElem_set i.isLt hj).symm

theorem modFrame_eq (s : State) (lh : Nat) (f : Fin 3) (g : Frame → Frame) :
    modFrame s lh f g = setH s lh { getH s lh with frames := (getH s lh).frames.set f (g (getFrame (getH s lh) f)) } := by
  rw [modFrame, modH_eq, setIfInBounds_fin]
  rfl

/-- A frame written is the frame read. -/
theorem getFrame_modFrame (s : State) (lh : Fin 48) (f : Fin 3) (g : Frame → Frame) :
    getFrame (getH (modFrame s lh f g) lh) f = g (getFrame (getH s lh) f) := by
  rw [modFrame_eq, getH_setH_fin]
  simp [getFrame]

theorem getH_setErr (s : State) (page b lh : Nat) : getH (setErr s page b) lh = getH s lh := by
  rw [setErr, getH_countReg, getH_setReg]

/-! ## Effects of a completion -/

section
variable {s : State} {lh : Nat}

theorem applyEffs_append (es fs : List Eff) : applyEffs s lh (es ++ fs) = applyEffs (applyEffs s lh es) lh fs := List.foldl_append

theorem completeWith_none (lh : Fin 48) : completeWith s lh .none_ = s := by
  show setH s lh { getH s lh with writes := (getH s lh).writes ++ [], bursts := (getH s lh).bursts ++ [] } = s
  rw [List.append_nil, List.append_nil]
  exact setH_getH s lh

/-- Effects that follow an operation's own, and that hold no burst, are applied after it. -/
theorem completeWith_eff (o : Out) {es : List Eff} (hb : burstsOf es = []) :
    completeWith s lh (o.app (.eff es)) = applyEffs (completeWith s lh o) lh es := by
  have happ : burstsOf (o.effs ++ es) = burstsOf o.effs := by
    rw [burstsOf, List.filterMap_append, ← burstsOf, ← burstsOf, hb, List.append_nil]
  simp only [completeWith, Out.app, Out.eff, happ, List.append_nil, applyEffs_append]

/-- Values for registers of a block that lie side by side are there afterwards. -/
theorem getReg_applyEffs_reg {q : List Instr} {p : Part} {D : Vector Nat 4 → Prop} (hk : Kept q p D s) {sub base : Nat} (v : Nat → Nat) {n : Nat}
    (hn : base + 8 * n ≤ 0x1000) {j : Nat} (hj : j < n) :
    getReg (applyEffs s lh ((List.range n).map fun j => .reg sub (base + 8 * j) (v j))) (lbank lh sub) (base + 8 * j) = v j := by
  induction n with
  | zero => exact absurd hj (Nat.not_lt_zero j)
  | succ n ih =>
    have hr := (applyEffs_kept (lh := lh) (es := (List.range n).map fun j => .reg sub (base + 8 * j) (v j)) hk).regs_rising
    rw [List.range_succ, List.map_append, applyEffs_append]
    show getReg (setReg _ (lbank lh sub) (base + 8 * n) (v n)) _ _ = _
    by_cases h : j = n
    · rw [h, getReg_setReg_self _ hr]
    · have hne : regKey (lbank lh sub) (base + 8 * j) ≠ regKey (lbank lh sub) (base + 8 * n) := by unfold regKey; omega
      rw [getReg_setReg_ne _ hr _ hne, ih (by omega) (by omega)]

/-- An effect on the stored registers alone, by a count or a value. -/
def Eff.Stores : Eff → Prop
  | .count _ _ _ | .reg _ _ _ => True
  | _ => False

theorem getH_applyEffs_stores {es : List Eff} (h : ∀ e ∈ es, e.Stores) (l : Nat) : getH (applyEffs s lh es) l = getH s l := by
  induction es generalizing s with
  | nil => rfl
  | cons e es ih =>
    obtain ⟨he, hes⟩ := List.forall_mem_cons.1 h
    refine (ih (s := applyEff s lh e) hes).trans ?_
    cases e with
    | count sub off n => exact getH_countReg s _ off n l
    | reg sub off v => rfl
    | _ => exact he.elim

end

/-- An effect that sets an error bit or counts, in registers at the offsets of offs or in the step's counts. -/
def Eff.Reports (offs : List Nat) : Eff → Prop
  | .err _ _ => Reg.pageErr ∈ offs ∧ Reg.pageErrCount ∈ offs
  | .count _ off _ => off < 0x1000 ∧ off ∈ offs
  | .counts _ _ => True
  | _ => False

/-- t has the frames of hamper lh, the other hampers and the memory of s, and its registers but for those at the offsets of offs. -/
structure ReportKept (lh : Nat) (offs : List Nat) (s t : State) : Prop where
  store : StoreKept offs s t
  others : ∀ l, l ≠ lh → getH t l = getH s l
  frames : (getH t lh).frames = (getH s lh).frames

namespace ReportKept
variable {lh : Fin 48} {offs : List Nat} {s t : State}

theorem setH (h : ReportKept lh offs s t) {k : Hamper} (hf : k.frames = (getH t lh).frames) : ReportKept lh offs s (setH t lh k) where
  store := h.store.of_eq rfl rfl rfl rfl
  others l hl := (getH_setH_ne t k hl).trans (h.others l hl)
  frames := by rw [getH_setH_fin, hf, h.frames]

theorem applyEff (h : ReportKept lh offs s t) {e : Eff} (he : e.Reports offs) : ReportKept lh offs s (applyEff t lh e) := by
  cases e with
  | err sub b =>
    exact ⟨h.store.setErr _ b he.1 he.2, fun l hl => (getH_setErr t _ b l).trans (h.others l hl), (congrArg _ (getH_setErr t _ b lh)).trans h.frames⟩
  | count sub off n =>
    exact ⟨h.store.countReg _ n he.1 he.2, fun l hl => (getH_countReg t _ off n l).trans (h.others l hl),
      (congrArg _ (getH_countReg t _ off n lh)).trans h.frames⟩
  | counts win k => exact h.setH rfl
  | _ => exact he.elim

theorem applyEffs (h : ReportKept lh offs s t) {es : List Eff} (he : ∀ e ∈ es, e.Reports offs) : ReportKept lh offs s (applyEffs t lh es) := by
  induction es generalizing t with
  | nil => exact h
  | cons e es ih =>
    obtain ⟨h1, h2⟩ := List.forall_mem_cons.1 he
    exact ih (h.applyEff h1) h2

end ReportKept

/-- A completion whose effects are reports keeps the frames as the operation left them. -/
theorem completeWith_reportKept {s : State} {lh : Fin 48} {o : Out} {offs : List Nat} (hr : rising s.regs = true)
    (he : ∀ e ∈ o.effs, e.Reports offs) : ReportKept lh offs s (completeWith s lh o) := by
  have h : ReportKept lh offs s s := ⟨.refl hr, fun _ _ => rfl, rfl⟩
  refine ReportKept.applyEffs ?_ he
  exact h.setH rfl

/-! ## A beat of a load, a turn, a pass and a call -/

/-- The offsets of the registers that the feeder's work on a load or a turn counts in. -/
def feedOffs : List Nat :=
  [Reg.pageErr, Reg.pageErrCount, Reg.feedConverted, Reg.feedNonfin, Reg.feedSat, Reg.feedLines]

theorem reports_effIf {c : Bool} {e : Eff} {offs : List Nat} (h : e.Reports offs) : ∀ x ∈ effIf c e, x.Reports offs := by
  cases c with
  | false => exact List.forall_mem_nil _
  | true => exact List.forall_mem_singleton.2 h

theorem reports_feedCounts (tag : OpTag) (n : Nat) (c : Counts) : ∀ e ∈ feedCounts tag n c, e.Reports feedOffs := by
  simp [feedCounts, Eff.Reports, feedOffs, Reg.feedConverted, Reg.feedNonfin, Reg.feedSat]

section
variable (env : EngEnv) (f : Nat) (fr : Frame)

theorem loadBeat_reports (l : LoadRun) : ∀ e ∈ (loadBeat env f fr l).2.effs, e.Reports feedOffs := by
  unfold loadBeat
  split
  · exact List.forall_mem_nil _
  · refine List.forall_mem_append.2 ⟨List.forall_mem_append.2 ⟨reports_effIf ?_, reports_feedCounts _ _ _⟩, List.forall_mem_singleton.2 ?_⟩
    · exact (by decide : Reg.pageErr ∈ feedOffs ∧ Reg.pageErrCount ∈ feedOffs)
    · exact (by decide : Reg.feedLines < 0x1000 ∧ Reg.feedLines ∈ feedOffs)

theorem loadBeat_loads (l : LoadRun) : (loadBeat env f fr l).1.loads = fr.loads := by
  unfold loadBeat
  split <;> rfl

theorem loadBeat_refused {l : LoadRun} (h : l.refused = true) : loadBeat env f fr l = (fr, .none_) := by
  rw [loadBeat, h]
  rfl

theorem turnBeat_reports (u : TurnRun) : ∀ e ∈ (turnBeat env f fr u).2.effs, e.Reports feedOffs := by
  unfold turnBeat
  dsimp only
  split
  · exact List.forall_mem_nil _
  · refine List.forall_mem_append.2 ⟨reports_effIf ?_, List.forall_mem_singleton.2 ?_⟩
    · exact (by decide : Reg.pageErr ∈ feedOffs ∧ Reg.pageErrCount ∈ feedOffs)
    · exact (by decide : Reg.feedLines < 0x1000 ∧ Reg.feedLines ∈ feedOffs)

theorem modBuf_turns (b : Nat) (g : TurnBuf → TurnBuf) : (modBuf fr b g).turns = fr.turns := by
  unfold modBuf
  split <;> rfl

theorem turnBeat_turns (u : TurnRun) : (turnBeat env f fr u).1.turns = fr.turns := by
  unfold turnBeat
  dsimp only
  split
  · rfl
  · exact modBuf_turns _ _ _

end

/-- A fold whose every step keeps a part of its value keeps that part. -/
theorem foldl_keeps {α β γ : Type} (part : α → γ) {g : α → β → α} (h : ∀ a b, part (g a b) = part a) (l : List β) (a : α) :
    part (l.foldl g a) = part a := by
  induction l generalizing a with
  | nil => rfl
  | cons b l ih => exact (ih (g a b)).trans (h a b)

/-- Of two values that agree in a part, either has it. -/
theorem ite_keeps {α γ : Type} (part : α → γ) {c : Prop} [Decidable c] {a b : α} {x : γ} (ha : part a = x) (hb : part b = x) :
    part (if c then a else b) = x := by
  split
  · exact ha
  · exact hb

namespace PassRun

/-- What the start of a pass settles about its summary: whether it is refused, and the window it was issued in. -/
def verdict (p : PassRun) : Bool × OpTag := (p.refused, p.tag)

variable (env : EngEnv) (f : Nat)

theorem addTrans_verdict (p : PassRun) (c : Nat × List Nat) : (addTrans env p c).verdict = p.verdict := by
  apply foldl_keeps verdict
  exact fun _ _ => rfl

theorem feedBeat_verdict (p : PassRun) : (feedBeat env f p).1.verdict = p.verdict := by
  unfold feedBeat
  split
  · rfl
  · extract_lets t reads lines newMasked p0 done
    have h0 : p0.verdict = p.verdict := by
      unfold p0
      split
      · exact foldl_keeps verdict (addTrans_verdict env) _ p
      · rfl
    refine Eq.trans ?_ h0
    refine foldl_keeps (fun a : PassRun × Counts => a.1.verdict) (g := _) ?_ done (p0, noCounts)
    exact fun _ _ => rfl

theorem rodBeat_verdict (fr : Frame) (p : PassRun) (n : Nat) : (rodBeat env f fr p n).2.1.verdict = p.verdict := by
  have keeps {c : Prop} [Decidable c] {a b : Frame × PassRun × List Eff} (ha : a.2.1.verdict = p.verdict) (hb : b.2.1.verdict = p.verdict) :
      (if c then a else b).2.1.verdict = p.verdict := ite_keeps (fun a : Frame × PassRun × List Eff => a.2.1.verdict) ha hb
  refine keeps rfl (keeps rfl (keeps ?_ (keeps rfl rfl)))
  dsimp only
  split <;> rfl

theorem drainBeat_verdict (fr : Frame) (p : PassRun) (j : Nat) : (drainBeat env f fr p j).2.1.verdict = p.verdict := by
  unfold drainBeat
  split
  · rfl
  · extract_lets d zero fmt idx rods cols es rnd
    split
    · rfl
    · generalize drainConvert fmt _ = c
      rfl

theorem passBeat_verdict (fr : Frame) (p : PassRun) : (passBeat env f fr p).2.1.verdict = p.verdict := by
  unfold passBeat
  split
  · rfl
  · split
    rename_i p1 o1 hfeed
    split
    rename_i fr2 p2 e2 hrods
    split
    rename_i fr3 p3 o3 hdrains
    have h1 : p1.verdict = p.verdict := (congrArg (verdict ·.1) hfeed).symm.trans (feedBeat_verdict env f p)
    have h2 : p2.verdict = p1.verdict := by
      refine (congrArg (verdict ·.2.1) hrods).symm.trans (foldl_keeps (fun a : Frame × PassRun × List Eff => a.2.1.verdict) ?_ _ _)
      exact fun a n => rodBeat_verdict env f a.1 a.2.1 n
    have h3 : p3.verdict = p2.verdict := by
      refine (congrArg (verdict ·.2.1) hdrains).symm.trans (foldl_keeps (fun a : Frame × PassRun × Out => a.2.1.verdict) ?_ _ _)
      exact fun a j => drainBeat_verdict env f a.1 a.2.1 j
    exact (h3.trans h2).trans h1

end PassRun

namespace VecRun
variable (env : EngEnv)

theorem vecFetch_tag (v : VecRun) : (vecFetch env v).1.tag = v.tag := by
  unfold vecFetch
  dsimp only
  split <;> rfl

theorem vecInstr_tag (inject : Option Nat) (d : CallDesc) (p : VPos) (v : VecRun) (i : RInstr) : (vecInstr env inject d p v i).1.tag = v.tag := by
  have keeps {c : Prop} [Decidable c] {a b : VecRun × Out × Bool} (ha : a.1.tag = v.tag) (hb : b.1.tag = v.tag) :
      (if c then a else b).1.tag = v.tag := ite_keeps (fun a : VecRun × Out × Bool => a.1.tag) ha hb
  have hldm : (vecLdm env d p v i).tag = v.tag := ite_keeps VecRun.tag rfl rfl
  exact keeps rfl (keeps rfl (keeps hldm (keeps rfl (keeps rfl (keeps rfl (keeps rfl (keeps rfl rfl)))))))

theorem groupCheck_tag (n : Nat) (v : VecRun) : (groupCheck env n v).1.tag = v.tag := by
  unfold groupCheck
  split <;> rfl

theorem vecWork_tag (inject : Option Nat) (d : CallDesc) (v : VecRun) (p : VPos) (i : RInstr) : (vecWork env inject d v p i).1.tag = v.tag := by
  unfold vecWork
  extract_lets n fresh cleared lastJ lastG
  have hfresh : fresh.tag = v.tag := ite_keeps VecRun.tag rfl rfl
  have hcleared : cleared.tag = fresh.tag := ite_keeps VecRun.tag rfl rfl
  have hcheck (w : VecRun) : (if lastJ then groupCheck env n w else (w, [])).1.tag = w.tag :=
    ite_keeps (fun a : VecRun × List Eff => a.1.tag) (groupCheck_tag env n w) rfl
  have hphase (w : VecRun) : (if lastG then phaseEnd w p.instrs else w).tag = w.tag := ite_keeps VecRun.tag rfl rfl
  have hrow (w : VecRun) : (if lastG && (p.phase + 1 == (splitPhases (w.code.map rdecode)).length) then rowEnd w else (w, [])).1.tag = w.tag :=
    ite_keeps (fun a : VecRun × List Eff => a.1.tag) rfl rfl
  exact (hrow _).trans ((hphase _).trans ((hcheck _).trans ((vecInstr_tag env inject d p cleared i).trans (hcleared.trans hfresh))))

theorem vecBeat_tag (inject : Option Nat) (v : VecRun) : (vecBeat env inject v).1.tag = v.tag := by
  unfold vecBeat
  dsimp only
  split
  · rfl
  split
  · rfl
  split
  · exact vecFetch_tag env v
  split
  · rfl
  split
  · rfl
  split
  · rfl
  split
  · rfl
  · exact vecWork_tag env inject _ v _ _

end VecRun

/-! ## Commands -/

section
variable {s : State} {lh : Fin 48} {f : Fin 3}

/-- A safe state keeps its own queue, part and tables. -/
theorem kept_of_safe (hs : s.safe = true) : Kept s.pending s.part (fun _ => True) s := by
  rw [State.safe, Bool.and_eq_true] at hs
  exact ⟨rfl, rfl, hs.1, trivial⟩

theorem exec_passComplete {p : PassRun} (hn : (getH s lh).core.stopped = false)
    (hp : (getFrame (getH s lh) f).passes.find? (passDue · (beatOf s lh)) = some p) :
    exec (.passComplete lh f) s = .next
      (let fr := getFrame (getH s lh) f
       let b := passBeat (engEnv s lh []) f fr p
       completeWith (modFrame s lh f fun _ => { b.1 with
         passes := b.1.passes.map fun q => if q.b0 = p.b0 ∧ passDue q (beatOf s lh) then (postPass f b.2.1).1 else q }) lh
         (b.2.2.app (postPass f b.2.1).2)) := by
  show execPassComplete lh f s = _
  simp only [execPassComplete, inTail, hn, hp, Bool.false_eq_true, if_false]

theorem exec_loadComplete {l : LoadRun} (hn : (getH s lh).core.stopped = false) (hl : (getFrame (getH s lh) f).loads = [l])
    (hd : l.done = false) (hb : l.b0 + 127 = beatOf s lh) :
    exec (.loadComplete lh f) s = .next
      (let b := loadBeat (engEnv s lh []) f (getFrame (getH s lh) f) l
       completeWith (modFrame s lh f fun _ => { b.1 with loads := [{ l with done := true }] }) lh b.2) := by
  show execLoadComplete lh f s = _
  have hfind : [l].find? (fun l => !l.done && l.b0 + 127 == beatOf s lh) = some l := by simp [hd, hb]
  simp only [execLoadComplete, inTail, hn, hl, hfind, Bool.false_eq_true, if_false, loadBeat_loads, List.map_cons, List.map_nil, if_true]

theorem exec_turnComplete {u : TurnRun} (hn : (getH s lh).core.stopped = false) (hu : (getFrame (getH s lh) f).turns = [u])
    (hd : u.done = false) (hb : u.b0 + 127 = beatOf s lh) :
    exec (.turnComplete lh f) s = .next
      (let b := turnBeat (engEnv s lh []) f (getFrame (getH s lh) f) u
       completeWith (modFrame s lh f fun _ => { b.1 with turns := [{ u with done := true }] }) lh
         (b.2.app (.eff [.count feederSub Reg.feedTurns (bit (!u.refused))]))) := by
  show execTurnComplete lh f s = _
  have hfind : [u].find? (fun u => !u.done && u.b0 + 127 == beatOf s lh) = some u := by simp [hd, hb]
  simp only [execTurnComplete, inTail, hn, hu, hfind, Bool.false_eq_true, if_false, turnBeat_turns, List.map_cons, List.map_nil, if_true]

theorem exec_vcallComplete {v : VecRun} (hn : (getH s lh).core.stopped = false)
    (hv : (getH s lh).vec.find? (vecDue · (beatOf s lh)) = some v) :
    exec (.vcallComplete lh) s = .next
      (let b := vecBeat (engEnv s lh []) (getH s lh).vecInject v
       completeWith (modH s lh fun h => { h with
         vec := h.vec.map fun x => if vecDue x (beatOf s lh) then (postVec b.1).1 else x
         vecInject := if b.2.2 then none else h.vecInject }) lh (b.2.1.app (postVec b.1).2)) := by
  show execVcallComplete lh s = _
  simp only [execVcallComplete, inTail, hn, hv, Bool.false_eq_true, if_false]

/-- What a pass posts in its last beat (R165). -/
def passSummary (p : PassRun) : DrainSum := if p.refused then { DrainSum.zero with malformed := true } else p.sum_

theorem drains_postPass (u : State) (o : Out) {p : PassRun} (hw : p.tag.win = false) :
    (getH (completeWith u lh (o.app (postPass f p).2)) lh).core.drains[f] = passSummary p := by
  rw [postPass, completeWith_eff o rfl]
  generalize completeWith u lh o = w
  show (getH (countReg (setH w lh { getH w lh with core := postDrain (getH w lh).core f p.tag.win (passSummary p) }) _ _ _) lh).core.drains[f] = _
  rw [getH_countReg, getH_setH_fin, hw]
  show ((getH w lh).core.drains.setIfInBounds f (passSummary p))[f] = passSummary p
  rw [setIfInBounds_fin]
  exact Vector.getElem_set_self f.isLt

/-- R165: a pass posts its drain summary in its last beat, whatever else its work did. -/
theorem passComplete_drains {p : PassRun} (hn : (getH s lh).core.stopped = false)
    (hp : (getFrame (getH s lh) f).passes.find? (passDue · (beatOf s lh)) = some p) (hw : p.tag.win = false) :
    Answers (.passComplete lh f) s (fun t => (getH t lh).core.drains[f] =
      if p.refused then { DrainSum.zero with malformed := true }
      else (passBeat (engEnv s lh []) f (getFrame (getH s lh) f) p).2.1.sum_) := by
  refine ⟨_, exec_passComplete hn hp, ?_⟩
  obtain ⟨hrefused, htag⟩ := Prod.mk.inj (PassRun.passBeat_verdict (engEnv s lh []) f (getFrame (getH s lh) f) p)
  rw [← hrefused]
  exact drains_postPass _ _ (htag ▸ hw)

/-- R165: a refused pass posts MALFORMED and is done; nothing else changes. -/
theorem passComplete_refused {p : PassRun} (hn : (getH s lh).core.stopped = false) (hp : (getFrame (getH s lh) f).passes = [p])
    (hd : passDue p (beatOf s lh) = true) (hr : p.refused = true) (hw : p.tag.win = false) :
    exec (.passComplete lh f) s = .next (setH s lh { getH s lh with
      frames := (getH s lh).frames.set f { getFrame (getH s lh) f with passes := [{ p with done := true }] }
      core := { (getH s lh).core with drains := (getH s lh).core.drains.set f { DrainSum.zero with malformed := true } } }) := by
  have hfind : (getFrame (getH s lh) f).passes.find? (passDue · (beatOf s lh)) = some p := by simp [hp, hd]
  have hbeat : passBeat (engEnv s lh []) f (getFrame (getH s lh) f) p = (getFrame (getH s lh) f, p, .none_) := by rw [passBeat, if_pos hr]
  rw [exec_passComplete hn hfind]
  simp only [hbeat, hp, List.map_cons, List.map_nil, hd, and_self, if_true]
  rw [postPass, completeWith_eff _ rfl, completeWith_none, modFrame_eq]
  simp [applyEffs, applyEff, hr, hw, postDrain, countLh, countReg, bit, setIfInBounds_fin]

/-- A frame written by a completion whose effects are reports. -/
theorem completeWith_modFrame {o : Out} {offs : List Nat} (hr : rising s.regs = true) (he : ∀ e ∈ o.effs, e.Reports offs) (fr : Frame) :
    let t := completeWith (modFrame s lh f fun _ => fr) lh o
    getFrame (getH t lh) f = fr ∧ (∀ x, x ≠ lh.val → getH t x = getH s x) ∧ StoreKept offs s t := by
  intro t
  have hk : ReportKept lh offs (modFrame s lh f fun _ => fr) t := completeWith_reportKept hr he
  refine ⟨(getFrame_congr hk.frames f).trans (getFrame_modFrame s lh f _), fun x hx => (hk.others x hx).trans (getH_modFrame_ne s f _ hx), ?_⟩
  exact ⟨hk.store.mem, hk.store.poison, hk.store.rising, hk.store.regs⟩

/-- R48: a load leaves its frame as its last row gives it. -/
theorem loadComplete_answers {l : LoadRun} (hr : rising s.regs = true) (hn : (getH s lh).core.stopped = false)
    (hl : (getFrame (getH s lh) f).loads = [l]) (hd : l.done = false) (hb : l.b0 + 127 = beatOf s lh) :
    Answers (.loadComplete lh f) s (fun t =>
      getFrame (getH t lh) f = { (loadBeat (engEnv s lh []) f (getFrame (getH s lh) f) l).1 with loads := [{ l with done := true }] } ∧
      t.mem = s.mem ∧ (∀ x, x ≠ lh.val → getH t x = getH s x) ∧ (l.refused = true → t = { s with hampers := t.hampers })) := by
  refine ⟨_, exec_loadComplete hn hl hd hb, ?_⟩
  obtain ⟨hframe, hothers, hstore⟩ := completeWith_modFrame (lh := lh) (f := f) hr (loadBeat_reports (engEnv s lh []) f (getFrame (getH s lh) f) l) _
  refine ⟨hframe, hstore.mem, hothers, fun hx => ?_⟩
  simp only [loadBeat_refused _ _ _ hx]
  rw [completeWith_none]
  rfl

/-- R77: a turn leaves its frame as its last row gives it, and is counted. -/
theorem turnComplete_answers {u : TurnRun} (hr : rising s.regs = true) (hn : (getH s lh).core.stopped = false)
    (hu : (getFrame (getH s lh) f).turns = [u]) (hd : u.done = false) (hb : u.b0 + 127 = beatOf s lh) (hperf : u.refused = false) :
    Answers (.turnComplete lh f) s (fun t =>
      getFrame (getH t lh) f = { (turnBeat (engEnv s lh []) f (getFrame (getH s lh) f) u).1 with turns := [{ u with done := true }] } ∧
      t.mem = s.mem ∧ (∀ x, x ≠ lh.val → getH t x = getH s x) ∧
      getReg t (lbank lh feederSub) Reg.feedTurns =
        satAdd (regWidth (lbank lh feederSub) Reg.feedTurns) (getReg s (lbank lh feederSub) Reg.feedTurns) 1) := by
  have hcount (t : State) (o : Out) : completeWith t lh (o.app (.eff [.count feederSub Reg.feedTurns (bit (!u.refused))])) =
      countReg (completeWith t lh o) (lbank lh feederSub) Reg.feedTurns 1 := by rw [hperf]; exact completeWith_eff o rfl
  refine ⟨_, (exec_turnComplete hn hu hd hb).trans (congrArg _ (hcount _ _)), ?_⟩
  obtain ⟨hframe, hothers, hstore⟩ := completeWith_modFrame (lh := lh) (f := f) hr (turnBeat_reports (engEnv s lh []) f (getFrame (getH s lh) f) u)
    { (turnBeat (engEnv s lh []) f (getFrame (getH s lh) f) u).1 with turns := [{ u with done := true }] }
  refine ⟨?_, ?_, fun x hx => ?_, ?_⟩
  · rw [getH_countReg]
    exact hframe
  · rw [countReg_fields]
    exact hstore.mem
  · rw [getH_countReg]
    exact hothers x hx
  · rw [getReg_countReg_self hstore.rising _ _ Nat.one_ne_zero, hstore.regs _ _ (by decide) (by decide)]

/-- What a call posts in its last beat (R110). -/
def callSummary (v : VecRun) : VecSum := if v.refused then { VecSum.zero with malformed := true } else v.sum_

/-- The counts of a call that ends (R116). -/
def callCounts (v : VecRun) : List Eff :=
  [.count vectorSub Reg.vecCalls 1,
   .count vectorSub Reg.vecElements (match v.d with
    | some d => if v.refused then 0 else d.rows * d.rowLen
    | none => 0),
   .count vectorSub Reg.vecNonfin (callSummary v).snonfin, .count vectorSub Reg.vecSat (callSummary v).ssat,
   .count vectorSub Reg.vecMaskedRows (callSummary v).smrows]

/-- The values of the VEC_LAST_SUMMARY registers (R116). -/
def summaryRegs (n : Nat) : List Eff :=
  (List.range 4).map fun j => .reg vectorSub (Reg.vecLastSummary + 8 * j) (bits n (64 * j + 63) (64 * j))

theorem postVec_eq (v : VecRun) : postVec v = ({ v with done := true },
    .eff ([.vecSum v.tag.win (callSummary v)] ++ callCounts v ++ summaryRegs (packVecSum (callSummary v)))) := rfl

theorem bits_word (n j : Nat) : bits n (64 * j + 63) (64 * j) = n / 2 ^ (64 * j) % 2 ^ 64 := by
  rw [bits, Nat.shiftRight_eq_div_pow, show 64 * j + 63 + 1 - 64 * j = 64 by omega]

/-- R110: a call posts its vector summary, and the VEC_LAST_SUMMARY registers show it. -/
theorem postVec_posts {q : List Instr} {p : Part} {D : Vector Nat 4 → Prop} {u : State} (hk : Kept q p D u) (o : Out) {v : VecRun}
    (hw : v.tag.win = false) :
    let t := completeWith u lh (o.app (postVec v).2)
    (getH t lh).core.vsum = callSummary v ∧ ∀ j : Fin 4, getReg t (lbank lh vectorSub) (Reg.vecLastSummary + 8 * j) =
      packVecSum (callSummary v) / 2 ^ (64 * j.val) % 2 ^ 64 := by
  intro t
  have ht : t = applyEffs (applyEffs (applyEff (completeWith u lh o) lh (.vecSum v.tag.win (callSummary v))) lh (callCounts v)) lh
      (summaryRegs (packVecSum (callSummary v))) := by
    unfold t
    rw [postVec_eq, completeWith_eff o rfl, applyEffs_append, applyEffs_append]
    rfl
  have hstores : ∀ e ∈ summaryRegs (packVecSum (callSummary v)), e.Stores := by
    intro e he
    obtain ⟨j, -, rfl⟩ := List.mem_map.1 he
    trivial
  refine ⟨?_, fun j => ?_⟩
  · rw [ht, getH_applyEffs_stores hstores, getH_applyEffs_stores (by simp [callCounts, Eff.Stores])]
    show (getH (setH _ lh { getH _ lh with core := postVsum (getH _ lh).core v.tag.win (callSummary v) }) lh).core.vsum = _
    rw [getH_setH_fin, hw]
    rfl
  · rw [ht, ← bits_word]
    exact getReg_applyEffs_reg (applyEffs_kept (applyEff_kept (completeWith_kept hk))) (fun j => bits _ (64 * j + 63) (64 * j)) (by decide) j.isLt

end

/-- Settles O23: each clause is the rule of its engine's last beat; what the beat keeps of the operation's record says what is posted. -/
theorem engineCompletionsPostTheirResults : Obligations.EngineCompletionsPostTheirResults := by
  unfold Obligations.EngineCompletionsPostTheirResults
  intro s lh f hs h fr t0 env hn
  obtain ⟨-, hr, -⟩ := safe_tables hs
  refine ⟨fun p hp hw => passComplete_drains hn hp hw, fun p hp hd hrefused hw => ?_, fun l hl hd hb => loadComplete_answers hr hn hl hd hb,
    fun u hu hd hb hperf => turnComplete_answers hr hn hu hd hb hperf, fun v hv hw => ?_⟩
  · exact ⟨_, passComplete_refused hn hp hd hrefused hw, rfl, fun l hl => getH_setH_ne s _ hl, getH_setH_fin s lh _⟩
  · exact ⟨_, exec_vcallComplete hn hv, postVec_posts (modH_kept (kept_of_safe hs)) _ ((VecRun.vecBeat_tag env h.vecInject v).symm ▸ hw)⟩

end Sys2Proof.Machine
end

section
/-!
Expert registers that arm an injection or start a self-test (R17, R68, R116, R145, R270, R273, R402, R472): what their page's lock decides, and
what each write does on an unlocked page.
-/
namespace Sys2Proof.Machine

/-! ## Expert registers (R15, R17) -/

/-- Row d of the register map stands at an offset past the common header, and is a 32-bit expert register (R15). -/
structure ExpertRow (page off : Nat) (d : RegDesc) : Prop where
  row : regAt page off = some d
  acc : d.acc = .rwx
  narrow : d.wide = false
  aligned : off % 4 = 0
  past : headerEnd ≤ off
  inPage : off < 0x1000

/-- A command on an expert field of a page: EXPERT_DENIED alone while the page is locked, and post of the state after while it is unlocked. -/
def ExpertAnswers (s : State) (page : Nat) (i : Instr) (post : State → Prop) : Prop :=
  ((getFlags s page).unlocked = false → Answers i s (fun t => ErrorOnly s t page errExpertDenied)) ∧
  ((getFlags s page).unlocked = true → Answers i s post)

section
variable {s : State} {page off : Nat} {i : Instr} {post : State → Prop}

/-- A command that writes an expert field (R17). -/
theorem expertOnly_answers {f : State → State} (hr : rising s.regs = true) (h : exec i s = .next (expertOnly s page f)) (hpost : post (f s)) :
    ExpertAnswers s page i post := by
  refine ⟨fun hl => ⟨_, h, ?_⟩, fun hl => ⟨_, h, ?_⟩⟩
  · rw [expertOnly, hl]
    exact setErr_errorOnly hr page errExpertDenied
  · rw [expertOnly, hl]
    exact hpost

/-- An expert register of a page that is present is written while the page is unlocked, and denied otherwise. -/
theorem rowWrite_expert {ok : Nat → Bool} {d : RegDesc} (hd : ExpertRow page off d) (hok : ok page = true) (hp : pagePresent s page = true)
    (v : Nat) : rowWrite s ok page off false v = expertOnly s page fun s => writeReg s page off (v % 2 ^ 32 &&& d.mask) := by
  have hk : page < 0x10000 := by
    obtain ⟨hty, -⟩ := Bool.and_eq_true _ _ ▸ hp
    obtain ⟨⟨ty, i⟩, ht⟩ := Option.isSome_iff_exists.1 hty
    exact Nat.lt_trans (pageType_bounds ht).1 (by decide)
  have hacc : accessAt s (regAddr page off) false = .reg page off d := by
    rw [accessAt_regAddr hp hk hd.inPage, accessIn_of_regAt hd.aligned hd.row, if_pos hd.narrow]
  simp only [rowWrite, hok, if_true, regWrite, hacc, hd.acc, expertOnly, Bool.false_eq_true, if_false]
  split <;> rfl

/-- A command that writes an expert register. -/
theorem rowWrite_answers {ok : Nat → Bool} {d : RegDesc} (hd : ExpertRow page off d) (hok : ok page = true) (hp : pagePresent s page = true)
    (hr : rising s.regs = true) {v : Nat} (hi : exec i s = .next (rowWrite s ok page off false v))
    (hpost : post (writeReg s page off (v % 2 ^ 32 &&& d.mask))) :
    ExpertAnswers s page i post :=
  expertOnly_answers hr (hi.trans (congrArg _ (rowWrite_expert hd hok hp v))) hpost

end

/-- A bit that a mask lets through. -/
theorem testBit_masked (n : Nat) {m k : Nat} (hm : m.testBit k = true) (hk : k < 32) : (n % 2 ^ 32 &&& m).testBit k = n.testBit k := by
  rw [Nat.testBit_and, Nat.testBit_mod_two_pow, hm, decide_eq_true hk, Bool.true_and, Bool.and_true]

/-- The low bits that a mask lets through. -/
theorem masked_mod (n : Nat) {m k : Nat} (hm : m % 2 ^ k = 2 ^ k - 1) (hk : k ≤ 32) : (n % 2 ^ 32 &&& m) % 2 ^ k = n % 2 ^ k := by
  rw [Nat.and_mod_two_pow, hm, Nat.and_two_pow_sub_one_eq_mod, Nat.mod_mod, Nat.mod_mod_of_dvd _ (Nat.pow_dvd_pow 2 hk)]

/-! ## Hamper pages (R180, R458) -/

theorem pageType_hamper {h sub : Nat} (hh : h < 48) (hs : sub < 9) :
    pageType (0x100 + 0x10 * h + sub) = some (if sub < 6 then (13 + sub, h) else (19, 3 * h + (sub - 6))) := by
  have hdiv : (0x100 + 0x10 * h + sub - 0x100) / 16 = h := by omega
  have hmod : (0x100 + 0x10 * h + sub) % 16 = sub := by omega
  unfold pageType
  rw [if_neg (by omega), if_neg (by omega), if_neg (by omega), if_neg (by omega), if_neg (by omega), if_neg (by omega), if_pos (by omega)]
  simp only [hdiv, hmod, hs, if_true]
  split <;> rfl

/-- The blocks of the three FRAME pages of a hamper (R458). -/
theorem frameBlock_cases {sub : Nat} (h6 : 6 ≤ sub) (h9 : sub < 9) : sub = 6 ∨ sub = 7 ∨ sub = 8 := by omega

theorem logicalsOf_lt {s : State} {h l : Nat} (hl : l ∈ logicalsOf s h) : l < 48 := List.mem_range.1 (List.mem_filter.1 hl).1

/-- HAM_LSEL selects one of the 48 logical hampers. -/
theorem lselOf_lt (s : State) (page : Nat) : lselOf s page < 48 := by
  have hgetD (i : Nat) : (logicalsOf s (physOfPage page)).getD i 0 < 48 := by
    rw [List.getD_eq_getElem?_getD]
    cases hi : (logicalsOf s (physOfPage page))[i]? with
    | none => decide
    | some l => exact logicalsOf_lt (List.mem_of_getElem? hi)
  unfold lselOf
  dsimp only
  split
  · exact hgetD _
  · rw [List.headD_eq_head?_getD, List.head?_eq_getElem?, ← List.getD_eq_getElem?_getD]
    exact hgetD 0

namespace PageOf
variable {s : State} {h sub page : Nat}

theorem sub_lt (hp : PageOf s h sub page) : sub < 9 := by
  obtain ⟨-, hs, -, -⟩ := hp
  exact hs

theorem mod_eq (hp : PageOf s h sub page) : page % 16 = sub := by
  obtain ⟨rfl, hs, -, -⟩ := hp
  omega

theorem phys_eq (hp : PageOf s h sub page) : physOfPage page = h := by
  obtain ⟨rfl, hs, -, -⟩ := hp
  unfold physOfPage
  omega

theorem present (hp : PageOf s h sub page) : pagePresent s page = true := by
  have hphys : (page - 0x100) / 16 = h := hp.phys_eq
  obtain ⟨rfl, hs, hh, hon⟩ := hp
  rw [pagePresent, pageType_hamper hh hs, hphys, List.contains_iff_mem.2 hon, Bool.or_true]
  rfl

theorem isSub_self (hp : PageOf s h sub page) : isSub sub page = true := by
  have hmod := hp.mod_eq
  obtain ⟨rfl, hs, hh, -⟩ := hp
  simp only [isSub, hmod, beq_self_eq_true, Bool.and_true, Bool.and_eq_true, decide_eq_true_eq]
  omega

theorem isFramePage (hp : PageOf s h sub page) (h6 : 6 ≤ sub) : isFramePage page = true := by
  have hself := hp.isSub_self
  have hs := hp.sub_lt
  obtain rfl | rfl | rfl := frameBlock_cases h6 hs
  all_goals simp only [Machine.isFramePage, hself, Bool.true_or, Bool.or_true]

/-- The register map of a hamper page is that of its block. -/
theorem bankRegs_eq (hp : PageOf s h sub page) : bankRegs page = bankRegs (0x100 + sub) := by
  obtain ⟨rfl, hs, hh, -⟩ := hp
  have h1 : ¬ 0x1000 ≤ 0x100 + 0x10 * h + sub := by omega
  simp only [bankRegs, if_neg h1, pageType_hamper hh hs]
  obtain rfl | rfl | rfl | rfl | rfl | rfl | rfl | rfl | rfl :
      sub = 0 ∨ sub = 1 ∨ sub = 2 ∨ sub = 3 ∨ sub = 4 ∨ sub = 5 ∨ sub = 6 ∨ sub = 7 ∨ sub = 8 := by omega
  all_goals rfl

theorem regAt_eq (hp : PageOf s h sub page) (off : Nat) : regAt page off = regAt (0x100 + sub) off := by
  rw [regAt, regDesc, hp.bankRegs_eq, ← regDesc, ← regAt]

/-- A write past the common header of a hamper page. -/
theorem writeReg_eq (hp : PageOf s h sub page) {off : Nat} (ho : headerEnd ≤ off) (v : Nat) : writeReg s page off v = hamperWrite s page off v := by
  obtain ⟨rfl, hs, hh, -⟩ := hp
  have harb : hasArb (0x100 + 0x10 * h + sub) = false := by
    simp only [hasArb, mgmtPage, Bool.or_eq_false_iff, beq_eq_false_iff_ne]
    omega
  have hham : isHamperPage (0x100 + 0x10 * h + sub) = true := decide_eq_true (by omega)
  simp only [writeReg, if_neg (Nat.not_lt.2 ho), inArbBlock, harb, hham, Bool.false_and, Bool.false_eq_true, if_false, if_true]

/-- A command that writes an expert register of a hamper page. -/
theorem answers (hp : PageOf s h sub page) {off : Nat} {d : RegDesc} (hd : ExpertRow (0x100 + sub) off d) {ok : Nat → Bool} (hok : ok page = true)
    (hr : rising s.regs = true) {i : Instr} {v : Nat} (hi : exec i s = .next (rowWrite s ok page off false v)) {post : State → Prop}
    (hpost : post (hamperWrite s page off (v % 2 ^ 32 &&& d.mask))) :
    ExpertAnswers s page i post :=
  rowWrite_answers { hd with row := (hp.regAt_eq off).trans hd.row } hok hp.present hr hi (hp.writeReg_eq hd.past _ ▸ hpost)

end PageOf

/-! ## Injections (R68, R116, R472) -/

/-- The row of FRAME_INJECT. -/
def frameInjectRow : RegDesc := ⟨"FRAME_INJECT", Reg.frameInject, 1, 0, false, .rwx, 0x17F, 0x0⟩

/-- The row of FRAME_BIST. -/
def frameBistRow : RegDesc := ⟨"FRAME_BIST", Reg.frameBist, 1, 0, false, .rwx, 0x1, 0x0⟩

/-- The row of VEC_INJECT. -/
def vecInjectRow : RegDesc := ⟨"VEC_INJECT", Reg.vecInject, 1, 0, false, .rwx, 0x1FF, 0x0⟩

/-- The row of VEC_BIST. -/
def vecBistRow : RegDesc := ⟨"VEC_BIST", Reg.vecBist, 1, 0, false, .rwx, 0x1, 0x0⟩

/-- The row of FEED_INJECT. -/
def feedInjectRow : RegDesc := ⟨"FEED_INJECT", Reg.feedInject, 1, 0, false, .rwx, 0x1, 0x0⟩

/-- The row of HBM_INJECT. -/
def hbmInjectRow : RegDesc := ⟨"HBM_INJECT", Reg.hbmInject, 1, 0, false, .rwx, 0x7, 0x0⟩

/-- The row of LPC_INJECT. -/
def lpcInjectRow : RegDesc := ⟨"LPC_INJECT", Reg.lpcInject, 1, 0, false, .rwx, 0x7, 0x0⟩

theorem frameInject_expert {sub : Nat} (h6 : 6 ≤ sub) (h9 : sub < 9) : ExpertRow (0x100 + sub) Reg.frameInject frameInjectRow := by
  refine ⟨?_, rfl, rfl, by decide, by decide, by decide⟩
  obtain rfl | rfl | rfl := frameBlock_cases h6 h9 <;> rfl

theorem frameBist_expert {sub : Nat} (h6 : 6 ≤ sub) (h9 : sub < 9) : ExpertRow (0x100 + sub) Reg.frameBist frameBistRow := by
  refine ⟨?_, rfl, rfl, by decide, by decide, by decide⟩
  obtain rfl | rfl | rfl := frameBlock_cases h6 h9 <;> rfl

theorem vecInject_expert : ExpertRow 0x102 Reg.vecInject vecInjectRow := ⟨rfl, rfl, rfl, by decide, by decide, by decide⟩

theorem vecBist_expert : ExpertRow 0x102 Reg.vecBist vecBistRow := ⟨rfl, rfl, rfl, by decide, by decide, by decide⟩

theorem feedInject_expert : ExpertRow 0x101 Reg.feedInject feedInjectRow := ⟨rfl, rfl, rfl, by decide, by decide, by decide⟩

/-- The HBMC pages (R458). -/
theorem pageType_hbmcPage (c : Fin 16) : pageType (hbmcPage c) = some (10, c.val) := by
  have hc := c.isLt
  unfold pageType hbmcPage
  rw [if_neg (by omega), if_neg (by omega), if_neg (by omega), if_pos (by omega), Nat.add_sub_cancel_left]

/-- The LPC pages (R458). -/
theorem pageType_lpcPage (c : Fin 16) : pageType (lpcPage c) = some (11, c.val) := by
  have hc := c.isLt
  unfold pageType lpcPage
  rw [if_neg (by omega), if_neg (by omega), if_neg (by omega), if_neg (by omega), if_pos (by omega), Nat.add_sub_cancel_left]

theorem bankRegs_hbmcPage (c : Fin 16) : bankRegs (hbmcPage c) = hbmcRegs ++ arbiterRegs := by
  have hlow : ¬ 0x1000 ≤ hbmcPage c := by unfold hbmcPage; omega
  simp only [bankRegs, if_neg hlow, pageType_hbmcPage]

theorem bankRegs_lpcPage (c : Fin 16) : bankRegs (lpcPage c) = lpcRegs ++ arbiterRegs := by
  have hlow : ¬ 0x1000 ≤ lpcPage c := by unfold lpcPage; omega
  simp only [bankRegs, if_neg hlow, pageType_lpcPage]

theorem hbmInject_expert (c : Fin 16) : ExpertRow (hbmcPage c) Reg.hbmInject hbmInjectRow := by
  refine ⟨?_, rfl, rfl, by decide, by decide, by decide⟩
  rw [regAt, regDesc, bankRegs_hbmcPage]
  rfl

theorem lpcInject_expert (c : Fin 16) : ExpertRow (lpcPage c) Reg.lpcInject lpcInjectRow := by
  refine ⟨?_, rfl, rfl, by decide, by decide, by decide⟩
  rw [regAt, regDesc, bankRegs_lpcPage]
  rfl

/-- A page below the hamper pages is present when its type is known. -/
theorem pagePresent_of_type {page ty i : Nat} (s : State) (ht : pageType page = some (ty, i)) (hlow : page < 0x100) : pagePresent s page = true := by
  rw [pagePresent, ht, decide_eq_true hlow]
  rfl

theorem writeReg_hbmInject (s : State) (c : Fin 16) (v : Nat) : writeReg s (hbmcPage c) Reg.hbmInject v = setReg s (hbmcPage c) Reg.hbmInject v := by
  have hham : isHamperPage (hbmcPage c) = false := decide_eq_false (by unfold hbmcPage; omega)
  have harb : inArbBlock (hbmcPage c) Reg.hbmInject = false := Bool.and_false _
  rw [writeReg, typeInst, pageType_hbmcPage, Option.getD_some, hham, harb]
  rfl

theorem writeReg_lpcInject (s : State) (c : Fin 16) (v : Nat) : writeReg s (lpcPage c) Reg.lpcInject v = setReg s (lpcPage c) Reg.lpcInject v := by
  have hham : isHamperPage (lpcPage c) = false := decide_eq_false (by unfold lpcPage; omega)
  have harb : inArbBlock (lpcPage c) Reg.lpcInject = false := Bool.and_false _
  rw [writeReg, typeInst, pageType_lpcPage, Option.getD_some, hham, harb]
  rfl

section
variable {s : State} {h sub page : Nat}

theorem hamperWrite_frame (hp : PageOf s h sub page) (h6 : 6 ≤ sub) (v : Nat) :
    hamperWrite s page Reg.frameInject v = frameInjectWrite s page v ∧ hamperWrite s page Reg.frameBist v = frameBistWrite s page v := by
  have h9 := hp.sub_lt
  have hmod := hp.mod_eq
  unfold hamperWrite
  rw [hmod]
  obtain rfl | rfl | rfl := frameBlock_cases h6 h9 <;> exact ⟨rfl, rfl⟩

theorem hamperWrite_vector (hp : PageOf s h 2 page) (v : Nat) :
    hamperWrite s page Reg.vecInject v = vecInjectWrite s page v ∧ hamperWrite s page Reg.vecBist v = vecBistWrite s page v := by
  unfold hamperWrite
  rw [hp.mod_eq]
  exact ⟨rfl, rfl⟩

theorem hamperWrite_feeder (hp : PageOf s h 1 page) (v : Nat) :
    hamperWrite s page Reg.feedInject v = modH s (lselOf s page) (fun h => { h with feedInject := v.testBit 0 }) := by
  unfold hamperWrite
  rw [hp.mod_eq]
  rfl

/-- A register of a hamper's bank set and the hamper changed: nothing else. -/
theorem setReg_setH_keeps (hr : rising s.regs = true) {lh : Nat} (hl : lh < 48) (bank off v : Nat) (k : Hamper) :
    let t := setH (setReg s bank off v) lh k
    t = { s with hampers := t.hampers, regs := t.regs } ∧ getReg t bank off = v ∧ (∀ l, l ≠ lh → getH t l = getH s l) ∧ getH t lh = k :=
  ⟨rfl, getReg_setReg_self s hr bank off v, fun _ hne => getH_setH_ne _ k hne, getH_setH _ k hl⟩

/-- What an injection of the columns or lanes below n arms: bit 8 of the value written arms its low bits (R68, R116). -/
def armedBy (v : W32) (n : Nat) : Option Nat := if v.getLsbD 8 then some (v.toNat % n) else none

/-- R68: FRAME_INJECT keeps its column, and bit 8 arms it. -/
theorem frameInject_answers (hp : PageOf s h sub page) (h6 : 6 ≤ sub) (hr : rising s.regs = true) (v : W32) :
    let lh := lselOf s page
    ExpertAnswers s page (.frameInject page v) (fun t => t = { s with hampers := t.hampers, regs := t.regs } ∧
      getReg t (lbank lh sub) Reg.frameInject = v.toNat % 128 ∧ (∀ l, l ≠ lh → getH t l = getH s l) ∧
      let fr := getFrame (getH s lh) (sub - 6)
      getH t lh = { getH s lh with frames := (getH s lh).frames.setIfInBounds (sub - 6) { fr with inject := armedBy v 128 } }) := by
  refine hp.answers (frameInject_expert h6 hp.sub_lt) (hp.isFramePage h6) hr rfl ?_
  have hlow : (v.toNat % 2 ^ 32 &&& 0x17F) % 128 = v.toNat % 128 := masked_mod v.toNat (k := 7) rfl (by decide)
  have harm : (v.toNat % 2 ^ 32 &&& 0x17F).testBit 8 = v.getLsbD 8 := testBit_masked v.toNat (by decide) (by decide)
  rw [(hamperWrite_frame hp h6 _).1, frameInjectWrite, hp.mod_eq]
  simp only [frameInjectRow, hlow, harm]
  exact setReg_setH_keeps hr (lselOf_lt s page) _ _ _ _

/-- R116: VEC_INJECT keeps its lane, and bit 8 arms it. -/
theorem vecInject_answers (hp : PageOf s h 2 page) (hr : rising s.regs = true) (v : W32) :
    let lh := lselOf s page
    ExpertAnswers s page (.vecInject page v) (fun t => t = { s with hampers := t.hampers, regs := t.regs } ∧
      getReg t (lbank lh 2) Reg.vecInject = v.toNat % 256 ∧ (∀ l, l ≠ lh → getH t l = getH s l) ∧
      getH t lh = { getH s lh with vecInject := armedBy v 256 }) := by
  refine hp.answers vecInject_expert hp.isSub_self hr rfl ?_
  have hlow : (v.toNat % 2 ^ 32 &&& 0x1FF) % 256 = v.toNat % 256 := masked_mod v.toNat (k := 8) rfl (by decide)
  have harm : (v.toNat % 2 ^ 32 &&& 0x1FF).testBit 8 = v.getLsbD 8 := testBit_masked v.toNat (by decide) (by decide)
  rw [(hamperWrite_vector hp _).1, vecInjectWrite]
  simp only [vecInjectRow, hlow, harm]
  exact setReg_setH_keeps hr (lselOf_lt s page) _ _ _ _

/-- R472: FEED_INJECT arms the next load check. -/
theorem feedInject_answers (hp : PageOf s h 1 page) (hr : rising s.regs = true) (v : W32) :
    let lh := lselOf s page
    ExpertAnswers s page (.feedInject page v) (fun t => HamperBecomes s t lh { getH s lh with feedInject := v.getLsbD 0 }) := by
  refine hp.answers feedInject_expert hp.isSub_self hr rfl ?_
  have harm : (v.toNat % 2 ^ 32 &&& 0x1).testBit 0 = v.getLsbD 0 := testBit_masked v.toNat (by decide) (by decide)
  rw [hamperWrite_feeder hp]
  simp only [feedInjectRow, harm]
  exact ⟨rfl, getH_setH s _ (lselOf_lt s page), fun l hl => getH_setH_ne s _ hl⟩

/-- R270, R273: an injection register of a memory controller takes its three bits. -/
theorem ctlInject_answers {i : Instr} {off : Nat} {d : RegDesc} (hd : ExpertRow page off d) (hmask : d.mask = 0x7)
    (hpresent : pagePresent s page = true) (hr : rising s.regs = true) {v : W32}
    (hi : exec i s = .next (rowWrite s (fun _ => true) page off false v.toNat)) (hwrite : ∀ n, writeReg s page off n = setReg s page off n) :
    ExpertAnswers s page i (fun t => SetsOnly s t page off (v.toNat % 8)) := by
  refine rowWrite_answers hd rfl hpresent hr hi ?_
  have hlow : v.toNat % 2 ^ 32 &&& 0x7 = v.toNat % 8 := mod_and_lowMask v.toNat (k := 3) rfl (by decide)
  rw [hmask, hlow, hwrite]
  exact setReg_setsOnly hr page off _

theorem hbmInject_answers (c : Fin 16) (hr : rising s.regs = true) (v : W32) :
    ExpertAnswers s (hbmcPage c) (.hbmInject c v) (fun t => SetsOnly s t (hbmcPage c) Reg.hbmInject (v.toNat % 8)) := by
  have hlow : hbmcPage c < 0x100 := by unfold hbmcPage; omega
  exact ctlInject_answers (hbmInject_expert c) rfl (pagePresent_of_type s (pageType_hbmcPage c) hlow) hr rfl (writeReg_hbmInject s c)

theorem lpcInject_answers (c : Fin 16) (hr : rising s.regs = true) (v : W32) :
    ExpertAnswers s (lpcPage c) (.lpcInject c v) (fun t => SetsOnly s t (lpcPage c) Reg.lpcInject (v.toNat % 8)) := by
  have hlow : lpcPage c < 0x100 := by unfold lpcPage; omega
  exact ctlInject_answers (lpcInject_expert c) rfl (pagePresent_of_type s (pageType_lpcPage c) hlow) hr rfl (writeReg_lpcInject s c)

/-! ## Self-tests (R68, R116, R145) -/

/-- What a write of n to a self-test register does: START starts the test while the block is idle, and nothing happens otherwise. -/
def Starts (s : State) (page off n : Nat) (idle : Prop) (t : State) : Prop :=
  (n % 2 = 1 ∧ idle → SetsOnly s t page off 1) ∧ (¬ (n % 2 = 1 ∧ idle) → t = s)

theorem startBist_starts (hr : rising s.regs = true) {off w n : Nat} {b : Bool} {idle : Prop} (hw : w.testBit 0 = n.testBit 0)
    (hb : b = true ↔ idle) : Starts s page off n idle (startBist s page off w b) := by
  have hc : (w.testBit 0 && b) = true ↔ n % 2 = 1 ∧ idle := by rw [Bool.and_eq_true, hw, Nat.testBit_zero, decide_eq_true_eq, hb]
  refine ⟨fun h => ?_, fun h => ?_⟩
  · rw [startBist, if_pos (hc.2 h)]
    exact setReg_setsOnly hr page off 1
  · rw [startBist, if_neg (mt hc.1 h)]

theorem frameBist_answers (hp : PageOf s h sub page) (h6 : 6 ≤ sub) (hr : rising s.regs = true) (v : W32) :
    ExpertAnswers s page (.frameBist page v) (Starts s page Reg.frameBist v.toNat
      (∀ l ∈ logicalsOf s h, frameState (getFrame (getH s l) (sub - 6)) (beatOf s l) = 0)) := by
  refine hp.answers (frameBist_expert h6 hp.sub_lt) (hp.isFramePage h6) hr rfl ?_
  rw [(hamperWrite_frame hp h6 _).2, frameBistWrite, hp.mod_eq, hp.phys_eq]
  exact startBist_starts hr (testBit_masked v.toNat rfl (by decide)) (by simp only [List.all_eq_true, beq_iff_eq])

theorem vecBist_answers (hp : PageOf s h 2 page) (hr : rising s.regs = true) (v : W32) :
    ExpertAnswers s page (.vecBist page v) (Starts s page Reg.vecBist v.toNat
      (∀ l ∈ logicalsOf s h, callRunning (getH s l) (beatOf s l) = none)) := by
  refine hp.answers vecBist_expert hp.isSub_self hr rfl ?_
  rw [(hamperWrite_vector hp _).2, vecBistWrite, hp.phys_eq]
  exact startBist_starts hr (testBit_masked v.toNat rfl (by decide)) (by simp only [List.all_eq_true, Option.isNone_iff_eq_none])

theorem updBist_answers (u : Fin 20) (hr : rising s.regs = true) (v : W32) :
    ExpertAnswers s (updPage u) (.updBist u v) (Starts s (updPage u) Reg.updBist v.toNat ((getUnit s u).active = false)) :=
  expertOnly_answers hr rfl (startBist_starts hr rfl (by rw [Bool.not_eq_true']))

/-- The end of a self-test. -/
theorem exec_bistComplete {off : Nat} (ho : bistReg page = some off) (good : Bool) :
    exec (.bistComplete page good) s =
      .next (if (getReg s page off).testBit 0 then setReg s page off (2 + 4 * bit good) else s) := by
  show execBistComplete page good s = _
  rw [execBistComplete, ho]

end

/-- Settles O35: each clause is the rule of its register; the lock of its page alone decides whether the write is denied. -/
theorem injectionsAndSelfTestsAreArmed : Obligations.InjectionsAndSelfTestsAreArmed := by
  unfold Obligations.InjectionsAndSelfTestsAreArmed
  intro s h sub page v hs
  obtain ⟨-, hr, -⟩ := safe_tables hs
  refine ⟨fun hp h6 => ⟨frameInject_answers hp h6 hr v, frameBist_answers hp h6 hr v⟩,
    fun hp => ⟨vecInject_answers hp hr v, vecBist_answers hp hr v⟩, fun hp => feedInject_answers hp hr v,
    fun c => ⟨hbmInject_answers c hr v, lpcInject_answers c hr v⟩, fun u => ⟨?_, updBist_answers u hr v⟩, fun d => ?_,
    fun pg off good ho => ⟨fun hrun => ?_, fun hrun => ?_⟩⟩
  · exact expertOnly_answers hr rfl (setReg_setsOnly hr (updPage u) Reg.updInject (v.toNat % 2))
  · exact expertOnly_answers hr rfl (setReg_setsOnly hr (ramblerPage d) Reg.rmbInject (v.toNat % 2))
  · exact ⟨_, exec_bistComplete ho good, by rw [if_pos hrun]; exact setReg_setsOnly hr pg off _⟩
  · exact ⟨_, exec_bistComplete ho good, by rw [hrun]; rfl⟩

end Sys2Proof.Machine
end

section
/-!
What the last beat of a push or a pop leaves behind, and what the arrivals of an extension entry change (R82–R86): the lines of the last beat,
the effects of each completion, and the top of the stack.
-/
namespace Sys2Proof.Machine

/-! ## Effects that leave the hampers alone -/

theorem countReg_hampers (s : State) (bank off n : Nat) : (countReg s bank off n).hampers = s.hampers := by rw [countReg_fields]

theorem countReg_mem (s : State) (bank off n : Nat) : (countReg s bank off n).mem = s.mem := by rw [countReg_fields]

theorem hostPush_hampers (s : State) (x : HostSession) (m : OutMsg) : (hostPush s x m).hampers = s.hampers := by
  unfold hostPush
  split
  · exact countReg_hampers _ _ _ _
  · rfl

theorem sendEvent_hampers (s : State) (e : Event) : (sendEvent s e).hampers = s.hampers := by
  unfold sendEvent
  split
  · rfl
  · split
    · exact hostPush_hampers s _ _
    · rfl

theorem emit_hampers (s : State) (code page : Nat) (data : List Byte) : (emit s code page data).hampers = s.hampers := by
  unfold emit
  split
  · rfl
  · dsimp only
    split
    · exact countReg_hampers _ _ _ _
    · exact sendEvent_hampers _ _

/-- An effect that counts at an offset of offs, or tells the host of an event. -/
def Eff.Tells (offs : List Nat) : Eff → Prop
  | .count _ off _ => off < 0x1000 ∧ off ∈ offs
  | .event _ _ _ => Reg.portTxFrames ∈ offs ∧ Reg.vyvEventsLost ∈ offs
  | _ => False

section
variable {s : State} {lh : Nat} {offs : List Nat}

theorem applyEffs_cons (e : Eff) (es : List Eff) : applyEffs s lh (e :: es) = applyEffs (applyEff s lh e) lh es := List.foldl_cons

theorem applyEff_tells {t : State} (h : StoreKept offs s t) {e : Eff} (he : e.Tells offs) :
    StoreKept offs s (applyEff t lh e) ∧ (applyEff t lh e).hampers = t.hampers := by
  cases e with
  | count sub off n => exact ⟨h.countReg _ n he.1 he.2, countReg_hampers _ _ _ _⟩
  | event code sub data => exact ⟨h.emit he.1 he.2 _ _ _, emit_hampers _ _ _ _⟩
  | _ => exact he.elim

theorem applyEffs_tells {t : State} (h : StoreKept offs s t) {es : List Eff} (he : ∀ e ∈ es, e.Tells offs) :
    StoreKept offs s (applyEffs t lh es) ∧ (applyEffs t lh es).hampers = t.hampers := by
  induction es generalizing t with
  | nil => exact ⟨h, rfl⟩
  | cons e es ih =>
    obtain ⟨h1, h2⟩ := List.forall_mem_cons.1 he
    obtain ⟨hstore, hhampers⟩ := applyEff_tells (lh := lh) h h1
    obtain ⟨hstore', hhampers'⟩ := ih hstore h2
    exact ⟨hstore', hhampers'.trans hhampers⟩

/-- A counter that counts on by one, before effects that leave it alone (R467). -/
theorem applyEffs_count_tells (hr : rising s.regs = true) {sub off : Nat} {es : List Eff} (he : ∀ e ∈ es, e.Tells offs) (ho : off < 0x1000)
    (hm : off ∉ offs) :
    let t := applyEffs s lh (.count sub off 1 :: es)
    t.mem = s.mem ∧ t.hampers = s.hampers ∧
      getReg t (lbank lh sub) off = satAdd (regWidth (lbank lh sub) off) (getReg s (lbank lh sub) off) 1 := by
  intro t
  obtain ⟨hstore, hhampers⟩ := applyEffs_tells (lh := lh) (StoreKept.refl (offs := offs) (countReg_rising hr (lbank lh sub) off 1)) he
  exact ⟨hstore.mem.trans (countReg_mem _ _ _ _), hhampers.trans (countReg_hampers _ _ _ _), hstore.getReg_counted hr ho hm⟩

theorem burstsOf_tells {es : List Eff} (he : ∀ e ∈ es, e.Tells offs) : burstsOf es = [] := by
  refine List.filterMap_eq_nil_iff.2 fun e hmem => ?_
  have := he e hmem
  cases e with
  | burst b => exact this.elim
  | _ => rfl

/-- A burst changes nothing but the beat's plane, unless it reads a poisoned unit (R191, R260). -/
theorem applyEff_burst {b : Burst} (h : b.write = true ∨ NoPoison s) : applyEff s lh (.burst b) = s := by
  refine if_neg fun hc => ?_
  obtain ⟨hread, hpoisoned⟩ := Bool.and_eq_true_iff.1 hc
  rcases h with h | h
  · rw [h] at hread
    exact absurd hread (by decide)
  · rw [poisoned_of_noPoison h] at hpoisoned
    exact absurd hpoisoned (by decide)

theorem applyEffs_effIf_burst {c : Bool} {b : Burst} (h : b.write = true ∨ NoPoison s) : applyEffs s lh (effIf c (.burst b)) = s := by
  cases c with
  | false => rfl
  | true => exact applyEff_burst h

end

/-- Bytes stored and then a counter that counts on by one, before effects that leave both alone. The bytes are a variable here: a list that
unfolds would be evaluated wherever two states are compared. -/
theorem applyEffs_stored_counted {s : State} {lh : Nat} {offs : List Nat} (hmem : Memory.wf s.mem = true) (hr : rising s.regs = true) (a : Nat)
    (bs : List Byte) {sub off : Nat} {es : List Eff} (he : ∀ e ∈ es, e.Tells offs) (ho : off < 0x1000) (hm : off ∉ offs) :
    let t := applyEffs (storeBytes s a bs) lh (.count sub off 1 :: es)
    MemWritten s t a bs ∧ t.hampers = s.hampers ∧
      getReg t (lbank lh sub) off = satAdd (regWidth (lbank lh sub) off) (getReg s (lbank lh sub) off) 1 := by
  obtain ⟨hkeeps, hhampers, hcount⟩ := applyEffs_count_tells (s := storeBytes s a bs) (lh := lh) (sub := sub) hr he ho hm
  exact ⟨memWritten_memWrite hmem hkeeps, hhampers, hcount⟩

/-! ## The last beat (R83, R84) -/

section
variable {env : EngEnv} {r : StashRun}

theorem le_four_mul_ceilDiv (n : Nat) : n ≤ 4 * ceilDiv n 4 := by
  unfold ceilDiv
  omega

/-- No payload line is left after the beats that move four lines each (R83). -/
theorem payloadOf_past (d : StashDesc) : payloadOf d (ceilDiv (entryLines d) 4) = [] := by
  refine List.filter_eq_nil_iff.2 fun i hi => ?_
  obtain ⟨j, -, rfl⟩ := List.mem_map.1 hi
  have := le_four_mul_ceilDiv (entryLines d)
  simp only [decide_eq_true_eq]
  omega

/-- The effects of a push's last beat: its trailer stored, by a burst of the plane where the entry lies in HBM3E (R83, R86). -/
def trailerEffs (r : StashRun) (step : Nat) : List Eff :=
  .store (r.base + 64 * r.n) (trailerBytes r.d step) :: effIf (!r.ext) (.burst ⟨r.base + 64 * r.n, true, 2, engineStash, 64⟩)

theorem applyEffs_trailerEffs (s : State) (lh : Nat) (r : StashRun) (step : Nat) :
    applyEffs s lh (trailerEffs r step) = storeBytes s (r.base + 64 * r.n) (trailerBytes r.d step) := by
  rw [trailerEffs, applyEffs_cons]
  exact applyEffs_effIf_burst (.inl rfl)

/-- R83: in its last beat a push writes its trailer after its payload, and no payload line. -/
theorem pushBeat_last (hn : r.n = entryLines r.d) (hp : r.push = true) (hl : stashLast r = env.t) :
    pushBeat env r = (r, .eff (trailerEffs r env.step)) := by
  have hk : env.t - r.b0 = ceilDiv r.n 4 := by
    rw [← hl, stashLast, stashBeats, hp, hn, if_pos rfl]
    omega
  have hpast : payloadOf r.d (ceilDiv r.n 4) = [] := by rw [hn, payloadOf_past]
  simp only [pushBeat, hk, hpast, List.map_nil, Nat.lt_irrefl, decide_false, beq_self_eq_true, Bool.and_false, Bool.and_true]
  rfl

/-- R84: past the comparison, a pop whose trailer agreed moves lines to the pantry and reads at most one burst. -/
theorem popBeat_agreed (hk : 48 ≤ env.t - r.b0) (hm : r.mism = false) :
    ∃ o c b, popBeat env r = (r, o) ∧ o.effs = effIf c (.burst b) := by
  have h47 : ¬ env.t - r.b0 = 47 := by omega
  have h48 : ¬ (env.t - r.b0 < 48 ∨ r.mism = true) := by
    rw [hm]
    simp only [Bool.false_eq_true, or_false]
    omega
  exact ⟨_, _, _, by simp only [popBeat, if_neg h47, if_neg h48]; rfl, rfl⟩

/-- R84: past the comparison, a pop that found another trailer does nothing. -/
theorem popBeat_mismatched (hk : 48 ≤ env.t - r.b0) (hm : r.mism = true) : popBeat env r = (r, .none_) := by
  have h47 : ¬ env.t - r.b0 = 47 := by omega
  rw [popBeat, if_neg h47, if_pos (.inr hm)]

/-- The last beat of a pop with a payload is past the comparison. -/
theorem past_comparison_of_last (hn : r.n = entryLines r.d) (h0 : 0 < r.n) (hp : r.push = false) (hl : stashLast r = env.t) :
    48 ≤ env.t - r.b0 := by
  have := le_four_mul_ceilDiv r.n
  rw [← hl, stashLast, stashBeats, hp, ← hn, if_neg Bool.false_ne_true]
  omega

/-! ## The stack's top (R85) -/

/-- The offsets of the registers that a spill counts and tells in. -/
def spillOffs : List Nat := [Reg.stashSpilled, Reg.portTxFrames, Reg.vyvEventsLost]

/-- A push that ends moves its stack's top up and is counted; what it does beside tells of a spill. -/
theorem stashFinish_push (k : Stack) (hp : r.push = true) :
    ∃ es, stashFinish env k r = (pushTop k r.ext (entryBytes r.d), .count stashSub Reg.stashPushes 1 :: es) ∧ ∀ e ∈ es, e.Tells spillOffs := by
  refine ⟨_, if_pos hp, ?_⟩
  split
  · refine List.forall_mem_cons.2 ⟨⟨by decide, by decide⟩, ?_⟩
    unfold effIf
    split
    · exact List.forall_mem_singleton.2 ⟨by decide, by decide⟩
    · exact List.forall_mem_nil _
  · exact List.forall_mem_nil _

theorem stashFinish_pop_agreed (k : Stack) (hp : r.push = false) (hm : r.mism = false) :
    stashFinish env k r = (popTop k r.ext (entryBytes r.d), [.count stashSub Reg.stashPops 1]) := by
  simp only [stashFinish, hp, hm, Bool.false_eq_true, if_false]

theorem stashFinish_pop_mismatched (k : Stack) (hp : r.push = false) (hm : r.mism = true) : stashFinish env k r = (k, []) := by
  simp only [stashFinish, hp, hm, Bool.false_eq_true, if_false, if_true]

end

/-! ## Commands -/

section
variable {s : State} {lh : Fin 48} {r : StashRun}

/-- Hamper h with its one stash operation r done and the top of its stack at k. -/
def endStash (h : Hamper) (r : StashRun) (k : Stack) : Hamper := { h with stash := [{ r with done := true }], stackRegs := h.stackRegs.set r.stack k }

/-- Hamper h with the writes, lines and bursts that o adds to its beat. -/
def addBeat (h : Hamper) (o : Out) : Hamper :=
  { h with writes := h.writes ++ o.writes, lines := o.lines ++ h.lines, bursts := h.bursts ++ burstsOf o.effs }

theorem completeWith_setH (h : Hamper) (o : Out) : completeWith (setH s lh h) lh o = applyEffs (setH s lh (addBeat h o)) lh o.effs := by
  rw [completeWith, modH_eq, getH_setH_fin, setH_setH]
  rfl

/-- Operation r is the one of the stash unit of lh, whose program runs; it is in its last beat and has the data it needs (R83, R84, R86). -/
structure StashEnding (s : State) (lh : Fin 48) (r : StashRun) : Prop where
  running : (getH s lh).core.stopped = false
  only : (getH s lh).stash = [r]
  notDone : r.done = false
  notRan : r.ran = false
  last : stashLast r = beatOf s lh
  fed : stashWaits r (beatOf s lh) = false

/-- t has the hampers of s, but for what lh does in the beat where its stash operation r ends with k the top of its stack. -/
structure StashEnded (s : State) (lh : Fin 48) (r : StashRun) (k : Stack) (t : State) : Prop where
  core : (getH t lh).core = (getH s lh).core
  stash : (getH t lh).stash = [{ r with done := true }]
  tops : (getH t lh).stackRegs = (getH s lh).stackRegs.set r.stack k
  others : ∀ l, l ≠ lh.val → getH t l = getH s l

theorem stashEnded_addBeat (s : State) (lh : Fin 48) (r : StashRun) (k : Stack) (o : Out) :
    StashEnded s lh r k (setH s lh (addBeat (endStash (getH s lh) r k) o)) := by
  refine ⟨?_, ?_, ?_, fun l hl => getH_setH_ne s _ hl⟩
  all_goals rw [getH_setH_fin]; rfl

theorem StashEnded.congr {k : Stack} {t u : State} (h : StashEnded s lh r k t) (hu : u.hampers = t.hampers) : StashEnded s lh r k u := by
  have hget (l : Nat) : getH u l = getH t l := by rw [getH, hu, getH]
  exact ⟨hget lh ▸ h.core, hget lh ▸ h.stash, hget lh ▸ h.tops, fun l hl => (hget l).trans (h.others l hl)⟩

/-- The end of an operation whose last beat gives o and whose end gives k and es. -/
theorem StashEnding.completeStash_eq {o : Out} {k : Stack} {es : List Eff} (he : StashEnding s lh r)
    (hbeat : (if r.push then pushBeat (engEnv s lh []) r else popBeat (engEnv s lh []) r) = (r, o))
    (hfin : stashFinish (engEnv s lh []) (getH s lh).stackRegs[r.stack] r = (k, es)) :
    completeStash s lh r.push = completeWith (setH s lh (endStash (getH s lh) r k)) lh (o.app (.eff es)) := by
  have hfind : [r].find? (fun x => !x.done && x.push == r.push && stashLast x == beatOf s lh && !stashWaits x (beatOf s lh)) = some r := by
    simp [he.notDone, he.last, he.fed]
  have hactive : stashBeat (engEnv s lh []) r = (r, o) := by
    rw [stashBeat, he.notDone, he.notRan]
    exact hbeat
  simp only [completeStash, inTail, he.running, he.only, hfind, Bool.false_eq_true, if_false, hactive, hfin, modH_eq, List.map_cons, List.map_nil,
    if_true]
  rfl

theorem StashEnding.exec_pushComplete {o : Out} {k : Stack} {es : List Eff} (he : StashEnding s lh r) (hp : r.push = true)
    (hbeat : pushBeat (engEnv s lh []) r = (r, o)) (hfin : stashFinish (engEnv s lh []) (getH s lh).stackRegs[r.stack] r = (k, es)) :
    exec (.pushComplete lh) s = .next (completeWith (setH s lh (endStash (getH s lh) r k)) lh (o.app (.eff es))) := by
  have h := he.completeStash_eq ((if_pos hp).trans hbeat) hfin
  rw [hp] at h
  exact congrArg Host.Outcome.next h

theorem StashEnding.exec_popComplete {o : Out} {k : Stack} {es : List Eff} (he : StashEnding s lh r) (hp : r.push = false)
    (hbeat : popBeat (engEnv s lh []) r = (r, o)) (hfin : stashFinish (engEnv s lh []) (getH s lh).stackRegs[r.stack] r = (k, es)) :
    exec (.popComplete lh) s = .next (completeWith (setH s lh (endStash (getH s lh) r k)) lh (o.app (.eff es))) := by
  have h := he.completeStash_eq ((if_neg (ne_true_of_eq_false hp)).trans hbeat) hfin
  rw [hp] at h
  exact congrArg Host.Outcome.next h

/-- R83, R85: a push in its last beat. -/
theorem pushComplete_answers (hmem : Memory.wf s.mem = true) (hr : rising s.regs = true) (he : StashEnding s lh r) (hp : r.push = true)
    (hn : r.n = entryLines r.d) :
    Answers (.pushComplete lh) s (fun t => MemWritten s t (r.base + 64 * r.n) (trailerBytes r.d s.uc.step.toNat) ∧
      StashEnded s lh r (pushTop (getH s lh).stackRegs[r.stack] r.ext (entryBytes r.d)) t ∧
      getReg t (lbank lh stashSub) Reg.stashPushes =
        satAdd (regWidth (lbank lh stashSub) Reg.stashPushes) (getReg s (lbank lh stashSub) Reg.stashPushes) 1) := by
  obtain ⟨es, hfin, hes⟩ := stashFinish_push (env := engEnv s lh []) (getH s lh).stackRegs[r.stack] hp
  have hbursts : burstsOf (.count stashSub Reg.stashPushes 1 :: es) = [] := (burstsOf_tells hes : burstsOf es = [])
  refine ⟨_, he.exec_pushComplete hp (pushBeat_last hn hp he.last) hfin, ?_⟩
  rw [completeWith_eff _ hbursts, completeWith_setH, Out.eff, applyEffs_trailerEffs]
  obtain ⟨hwritten, hhampers, hcount⟩ := applyEffs_stored_counted (s := setH s lh _) (lh := lh) hmem hr (r.base + 64 * r.n)
    (trailerBytes r.d s.uc.step.toNat) (sub := stashSub) (off := Reg.stashPushes) hes (by decide) (by decide)
  exact ⟨hwritten, (stashEnded_addBeat s lh r _ _).congr hhampers, hcount⟩

/-- R84, R85: a pop in its last beat whose trailer agreed. -/
theorem popComplete_agreed (hr : rising s.regs = true) (hnp : NoPoison s) (he : StashEnding s lh r) (hp : r.push = false)
    (hk : 48 ≤ beatOf s lh - r.b0) (hm : r.mism = false) :
    Answers (.popComplete lh) s (fun t => t.mem = s.mem ∧
      StashEnded s lh r (popTop (getH s lh).stackRegs[r.stack] r.ext (entryBytes r.d)) t ∧ CountsOn s t (lbank lh stashSub) Reg.stashPops 1) := by
  obtain ⟨o, c, b, hpop, ho⟩ := popBeat_agreed (env := engEnv s lh []) hk hm
  have hfin := stashFinish_pop_agreed (env := engEnv s lh []) (getH s lh).stackRegs[r.stack] hp hm
  refine ⟨_, he.exec_popComplete hp hpop hfin, ?_⟩
  rw [completeWith_eff o rfl, completeWith_setH, ho, applyEffs_effIf_burst (s := setH s lh _) (.inr hnp)]
  obtain ⟨hkeeps, hhampers, hcount⟩ := applyEffs_count_tells (s := setH s lh _) (lh := lh) (sub := stashSub) (off := Reg.stashPops)
    (offs := []) hr (List.forall_mem_nil _) (by decide) (by decide)
  exact ⟨hkeeps, (stashEnded_addBeat s lh r _ o).congr hhampers, hcount, fun _ _ hne => getReg_countReg_ne (s := setH s lh _) hr 1 hne⟩

/-- R84, R85: a pop in its last beat that found another trailer moves nothing. -/
theorem exec_popComplete_mismatched (he : StashEnding s lh r) (hp : r.push = false) (hk : 48 ≤ beatOf s lh - r.b0) (hm : r.mism = true) :
    exec (.popComplete lh) s = .next (setH s lh { getH s lh with stash := [{ r with done := true }] }) := by
  have hfin := stashFinish_pop_mismatched (env := engEnv s lh []) (getH s lh).stackRegs[r.stack] hp hm
  have hend : endStash (getH s lh) r (getH s lh).stackRegs[r.stack] = { getH s lh with stash := [{ r with done := true }] } := by
    rw [endStash, Fin.getElem_fin, Vector.set_getElem_self]
  rw [he.exec_popComplete hp (popBeat_mismatched hk hm) hfin, completeWith_eff _ rfl, completeWith_none, hend]
  rfl

/-- R86: the payload or the trailer of the one extension pop arrives unpoisoned. -/
theorem exec_stashExtensionArrival (payload : Bool) (hnp : NoPoison s) (hst : (getH s lh).stash = [r]) (hd : r.done = false)
    (hp : r.push = false) (he : r.ext = true) (hin : (if payload then r.payloadIn else r.trailerIn) = false) :
    exec (.stashExtensionArrival lh payload) s = .next (setH s lh { getH s lh with
      stash := [if payload then { r with payloadIn := true }
        else { r with trailerIn := true, found := trailerFields s.mem (r.base + 64 * r.n) }] }) := by
  show execStashExtensionArrival lh payload s = _
  have hfind : [r].find? (fun x => !x.push && x.ext && !x.done && !(if payload then x.payloadIn else x.trailerIn)) = some r := by
    simp [hp, he, hd, hin]
  simp only [execStashExtensionArrival, hst, hfind, poisoned_of_noPoison hnp, modH_eq, List.map_cons, List.map_nil, if_true,
    Bool.false_eq_true, if_false]

end

/-- Settles O24: a push writes its trailer and no payload in its last beat, a pop's last beat is past its comparison, and the end of each moves
the top of the stack. -/
theorem stashOperationsMoveTheirStack : Obligations.StashOperationsMoveTheirStack := by
  unfold Obligations.StashOperationsMoveTheirStack
  intro s lh r hs h t0 alone hst hd hran hn
  obtain ⟨hmem, hr, -⟩ := safe_tables hs
  have halone (k : Hamper) : alone (setH s lh k) ∧ getH (setH s lh k) lh = k := ⟨⟨rfl, fun l hl => getH_setH_ne s k hl⟩, getH_setH_fin s lh k⟩
  refine ⟨fun hrun hp hl => ?_, fun hrun hp hl hw h0 hnp => ?_, fun hp he hnp => ⟨fun hin => ?_, fun hin => ?_⟩⟩
  · have hw : stashWaits r t0 = false := by rw [stashWaits, hp]; rfl
    obtain ⟨t, ht, hwritten, hend, hcount⟩ := pushComplete_answers hmem hr ⟨hrun, hst, hd, hran, hl, hw⟩ hp hn
    exact ⟨t, ht, hwritten, hend.others, hend.tops, hend.stash, hend.core, hcount⟩
  · have hk : 48 ≤ t0 - r.b0 := past_comparison_of_last (env := engEnv s lh []) hn h0 hp hl
    have he : StashEnding s lh r := ⟨hrun, hst, hd, hran, hl, hw⟩
    refine ⟨fun hm => ?_, fun hm => ⟨_, exec_popComplete_mismatched he hp hk hm, halone _⟩⟩
    obtain ⟨t, ht, hkeeps, hend, hcount⟩ := popComplete_agreed hr hnp he hp hk hm
    exact ⟨t, ht, hkeeps, hend.others, hend.tops, hend.stash, hcount⟩
  · exact ⟨_, exec_stashExtensionArrival true hnp hst hd hp he hin, halone _⟩
  · exact ⟨_, exec_stashExtensionArrival false hnp hst hd hp he hin, halone _⟩

end Sys2Proof.Machine
end

section
/-!
The recipe stores of the vector engines and of the update units: what their SEL, DATA and COMMIT registers read, write and commit
(R105, R106, R116, R131, R132).
-/
namespace Sys2Proof.Machine

/-! ## Commits of a slot (R105, R131) -/

/-- A recipe store with a slot's valid length set; 0 clears its valid bit. -/
def withValid (r : RecipeStore) (slot length : Nat) : RecipeStore := { r with valid := sparseSet 0 r.valid slot length }

section
variable {update : Bool} {r : RecipeStore} {slot length : Nat}

theorem commitSlot_valid (h : checkRecipe update (slotWords r slot 32) length = none) :
    commitSlot update r slot length = (withValid r slot length, none) := by
  rw [commitSlot, h, withValid]

theorem commitSlot_invalid {x : Nat × Nat} (h : checkRecipe update (slotWords r slot 32) length = some x) :
    commitSlot update r slot length = (withValid r slot 0, some x) := by
  rw [commitSlot, h, withValid]

end

section
variable {s : State}

/-- An error bit set and counted with another register of its page, the fault's, written after it (R105, R466). -/
theorem setReg_setErr_flagged (hr : rising s.regs = true) (page b v : Nat) {off : Nat} (ho : off < 0x1000) (he : off ≠ Reg.pageErr)
    (hc : off ≠ Reg.pageErrCount) :
    let t := setReg (setErr s page b) page off v
    t = { s with regs := t.regs } ∧ Flagged s t page b ∧ getReg t page off = v := by
  have hr1 := setErr_rising hr page b
  obtain ⟨hfields, -, -⟩ := setErr_errorOnly hr page b
  have hkept : StoreKept [off] (setErr s page b) (setReg (setErr s page b) page off v) :=
    (StoreKept.refl hr1).setReg page v ho (List.mem_singleton_self off)
  refine ⟨?_, flagged_of_storeKept (StoreKept.refl (offs := []) hr) hkept (by decide) ?_, getReg_setReg_self _ hr1 page off v⟩
  · exact congrArg (setReg · page off v) hfields
  · exact ⟨mt List.mem_singleton.1 he.symm, mt List.mem_singleton.1 hc.symm⟩

/-! ## The selected word (R116, R132) -/

/-- INDEX of a selection register advances by one modulo 32 beside its SLOT k, and no other register changes. m is the weight of INDEX. -/
def IndexAdvances (s t : State) (page reg k i m : Nat) : Prop :=
  getReg t page reg = k + m * ((i + 1) % 32) ∧ KeepsRegs s t [regKey page reg]

theorem setReg_indexAdvances (hr : rising s.regs = true) (page reg k i m : Nat) :
    IndexAdvances s (setReg s page reg (k + m * ((i + 1) % 32))) page reg k i m := by
  obtain ⟨-, hreg, hkeeps⟩ := setReg_setsOnly hr page reg (k + m * ((i + 1) % 32))
  exact ⟨hreg, hkeeps⟩

theorem bits_eq_div_mod (n hi lo : Nat) : bits n hi lo = n / 2 ^ lo % 2 ^ (hi + 1 - lo) :=
  congrArg (· % 2 ^ (hi + 1 - lo)) (Nat.shiftRight_eq_div_pow n lo)

/-- SLOT stands in the lowest bits of a selection register. -/
theorem bits_low (n hi : Nat) : bits n hi 0 = n % 2 ^ (hi + 1) := rfl

theorem vecSel_eq (s : State) (page : Nat) :
    vecSel s page = (getReg s page Reg.vecRstoreSel % 64, getReg s page Reg.vecRstoreSel / 64 % 32) :=
  Prod.ext (bits_low _ 5) (bits_eq_div_mod _ 10 6)

theorem ucSel_eq (s : State) : ucSel s = (getReg s ucPage Reg.ucRstoreSel % 16, getReg s ucPage Reg.ucRstoreSel / 16 % 32) :=
  Prod.ext (bits_low _ 3) (bits_eq_div_mod _ 8 4)

end

/-! ## Plain registers of a hamper page (R14–R16) -/

/-- Row d of the register map is a 32-bit register at an offset past the common header (R14). -/
structure NarrowRow (page off : Nat) (d : RegDesc) : Prop where
  row : regAt page off = some d
  narrow : d.wide = false
  aligned : off % 4 = 0
  past : headerEnd ≤ off
  inPage : off < 0x1000

namespace PageOf
variable {s : State} {h sub page off : Nat} {d : RegDesc}

theorem isHamperPage (hp : PageOf s h sub page) : isHamperPage page = true := by
  obtain ⟨rfl, hs, hh, -⟩ := hp
  exact decide_eq_true (by omega)

theorem accessAt_row (hp : PageOf s h sub page) (hd : NarrowRow (0x100 + sub) off d) :
    accessAt s (regAddr page off) false = .reg page off d := by
  have hk : page < 0x10000 := by
    obtain ⟨rfl, hs, hh, -⟩ := hp
    omega
  rw [accessAt_regAddr hp.present hk hd.inPage, accessIn_of_regAt hd.aligned ((hp.regAt_eq off).trans hd.row), if_pos hd.narrow]

/-- A host write of a register that is neither read-only nor expert reaches its block without the reserved bits (R15, R16). -/
theorem rowWrite_through (hp : PageOf s h sub page) (hd : NarrowRow (0x100 + sub) off d) (hro : d.acc ≠ .ro) (hrwx : d.acc ≠ .rwx) (v : Nat) :
    rowWrite s (isSub sub) page off false v = hamperWrite s page off (v % 2 ^ 32 &&& d.mask) := by
  calc rowWrite s (isSub sub) page off false v = (regWrite s .host (regAddr page off) false v).1 := if_pos hp.isSub_self
    _ = writeReg s page off (v % 2 ^ 32 &&& d.mask) := regWrite_through (hp.accessAt_row hd) hro hrwx
    _ = hamperWrite s page off (v % 2 ^ 32 &&& d.mask) := hp.writeReg_eq hd.past _

end PageOf

/-! ## The vector engine's store (R116) -/

/-- The row of VEC_RSTORE_DATA. -/
def vecRstoreDataRow : RegDesc := ⟨"VEC_RSTORE_DATA", Reg.vecRstoreData, 1, 0, false, .rw, 0xFFFFFFFF, 0x0⟩

/-- The row of VEC_RSTORE_COMMIT. -/
def vecRstoreCommitRow : RegDesc := ⟨"VEC_RSTORE_COMMIT", Reg.vecRstoreCommit, 1, 0, false, .wo, 0x3F, 0x0⟩

theorem vecRstoreData_narrow : NarrowRow 0x102 Reg.vecRstoreData vecRstoreDataRow := ⟨rfl, rfl, by decide, by decide, by decide⟩

theorem vecRstoreCommit_narrow : NarrowRow 0x102 Reg.vecRstoreCommit vecRstoreCommitRow := ⟨rfl, rfl, by decide, by decide, by decide⟩

section
variable {s : State} {h page : Nat} {k i : Nat}

theorem hamperWrite_recipeStore (hp : PageOf s h 2 page) (v : Nat) :
    hamperWrite s page Reg.vecRstoreData v = vecDataWrite s page v ∧ hamperWrite s page Reg.vecRstoreCommit v = vecCommitWrite s page v := by
  unfold hamperWrite
  rw [hp.mod_eq]
  exact ⟨rfl, rfl⟩

theorem readReg_vecRstoreData (hp : PageOf s h 2 page) :
    readReg s page Reg.vecRstoreData vecRstoreDataRow = (vecWord s page, vecNextIndex s page) := by
  rw [readReg, if_neg (by decide), if_pos ⟨hp.isHamperPage, hp.mod_eq, rfl⟩]

/-- A read of VEC_RSTORE_DATA gives the selected word and moves on. -/
theorem exec_vecRstoreDataRead (hp : PageOf s h 2 page) (hsel : vecSel s page = (k, i)) :
    exec (.vecRstoreDataRead page) s =
      .next { setReg s page Reg.vecRstoreSel (k + 64 * ((i + 1) % 32)) with
        answer := bytesLE 4 (slotWord (s.stores[h]?.getD .empty) k i).toNat } := by
  have hlt : (slotWord (s.stores[h]?.getD .empty) k i).toNat % 2 ^ 32 = (slotWord (s.stores[h]?.getD .empty) k i).toNat :=
    Nat.mod_eq_of_lt (slotWord (s.stores[h]?.getD .empty) k i).isLt
  show execVecRstoreDataRead page s = _
  simp only [execVecRstoreDataRead, hp.isSub_self, if_true, regRead, hp.accessAt_row vecRstoreData_narrow, readReg_vecRstoreData hp, vecWord,
    vecNextIndex, hsel, hp.phys_eq, Bool.false_eq_true, if_false, hlt]

/-- A write of VEC_RSTORE_DATA reaches the engine whole. -/
theorem exec_vecRstoreDataWrite (hp : PageOf s h 2 page) (v : W32) :
    exec (.vecRstoreDataWrite page v) s = .next (vecDataWrite s page v.toNat) := by
  have hv : v.toNat % 2 ^ 32 &&& 0xFFFFFFFF = v.toNat :=
    (mod_and_lowMask v.toNat (k := 32) rfl (Nat.le_refl 32)).trans (Nat.mod_eq_of_lt v.isLt)
  show Host.Outcome.next (rowWrite s (isSub 2) page Reg.vecRstoreData false v.toNat) = _
  rw [hp.rowWrite_through vecRstoreData_narrow (by decide) (by decide), (hamperWrite_recipeStore hp _).1]
  exact congrArg (fun n => Host.Outcome.next (vecDataWrite s page n)) hv

/-- A write of VEC_RSTORE_COMMIT commits the selected slot with LENGTH, the low six bits. -/
theorem exec_vecRstoreCommit (hp : PageOf s h 2 page) (hsel : vecSel s page = (k, i)) (v : W32) :
    exec (.vecRstoreCommit page v) s = .next (commitVec s h k (v.toNat % 64) page (slotHeld s h k)) := by
  have hv : (v.toNat % 2 ^ 32 &&& 0x3F) % 64 = v.toNat % 64 := masked_mod v.toNat (k := 6) rfl (by decide)
  show Host.Outcome.next (rowWrite s (isSub 2) page Reg.vecRstoreCommit false v.toNat) = _
  rw [hp.rowWrite_through vecRstoreCommit_narrow (by decide) (by decide), (hamperWrite_recipeStore hp _).2, vecCommitWrite, hsel, hp.phys_eq]
  exact congrArg (fun n => Host.Outcome.next (commitVec s h k n page (slotHeld s h k))) hv

theorem vecDataWrite_held (hp : PageOf s h 2 page) (hsel : vecSel s page = (k, i)) (hheld : slotHeld s h k = true) (v : Nat) :
    vecDataWrite s page v = setErr s page 3 := by
  simp only [vecDataWrite, hsel, hp.phys_eq, hheld, if_true]

theorem vecDataWrite_free (hp : PageOf s h 2 page) (hsel : vecSel s page = (k, i)) (hfree : slotHeld s h k = false) (v : W32) :
    vecDataWrite s page v.toNat =
      setReg { s with stores := s.stores.setIfInBounds h (storeWord (s.stores[h]?.getD .empty) k i v) } page Reg.vecRstoreSel
        (k + 64 * ((i + 1) % 32)) := by
  have hstored (st : Vector RecipeStore 48) : vecSel { s with stores := st } page = (k, i) := hsel
  simp only [vecDataWrite, hsel, hp.phys_eq, hfree, Bool.false_eq_true, if_false, BitVec.ofNat_toNat, BitVec.setWidth_eq, vecNextIndex, hstored]

variable {slot length : Nat}

theorem commitVec_valid (hc : checkRecipe false (slotWords (s.stores[h]?.getD .empty) slot 32) length = none) :
    commitVec s h slot length page false =
      { s with stores := s.stores.setIfInBounds h (withValid (s.stores[h]?.getD .empty) slot length) } := by
  simp only [commitVec, commitSlot_valid hc, Bool.false_eq_true, if_false]

/-- A commit that fails clears the valid bit and records the slot, the instruction and the check (R105, R116). -/
theorem commitVec_invalid (hr : rising s.regs = true) {x : Nat × Nat}
    (hc : checkRecipe false (slotWords (s.stores[h]?.getD .empty) slot 32) length = some x) :
    let t := commitVec s h slot length page false
    t = { s with regs := t.regs, stores := s.stores.setIfInBounds h (withValid (s.stores[h]?.getD .empty) slot 0) } ∧ Flagged s t page 2 ∧
      getReg t page Reg.vecRstoreFault = faultWord slot x := by
  simp only [commitVec, commitSlot_invalid hc, Bool.false_eq_true, if_false]
  exact setReg_setErr_flagged (s := { s with stores := s.stores.setIfInBounds h (withValid (s.stores[h]?.getD .empty) slot 0) }) hr page 2 _
    (by decide) (by decide) (by decide)

end

/-! ## The update units' store (R132) -/

section
variable {s : State} {k i : Nat}

theorem exec_ucRstoreDataRead (hsel : ucSel s = (k, i)) :
    exec .ucRstoreDataRead s = .next { setReg s ucPage Reg.ucRstoreSel (k + 16 * ((i + 1) % 32)) with
      answer := bytesLE 4 (slotWord s.ustore k i).toNat } := by
  show execUcRstoreDataRead s = _
  simp only [execUcRstoreDataRead, ucRstoreRead, ucNextIndex, ucWord, hsel]

theorem exec_ucRstoreCommit (hsel : ucSel s = (k, i)) (v : W32) : exec (.ucRstoreCommit v) s = .next (ucCommit s k (v.toNat % 64)) := by
  show execUcRstoreCommit v s = _
  rw [execUcRstoreCommit, hsel]

theorem ucRstoreWrite_running (hrun : s.uc.sweepState = .running) (v : W32) : ucRstoreWrite s v = setErr s ucPage 9 := if_pos hrun

theorem ucRstoreWrite_stopped (hsel : ucSel s = (k, i)) (hrun : s.uc.sweepState ≠ .running) (v : W32) :
    ucRstoreWrite s v = setReg { s with ustore := storeWord s.ustore k i v } ucPage Reg.ucRstoreSel (k + 16 * ((i + 1) % 32)) := by
  have hstored (st : RecipeStore) : ucSel { s with ustore := st } = (k, i) := hsel
  simp only [ucRstoreWrite, if_neg hrun, hsel, ucNextIndex, hstored]

variable {slot length : Nat}

theorem ucCommit_running (hrun : s.uc.sweepState = .running) : ucCommit s slot length = setErr s ucPage 9 := if_pos hrun

theorem ucCommit_valid (hrun : s.uc.sweepState ≠ .running) (hc : checkRecipe true (slotWords s.ustore slot 32) length = none) :
    ucCommit s slot length = { s with ustore := withValid s.ustore slot length } := by
  simp only [ucCommit, if_neg hrun, commitSlot_valid hc]

/-- A commit that fails clears the valid bit and records the slot, the instruction and the check (R131, R146). -/
theorem ucCommit_invalid (hr : rising s.regs = true) {c j : Nat} (hrun : s.uc.sweepState ≠ .running)
    (hc : checkRecipe true (slotWords s.ustore slot 32) length = some (c, j)) :
    let t := ucCommit s slot length
    t = { s with regs := t.regs, ustore := withValid s.ustore slot 0 } ∧ Flagged s t ucPage 8 ∧
      getReg t ucPage Reg.ucRstoreFault = slot + 16 * j + 512 * c := by
  simp only [ucCommit, if_neg hrun, commitSlot_invalid hc]
  exact setReg_setErr_flagged (s := { s with ustore := withValid s.ustore slot 0 }) hr ucPage 8 _ (by decide) (by decide) (by decide)

end

/-- Settles O34: each clause is the rule of its register; a call that holds the slot, or a sweep that runs, alone decides whether a write is
refused. -/
theorem recipeStoreRegistersReadWriteAndCommit : Obligations.RecipeStoreRegistersReadWriteAndCommit := by
  unfold Obligations.RecipeStoreRegistersReadWriteAndCommit
  intro s h page v hs
  obtain ⟨-, hr, -⟩ := safe_tables hs
  have hvec := vecSel_eq s page
  have huc := ucSel_eq s
  refine ⟨fun hp => ⟨?_, fun hheld => ⟨?_, ?_⟩, fun hfree => ⟨?_, fun hc => ?_, fun x hc => ?_⟩⟩,
    ?_, fun hrun => ⟨?_, ?_⟩, fun hrun => ⟨?_, fun hc => ?_, fun c j hc => ?_⟩⟩
  · exact ⟨_, exec_vecRstoreDataRead hp hvec, rfl, setReg_indexAdvances hr page Reg.vecRstoreSel _ _ 64⟩
  · exact ⟨_, exec_vecRstoreDataWrite hp v, vecDataWrite_held hp hvec hheld _ ▸ setErr_errorOnly hr page 3⟩
  · refine ⟨_, exec_vecRstoreCommit hp hvec v, ?_⟩
    rw [hheld]
    exact setErr_errorOnly hr page 3
  · refine ⟨_, exec_vecRstoreDataWrite hp v, ?_⟩
    rw [vecDataWrite_free hp hvec hfree]
    exact ⟨setReg_indexAdvances hr page Reg.vecRstoreSel _ _ 64, rfl⟩
  · exact ⟨_, exec_vecRstoreCommit hp hvec v, hfree ▸ commitVec_valid hc⟩
  · refine ⟨_, exec_vecRstoreCommit hp hvec v, ?_⟩
    rw [hfree]
    exact commitVec_invalid hr hc
  · exact ⟨_, exec_ucRstoreDataRead huc, rfl, setReg_indexAdvances hr ucPage Reg.ucRstoreSel _ _ 16⟩
  · exact ⟨_, rfl, ucRstoreWrite_running hrun v ▸ setErr_errorOnly hr ucPage 9⟩
  · exact ⟨_, exec_ucRstoreCommit huc v, ucCommit_running hrun ▸ setErr_errorOnly hr ucPage 9⟩
  · refine ⟨_, rfl, ?_⟩
    rw [ucRstoreWrite_stopped huc hrun]
    exact ⟨setReg_indexAdvances hr ucPage Reg.ucRstoreSel _ _ 16, rfl⟩
  · exact ⟨_, exec_ucRstoreCommit huc v, ucCommit_valid hrun hc⟩
  · exact ⟨_, exec_ucRstoreCommit huc v, ucCommit_invalid hr hrun hc⟩

end Sys2Proof.Machine
end

section
/-!
What every command keeps (R182, R183): the queue, the part and the canonical tables; and which command moves the beats of the dies, and how far.
The rules of Laws/Kept*.lean say it of the operations; here it is said of each command.
-/
namespace Sys2Proof.Machine

/-! ## Outcomes -/

/-- An outcome of which every next state is kept. -/
def KeepsOut (q : List Instr) (p : Part) (D : Vector Nat 4 → Prop) (o : Host.Outcome State Fault Refusal) : Prop :=
  ∀ t, o = .next t → Kept q p D t

section
variable {q : List Instr} {p : Part} {D : Vector Nat 4 → Prop} {s : State}

theorem keepsOut_next (h : Kept q p D s) : KeepsOut q p D (.next s) := fun _ ht => Host.Outcome.next.inj ht ▸ h

theorem busWord_kept {n v : Nat} (h : Kept q p D s) : KeepsOut q p D (busWord s n v) := keepsOut_next (kept_upd h)

theorem mfrBlock_kept {i : Nat} (h : Kept q p D s) : KeepsOut q p D (mfrBlock s i) := keepsOut_next (kept_upd h)

/-- A kept state is kept under any description of its beats. -/
theorem Kept.imp {D' : Vector Nat 4 → Prop} (h : Kept q p D s) (hd : D s.dies → D' s.dies) : Kept q p D' s :=
  ⟨h.1, h.2.1, h.2.2.1, hd h.beats⟩

/-! ## The control core and the lists -/

theorem execWindowClose_kept {lh : Fin 48} (h : Kept q p D s) : KeepsOut q p D (execWindowClose lh s) := by
  refine keepsOut_next ?_
  split
  · exact kept_ite (modH_kept h) h
  · exact h

theorem execBarr_kept {lh : Fin 48} {rd : Fin 32} {vid : BitVec 12} {wait : Bool} (h : Kept q p D s) :
    KeepsOut q p D (execBarr lh rd vid wait s) :=
  keepsOut_next (issueOutside_kept h fun _ ht =>
    kept_ite (modCore_kept (enqueue_kept ht)) (modCore_kept (kept_ite (countReg_kept (tallyErr_kept ht)) (tallyErr_kept ht))))

theorem execStealProbe_kept {lh : Fin 48} (h : Kept q p D s) : KeepsOut q p D (execStealProbe lh s) := by
  refine keepsOut_next ?_
  split
  · exact h
  · split
    · exact h
    · split
      · exact stealEmpty_kept h
      · exact modList_kept (kept_ite h (countLh_kept (modList_kept h)))

theorem execProbeAnswer_kept {lh : Fin 48} (h : Kept q p D s) : KeepsOut q p D (execProbeAnswer lh s) := by
  refine keepsOut_next ?_
  split
  · exact h
  · split
    · exact h
    · have hstalled := fun n => kept_ite (c := beatOf s lh = n) (countLh_kept (lh := lh) (sub := listSub) (off := Reg.listStallBeats) (n := 1) h) h
      exact kept_ite (kept_ite (stealEmpty_kept (modList_kept (hstalled _))) (modList_kept (modList_kept (hstalled _))))
        (modList_kept (countLh_kept (kept_foldl (hstalled _) fun _ _ ht => appendItem_kept ht)))

theorem execItemVisible_kept {lh : Fin 48} (h : Kept q p D s) : KeepsOut q p D (execItemVisible lh s) := by
  refine keepsOut_next ?_
  split
  · exact h
  · have hcopied := fun a bs => kept_mem h (memWrite_wf h.mem_wf a bs)
    exact modList_kept (kept_ite (countLh_kept (hcopied _ _)) (hcopied _ _))

theorem execBasketMerge_kept {n : Nat} (h : Kept q p D s) : KeepsOut q p D (execBasketMerge n s) := by
  refine keepsOut_next ?_
  split
  · exact h
  · refine kept_ite h ?_
    dsimp only
    split
    · exact sendSignal_kept (countLh_kept (setErrIf_kept (modFrame_kept (kept_upd h))))
    · exact countLh_kept (setErrIf_kept (modFrame_kept (kept_upd h)))

theorem execSealRequestLeave_kept {lh : Fin 48} (h : Kept q p D s) : KeepsOut q p D (execSealRequestLeave lh s) := by
  refine keepsOut_next ?_
  split
  · exact kept_ite (modCore_kept (kept_upd h)) h
  · exact h

/-! ## Completions of the engines -/

theorem execPassComplete_kept {lh : Fin 48} {f : Fin 3} (h : Kept q p D s) : KeepsOut q p D (execPassComplete lh f s) := by
  refine keepsOut_next ?_
  split
  · exact h
  · exact completeWith_kept (modFrame_kept h)

theorem execLoadComplete_kept {lh : Fin 48} {f : Fin 3} (h : Kept q p D s) : KeepsOut q p D (execLoadComplete lh f s) := by
  refine keepsOut_next ?_
  split
  · exact h
  · exact completeWith_kept (modFrame_kept h)

theorem execTurnComplete_kept {lh : Fin 48} {f : Fin 3} (h : Kept q p D s) : KeepsOut q p D (execTurnComplete lh f s) := by
  refine keepsOut_next ?_
  split
  · exact h
  · exact completeWith_kept (modFrame_kept h)

theorem execVcallComplete_kept {lh : Fin 48} (h : Kept q p D s) : KeepsOut q p D (execVcallComplete lh s) := by
  refine keepsOut_next ?_
  split
  · exact h
  · exact completeWith_kept (modH_kept h)

theorem execStashExtensionArrival_kept {lh : Fin 48} {payload : Bool} (h : Kept q p D s) :
    KeepsOut q p D (execStashExtensionArrival lh payload s) := by
  refine keepsOut_next ?_
  split
  · exact h
  · exact kept_ite (hamperFailure_kept (modH_kept h)) (modH_kept h)

theorem execScheduledDmaComplete_kept {lh : Fin 48} (h : Kept q p D s) : KeepsOut q p D (execScheduledDmaComplete lh s) := by
  refine keepsOut_next ?_
  split
  · exact h
  · dsimp only
    split
    · exact sendSignal_kept (completeWith_kept (modH_kept h))
    · exact completeWith_kept (modH_kept h)

theorem execOpenDmaComplete_kept {n : Nat} (h : Kept q p D s) : KeepsOut q p D (execOpenDmaComplete n s) := by
  refine keepsOut_next ?_
  split
  · exact h
  · dsimp only
    split
    · exact sendSignal_kept (kept_ite (hamperFailure_kept (storeBytes_kept (kept_upd h))) (storeBytes_kept (kept_upd h)))
    · exact kept_ite (hamperFailure_kept (storeBytes_kept (kept_upd h))) (storeBytes_kept (kept_upd h))

theorem execRloadCommit_kept {lh : Fin 48} (h : Kept q p D s) : KeepsOut q p D (execRloadCommit lh s) := by
  refine keepsOut_next ?_
  split
  · exact h
  · exact kept_ite (modH_kept h) (kept_ite (setErrLh_kept (modH_kept h)) (commitVec_kept (kept_upd (modH_kept h))))

/-! ## The update centre, the ledger and the arbiters -/

theorem execSealRequest_kept {n : Nat} (h : Kept q p D s) : KeepsOut q p D (execSealRequest n s) := by
  refine keepsOut_next ?_
  split
  · exact h
  · exact kept_ite h (beginHeld_kept (arriveReq_kept (kept_upd h)))

theorem execChunkCommit_kept {u : Fin 20} {checks : ChunkChecks} (h : Kept q p D s) : KeepsOut q p D (execChunkCommit u checks s) := by
  refine keepsOut_next ?_
  split
  · exact h
  · dsimp only
    split
    · exact commitChunk_kept (setReg_kept h)
    · exact countFault_kept (commitChunk_kept (chunkFail_kept (setReg_kept h)))
    · exact chunkFault_kept (setReg_kept h)

theorem execVecRstoreDataRead_kept {page : Nat} (h : Kept q p D s) : KeepsOut q p D (execVecRstoreDataRead page s) :=
  keepsOut_next (kept_ite (kept_upd (regRead_kept h)) h)

theorem execBistComplete_kept {page : Nat} {good : Bool} (h : Kept q p D s) : KeepsOut q p D (execBistComplete page good s) := by
  refine keepsOut_next ?_
  split
  · exact kept_ite (setReg_kept h) h
  · exact h

/-! ## Tallies -/

theorem execTallySignal_kept {n : Nat} (h : Kept q p D s) : KeepsOut q p D (execTallySignal n s) := by
  refine keepsOut_next ?_
  split
  · exact h
  · exact kept_ite (signalAt_kept (takeMsg_kept h)) h

theorem execTallyObserveWait_kept {n : Nat} (h : Kept q p D s) : KeepsOut q p D (execTallyObserveWait n s) := by
  refine keepsOut_next ?_
  split
  · exact h
  · split
    · exact observeAt_kept (takeMsg_kept h)
    · exact h

theorem execTallyConsumeWait_kept {n : Nat} (h : Kept q p D s) : KeepsOut q p D (execTallyConsumeWait n s) := by
  refine keepsOut_next ?_
  split
  · exact h
  · split
    · exact consumeAt_kept (takeMsg_kept h)
    · exact h

theorem execBarrierArrival_kept {n : Nat} (h : Kept q p D s) : KeepsOut q p D (execBarrierArrival n s) := by
  refine keepsOut_next ?_
  split
  · exact h
  · split
    · exact arriveCore_kept (takeMsg_kept h)
    · exact h

theorem execTallyArrive_kept {m : MsgHead} {vid : BitVec 16} {gen : W32} (h : Kept q p D s) : KeepsOut q p D (execTallyArrive m vid gen s) := by
  refine keepsOut_next ?_
  split
  · exact kept_ite (hostArrive_kept h) h
  · exact tallyFrom_kept h fun _ ht => remoteArrive_kept ht

theorem execTallyRelease_kept {m : MsgHead} {abandoned : Bool} {vid : BitVec 16} {token count : W32} (h : Kept q p D s) :
    KeepsOut q p D (execTallyRelease m abandoned vid token count s) := by
  refine keepsOut_next (kept_ite h ?_)
  split
  · exact h
  · exact modCore_kept (kept_updTly h)

/-! ## Memory -/

theorem execMemoryRead_kept {rq : Requester} {addr : Addr} {len : Nat} {ecc : Ecc} (h : Kept q p D s) :
    KeepsOut q p D (execMemoryRead rq addr len ecc s) :=
  keepsOut_next (kept_ite
    (kept_ite (requesterFailure_kept (kept_upd (armedReads_kept (ctlRead_kept h)))) (kept_upd (armedReads_kept (ctlRead_kept h))))
    (kept_ite (kept_ite (requesterFailure_kept (kept_upd h)) (kept_upd h)) (setErr_kept (kept_upd h))))

theorem execRowCopyComplete_kept {ctl : Fin 16} (h : Kept q p D s) : KeepsOut q p D (execRowCopyComplete ctl s) := by
  refine keepsOut_next ?_
  split
  · exact h
  · exact emit_kept (addStall_kept (kept_flash (setCtl_kept h)))

theorem execLarderCopyComplete_kept {ctl : Fin 16} {bad : List Nat} (h : Kept q p D s) :
    KeepsOut q p D (execLarderCopyComplete ctl bad s) := by
  refine keepsOut_next ?_
  split
  · exact h
  · exact emit_kept (addStall_kept (kept_foldl (setCtl_kept h) fun _ _ ht => uncorrectable_kept ht))

theorem execRepairComplete_kept {ctl : Fin 16} (h : Kept q p D s) : KeepsOut q p D (execRepairComplete ctl s) := by
  refine keepsOut_next ?_
  split
  · exact h
  · exact emit_kept (countReg_kept (setCtl_kept h))

/-! ## Faults -/

theorem execStepReplay_kept (h : Kept q p D s) : KeepsOut q p D (execStepReplay s) := by
  refine keepsOut_next ?_
  split
  · exact h
  · exact kept_ite (replayStep_kept h) h

theorem execModuleDrainComplete_kept (h : Kept q p D s) : KeepsOut q p D (execModuleDrainComplete s) :=
  keepsOut_next (kept_ite (kept_upd (sendNotices_kept (kept_foldl h fun _ _ ht => endContext_kept ht))) h)

theorem execLaggardEvaluation_kept {unit : BitVec 16} (h : Kept q p D s) : KeepsOut q p D (execLaggardEvaluation unit s) := by
  refine keepsOut_next (kept_ite (suspect_kept ?_) ?_)
  all_goals
    dsimp only
    split
    · exact kept_ite (moveMv_kept (kept_upd h)) (kept_ite (moveMv_kept (kept_upd h)) (kept_upd h))
    · exact kept_upd h

theorem execLending_kept {die : Fin 4} (h : Kept q p D s) : KeepsOut q p D (execLending die s) :=
  keepsOut_next (kept_ite h (kept_updTly (draw_kept (countReg_kept h))))

theorem execBeatWatchdog_kept {die : Fin 4} (h : Kept q p D s) : KeepsOut q p D (execBeatWatchdog die s) :=
  keepsOut_next (kept_ite h (kept_foldl
    (kept_foldl (emit_kept (setErr_kept (setReg_kept (setReg_kept h)))) fun _ _ ht => resetContext_kept ht)
    fun _ _ ht => countPermanent_kept ht))

/-! ## Sessions and ports -/

theorem execHostResendTimeout_kept {session : Nat} {seq : W32} (h : Kept q p D s) : KeepsOut q p D (execHostResendTimeout session seq s) := by
  refine keepsOut_next ?_
  split
  · exact h
  · split
    · exact h
    · exact kept_ite (loseHost_kept h) (countReg_kept (kept_upd (setHostSess_kept h)))

theorem execOpen_kept {m : SessHead} {events : Bool} (h : Kept q p D s) : KeepsOut q p D (execOpen m events s) := by
  refine keepsOut_next ?_
  split
  · exact openHost_kept h
  · exact openPeer_kept h

theorem execOpenAck_kept {m : SessHead} (h : Kept q p D s) : KeepsOut q p D (execOpenAck m s) := by
  refine keepsOut_next ?_
  split
  · exact kept_ite (nearDrain_kept (setNearSess_kept h)) h
  · exact h

theorem execClose_kept {m : SessHead} {reason : W32} (h : Kept q p D s) : KeepsOut q p D (execClose m reason s) := by
  refine keepsOut_next ?_
  split
  · exact endHost_kept h
  · split
    · exact kept_ite (openNear_kept (kept_upd h)) h
    · exact h

theorem execNearIdleAck_kept {module : Fin 256} (h : Kept q p D s) : KeepsOut q p D (execNearIdleAck module s) := by
  refine keepsOut_next ?_
  split
  · exact kept_ite (nearAck_kept h) h
  · exact h

theorem execCreditAckTimer_kept {module : Fin 256} (h : Kept q p D s) : KeepsOut q p D (execCreditAckTimer module s) := by
  refine keepsOut_next ?_
  split
  · exact kept_ite (nearAck_kept h) h
  · exact h

theorem execAck_kept {m : SessHead} {sack : Word} (h : Kept q p D s) : KeepsOut q p D (execAck m sack s) := by
  refine keepsOut_next ?_
  split
  · exact hostAcked_kept h
  · split
    · exact kept_ite (nearAcked_kept h) h
    · exact h

theorem execLaneRetrain_kept {port : Fin 10} {lane : Fin 8} (h : Kept q p D s) : KeepsOut q p D (execLaneRetrain port lane s) :=
  have hcounted := fun u c n => faultCounted_kept (count := c) (threshold := n) (u := u) (recordEvent_kept (u := u) (countReg_kept h))
  keepsOut_next (kept_ite h (kept_ite (retireLane_kept (hcounted _ _ _))
    (kept_ite (setLink_kept (noteDown_kept (hcounted _ _ _))) (hcounted _ _ _))))

theorem execFrameReceive_kept {port : Fin 10} {half : Fin 2} {frame : RxFrame} (h : Kept q p D s) :
    KeepsOut q p D (execFrameReceive port half frame s) :=
  keepsOut_next (kept_ite h (kept_ite (countReg_kept (countReg_kept h)) (kept_ite (countReg_kept (countReg_kept h))
    (kept_ite (vyvexFrame_kept (countReg_kept h)) (countReg_kept h)))))

/-- A turn of a session that takes a message, or none. -/
theorem turn_some_kept {m : SessHead} {t : State} (h : Kept q p D s) (ht : turn s m = some t) : Kept q p D t := turn_kept h t ht

theorem execBulkRead_kept {m : SessHead} {addr : Word} {len tag : W32} (h : Kept q p D s) : KeepsOut q p D (execBulkRead m addr len tag s) := by
  refine keepsOut_next ?_
  split
  · exact bulkRead_kept (turn_some_kept h ‹_›)
  · exact h

theorem execBulkWrite_kept {m : SessHead} {addr : Word} {data : List Byte} {vid : Option (BitVec 12)} {tag : W32} {badWords : List Nat}
    (h : Kept q p D s) : KeepsOut q p D (execBulkWrite m addr data vid tag badWords s) := by
  refine keepsOut_next ?_
  split
  · exact bulkWrite_kept (turn_some_kept h ‹_›)
  · exact h

theorem execBulkData_kept {m : SessHead} {tag offset status : W32} {data : List Byte} {last : Bool} (h : Kept q p D s) :
    KeepsOut q p D (execBulkData m tag offset status data last s) := by
  refine keepsOut_next ?_
  split
  · exact kept_upd (turn_some_kept h ‹_›)
  · exact h

theorem execBulkDone_kept {m : SessHead} {tag status : W32} (h : Kept q p D s) : KeepsOut q p D (execBulkDone m tag status s) := by
  refine keepsOut_next ?_
  split
  · exact kept_upd (turn_some_kept h ‹_›)
  · exact h

theorem execMerge_kept {m : MsgHead} {dst tally : W32} {slots : List (BitVec 128)} (h : Kept q p D s) :
    KeepsOut q p D (execMerge m dst tally slots s) := by
  refine keepsOut_next ?_
  split
  · exact kept_ite (merge_kept h) h
  · exact h

theorem execPageRead_kept {m : SessHead} {addr : Word} {wide : Bool} {count : BitVec 8} {tag : W32} (h : Kept q p D s) :
    KeepsOut q p D (execPageRead m addr wide count tag s) := by
  refine keepsOut_next ?_
  split
  · exact h
  · have ht := turn_some_kept h ‹_›
    exact kept_ite (replyTo_kept ht) (kept_ite (replyTo_kept ht) (replyTo_kept (readRegs_kept ht)))

theorem execPageWrite_kept {m : SessHead} {addr : Word} {wide : Bool} {values : List Word} {tag : W32} (h : Kept q p D s) :
    KeepsOut q p D (execPageWrite m addr wide values tag s) := by
  refine keepsOut_next ?_
  split
  · exact h
  · have ht := turn_some_kept h ‹_›
    have hdone := fun o => replyTo_kept (m := m) (o := o)
      (writeRegs_kept (wide := wide) (vs := values) (a := addr.toNat) (bad := false) (warm := false) ht)
    exact kept_ite (replyTo_kept ht) (kept_ite (replyTo_kept ht) (kept_ite (warmReset_kept (hdone _)) (hdone _)))

theorem execSync_kept {module : Fin 256} {offset : Int} (h : Kept q p D s) : KeepsOut q p D (execSync module offset s) := by
  refine keepsOut_next ?_
  split
  · exact kept_ite (measure_kept h) h
  · exact h

/-! ## The security unit, far links and the ramblers -/

theorem execSecureCommandDone_kept {flashOk : Bool} (h : Kept q p D s) : KeepsOut q p D (execSecureCommandDone flashOk s) := by
  refine keepsOut_next ?_
  split
  · exact kept_ite (reportDone_kept (modSec_kept h)) h
  · exact fwStageDone_kept (modSec_kept h)
  · exact h

theorem execResendTimer_kept {site : Fin 16} {msg : Word} (h : Kept q p D s) : KeepsOut q p D (execResendTimer site msg s) := by
  refine keepsOut_next ?_
  split
  · exact moreParity_kept h
  · exact h

theorem execKeyErase_kept {site : Fin 16} (h : Kept q p D s) : KeepsOut q p D (execKeyErase site s) := by
  refine keepsOut_next ?_
  split
  · exact kept_ite (modPeer_kept h) h
  · exact h

theorem execRouteTimeout_kept {site : Fin 16} {route : Fin 4} (h : Kept q p D s) : KeepsOut q p D (execRouteTimeout site route s) := by
  refine keepsOut_next ?_
  split
  · exact kept_ite (modPeer_kept h) h
  · exact h

theorem execNeed_kept {m : FarHead} {msg : Word} {held : Nat} (h : Kept q p D s) : KeepsOut q p D (execNeed m msg held s) := by
  refine keepsOut_next (onAccept_kept h fun _ ht => ?_)
  split
  · exact moreParity_kept ht
  · exact ht

theorem execNeedTimer_kept {site : Fin 16} {msg : Word} (h : Kept q p D s) : KeepsOut q p D (execNeedTimer site msg s) := by
  refine keepsOut_next ?_
  split
  · exact kept_ite (sendNeed_kept h) h
  · exact h

theorem execKeyAck_kept {m : FarHead} {epoch : W32} (h : Kept q p D s) : KeepsOut q p D (execKeyAck m epoch s) :=
  keepsOut_next (kept_ite (countReg_kept h) (kept_ite (setErr_kept (countReg_kept h)) (kept_ite (countReg_kept h)
    (routeSeen_kept (modPeer_kept (countReg_kept h))))))

theorem execRekeyThreshold_kept (h : Kept q p D s) : KeepsOut q p D (execRekeyThreshold s) :=
  keepsOut_next (kept_ite (kept_foldl (modRmb_kept (entropy_kept h)) fun _ _ ht => sendKey_kept ht) h)

theorem execKeyRepeat_kept (h : Kept q p D s) : KeepsOut q p D (execKeyRepeat s) := by
  refine keepsOut_next (kept_foldl (kept_ite h (ensureKey_kept h)) fun t j ht => ?_)
  have hown : Kept q p D (match t.rmb.key with
      | some k => if (getPeer t j).acked.contains t.rmb.epoch then t else sendKey t j t.rmb.epoch k
      | none => t) := by
    split
    · exact kept_ite ht (sendKey_kept ht)
    · exact ht
  dsimp only
  split
  · exact kept_ite hown (sendKey_kept hown)
  · exact hown

theorem execJoin_kept {checks : RmbChecks} (h : Kept q p D s) : KeepsOut q p D (execJoin checks s) := by
  refine keepsOut_next ?_
  split
  · exact kept_ite (joinStep_kept h) h
  · exact beginCmd_kept h fun _ _ _ ht => joinCmd_kept ht

theorem execRamblerCommandDone_kept (h : Kept q p D s) : KeepsOut q p D (execRamblerCommandDone s) := by
  refine keepsOut_next ?_
  split
  · exact h
  · rename_i c _
    refine kept_ite h ?_
    have hstored : ∀ t, Kept q p D t → Kept q p D (match c.done with
        | some d => if c.status = 1 then commitCompose t d else t
        | none => t) := by
      intro t ht
      split
      · exact kept_ite (commitCompose_kept ht) ht
      · exact ht
    dsimp only
    split
    · exact sendSignal_kept (writeStatus_kept (hstored _ (modRmb_kept h)))
    · exact writeStatus_kept (hstored _ (modRmb_kept h))

/-! ## Contexts and the loader -/

theorem execLaunch_kept {ctx : Fin 16} {handle : BitVec 16} {count at_ : Word} (h : Kept q p D s) :
    KeepsOut q p D (execLaunch ctx handle count at_ s) :=
  have hanswered := fun bs m c c' => setErrIf_kept (c := c') (page := faultPage) (b := 3)
    (setErrIf_kept (c := c) (page := scPage) (b := 3) (toHost_kept (m := m) (kept_upd (an := bs) h)))
  keepsOut_next (kept_ite (tryStart_kept (modCtx_kept (hanswered _ _ _ _))) (hanswered _ _ _ _))

theorem execLaunchDone_kept {ctx : Fin 16} (h : Kept q p D s) : KeepsOut q p D (execLaunchDone ctx s) := by
  refine keepsOut_next ?_
  split
  · exact kept_ite (endLaunch_kept h) h
  · exact h

theorem execStopPoint_kept {ctx : Fin 16} (h : Kept q p D s) : KeepsOut q p D (execStopPoint ctx s) := by
  refine keepsOut_next ?_
  split
  · exact h
  · exact kept_ite (modCtx_kept (releaseRemote_kept (kept_foldl h fun _ _ ht => stopHamper_kept ht))) h

theorem execPreemptComplete_kept {ctx : Fin 16} (h : Kept q p D s) : KeepsOut q p D (execPreemptComplete ctx s) := by
  refine keepsOut_next ?_
  split
  · exact kept_ite (ctxCode_kept (modCtx_kept (countReg_kept (freeHampers_kept (writeImage_kept h))))) h
  · exact h

theorem execRestoreComplete_kept {ctx : Fin 16} (h : Kept q p D s) : KeepsOut q p D (execRestoreComplete ctx s) := by
  refine keepsOut_next ?_
  split
  · exact h
  · rename_i i _
    have hinstalled : ∀ n d j f, Kept q p D
        (countReg (modCtx (installSeal (i.hampers.foldl (installHamper ctx.val d n) s) j) ctx.val f) mgmtPage Reg.mgCtxRestores 1) :=
      fun _ _ _ _ => countReg_kept (modCtx_kept (installSeal_kept (kept_foldl h fun _ _ ht => installHamper_kept ht)))
    exact kept_ite h (kept_ite (kept_upd (stopContext_kept (hinstalled _ _ _ _))) (hinstalled _ _ _ _))

theorem execLoaderCommandDone_kept (h : Kept q p D s) : KeepsOut q p D (execLoaderCommandDone s) := by
  refine keepsOut_next ?_
  split
  · exact h
  · exact loaderEnd_kept h

theorem execDrainComplete_kept {page : Nat} (h : Kept q p D s) : KeepsOut q p D (execDrainComplete page s) := by
  have hstopped : Kept q p D (match drainUnit page with
      | .hamper h => drainHamper s h
      | _ => s) := by
    split
    · exact drainHamper_kept h
    · exact h
  refine keepsOut_next (kept_ite (kept_ite ?_ hstopped) h)
  dsimp only
  split
  · exact openNears_kept (closePort_kept (setDrain_kept hstopped))
  · exact setDrain_kept hstopped

/-! ## Power -/

theorem execReady_kept {portsUp : BitVec 10} (h : Kept q p D s) : KeepsOut q p D (execReady portsUp s) := by
  refine keepsOut_next ?_
  split
  · exact openNears_kept (emitReady_kept (kept_flash (modPower_kept (kept_foldl h fun _ _ ht => linkPort_kept ht))))
  · exact kept_ite (emitReady_kept (kept_upd (lockAll_kept (warmSeal_kept (abandonAll_kept h))))) h
  · exact h

theorem execPowerSample_kept {mW mV : Nat} (h : Kept q p D s) : KeepsOut q p D (execPowerSample mW mV s) :=
  have hsampled := recordSample_kept (mW := mW) (mV := mV) (advanceClocks_kept h)
  keepsOut_next (kept_ite h (kept_ite (kept_ite (resumePower_kept (modPower_kept hsampled)) (regulate_kept hsampled)) hsampled))

theorem execThrottle_kept {tj : Nat} {die : Fin 4} (h : Kept q p D s) : KeepsOut q p D (execThrottle tj die s) :=
  have hmeasured := fun c f g => modPower_kept (f := g) (setErrIf_kept (c := c) (page := powerPage) (b := 1) (modPower_kept (f := f) h))
  have hlowered := fun (k : Bool) c f g => kept_ite (c := k = true) (lowerDomains_kept (ds := coreDoms) (n := 10) (hmeasured c f g)) (hmeasured c f g)
  keepsOut_next (kept_ite h (kept_ite (modPower_kept (toFloors_kept (countReg_kept (setErr_kept (hlowered _ _ _ _))))) (hlowered _ _ _ _)))

theorem execMfrModuleState_kept (h : Kept q p D s) : KeepsOut q p D (execMfrModuleState s) := by
  unfold execMfrModuleState
  dsimp only
  split
  · exact busWord_kept (draw_kept h)
  · exact busWord_kept h

/-! ## Cold starts return the beats to 0 (R182) -/

section
variable (hzero : D (Vector.replicate 4 0))
include hzero

theorem execPowerOn_kept {o : StartOutcome} (h : Kept q p D s) : KeepsOut q p D (execPowerOn o s) := by
  have hcold : Kept q p D (coldStart { s with flash := { s.flash with writes := 0 } }) := coldStart_kept (kept_flash h) hzero
  refine keepsOut_next (kept_ite h ?_)
  dsimp only
  split
  · exact modPower_kept (modPower_kept hcold)
  · have hbooted := fun f => bootRom_kept (kind := 0) (slotOk := o.slotOk) (modPower_kept (f := f) hcold)
    exact kept_ite (hbooted _) (kept_foldl (kept_foldl (hbooted _) fun _ _ ht => badPc_kept ht) fun _ _ ht => badUnit_kept ht)

theorem execMrstNRelease_kept (h : Kept q p D s) : KeepsOut q p D (execMrstNRelease s) := by
  refine keepsOut_next ?_
  split
  · exact bootRom_kept h
  · exact bootRom_kept (coldStart_kept h hzero)
  · exact bootRom_kept (coldStart_kept h hzero)
  · exact h

theorem execModuleReset_kept (h : Kept q p D s) : KeepsOut q p D (execModuleReset s) := keepsOut_next (kept_ite (moduleReset_kept h hzero) h)

theorem execPowerLoss_kept (h : Kept q p D s) : KeepsOut q p D (execPowerLoss s) := keepsOut_next (modPower_kept (railsOff_kept h hzero))

theorem execThermalTrip_kept (h : Kept q p D s) : KeepsOut q p D (execThermalTrip s) :=
  keepsOut_next (kept_ite (railsOff_kept (kept_flash h) hzero) h)

end

/-! ## A beat advance moves one die on, and by one (R182) -/

/-- No other die is more than five beats behind die d (R182). -/
def OthersNear (v : Vector Nat 4) (d : Fin 4) : Prop := ∀ e : Fin 4, v[d] ≤ v[e] + 5

theorem dieReady_othersNear {d : Fin 4} (h : dieReady s d = true) : OthersNear s.dies d := by
  simp only [dieReady, Bool.and_eq_true, Vector.all_eq_true, decide_eq_true_eq] at h
  exact fun e => h.2 e.val e.isLt

theorem retryAll_kept {d : Fin 4} (h : Kept q p D s) : Kept q p D ((dieHampers d).foldl retryStalled s) :=
  kept_foldl h fun _ _ ht => retryStalled_kept ht

theorem execBeatAdvance_kept {d : Fin 4} {ups : List Upset} {slow : Option (Nat × Nat)} (h : Kept q p D s)
    (hmoved : OthersNear s.dies d → D (s.dies.set d (s.dies[d] + 1))) : KeepsOut q p D (execBeatAdvance d ups slow s) := by
  have hretried : Kept q p (fun v => v = s.dies) ((dieHampers d).foldl retryStalled s) := retryAll_kept (h.imp fun _ => rfl)
  refine keepsOut_next ?_
  split
  · rename_i hready
    have hnear : OthersNear s.dies d := hretried.beats ▸ dieReady_othersNear hready
    exact (advanceDie_kept hretried).imp fun hdies => hdies ▸ hmoved hnear
  · exact h

/-! ## Every command -/

/-- What a command may make of the beats v of the dies, beside leaving them as they are (R182). -/
def MovesBeats (i : Instr) (v w : Vector Nat 4) : Prop :=
  match i with
  | .beatAdvance d _ _ => OthersNear v d ∧ w = v.set d (v[d] + 1)
  | .powerOn _ | .moduleReset | .mrstNRelease | .powerLoss | .thermalTrip => w = Vector.replicate 4 0
  | _ => False

/-- Every command keeps the queue, the part and the tables, and moves the beats as MovesBeats says. -/
theorem exec_kept {i : Instr} (h : Kept q p D s) (hmoved : ∀ v, MovesBeats i s.dies v → D v) : KeepsOut q p D (exec i s) := by
  cases i with
  -- the control core
  | nop | li | lih | b | jal | skip => exact keepsOut_next (issueCore_kept h)
  | add | sub | and | or | xor | sll | srl | sra | mul | min | max | slt | sltu => exact keepsOut_next (aluRR_kept h)
  | addi | andi | ori | xori | slli | srli | srai => exact keepsOut_next (aluRI_kept h)
  | lds | ldw => exact keepsOut_next (loadScalar_kept h)
  | sts | stw => exact keepsOut_next (storeScalar_kept h)
  | jr => exact keepsOut_next (issue_kept h fun _ ht => modCore_kept (setErrIf_kept ht))
  | window => exact keepsOut_next (kept_ite (illegalAt_kept h) (issueCore_kept h))
  | windowClose => exact execWindowClose_kept h
  | end_ => exact keepsOut_next (issueOutside_kept h fun _ ht => modCore_kept ht)
  | illegalInstruction => exact keepsOut_next (kept_ite (illegalAt_kept h) h)
  | mfs => exact keepsOut_next (issue_kept h fun _ ht => modCore_kept ht)
  | sumr => exact keepsOut_next (kept_ite (illegalAt_kept h) (kept_ite h (issueCore_kept h)))
  | pass | load | turn | vcall | rload | push | pop | dma | post => exact keepsOut_next (issueEngine_kept h)
  | normb => exact keepsOut_next (issueOutside_kept h fun _ ht => handOver_kept ht)
  | sig => exact keepsOut_next (issue_kept h fun _ ht => sendSignal_kept ht)
  | waito | waitc => exact keepsOut_next (issueOutside_kept h fun _ ht => waitOn_kept ht)
  | barr => exact execBarr_kept h
  | take => exact keepsOut_next (issueInside_kept h fun _ ht => takeAt_kept ht)
  | steal => exact keepsOut_next (issueInside_kept h fun _ ht => kept_ite (countLh_kept ht) (kept_ite ht (modList_kept (countLh_kept ht))))
  | sealOp => exact keepsOut_next (issueOutside_kept h fun _ ht => modCore_kept ht)
  | sealRequestLeave => exact execSealRequestLeave_kept h
  | sweep => exact keepsOut_next (issueOutside_kept h fun _ ht => startSweep_kept ht)
  -- the beat
  | beatAdvance => exact execBeatAdvance_kept h fun hnear => hmoved _ ⟨hnear, rfl⟩
  | passComplete => exact execPassComplete_kept h
  | loadComplete => exact execLoadComplete_kept h
  | turnComplete => exact execTurnComplete_kept h
  | vcallComplete => exact execVcallComplete_kept h
  | pushComplete | popComplete => exact keepsOut_next (completeStash_kept h)
  | stashExtensionArrival => exact execStashExtensionArrival_kept h
  | scheduledDmaComplete => exact execScheduledDmaComplete_kept h
  | openDmaComplete => exact execOpenDmaComplete_kept h
  | rloadCommit => exact execRloadCommit_kept h
  | beatWatchdog => exact execBeatWatchdog_kept h
  -- lists and merges
  | itemVisible => exact execItemVisible_kept h
  | stealProbe => exact execStealProbe_kept h
  | probeAnswer => exact execProbeAnswer_kept h
  | basketMerge => exact execBasketMerge_kept h
  -- registers
  | registerWrite => exact keepsOut_next (regWrite_kept h)
  | pageExpertKeyWrite | frameInject | frameBist | stashDescriptorWrite | vecRstoreDataWrite | vecRstoreCommit | vecInject | vecBist
  | hamSregDataWrite | listFlush | feedInject | hbmInject | hbmRetireRow | lpcInject | ledResetRing | ledSeedWrite =>
    exact keepsOut_next (rowWrite_kept h)
  | hazLogClear => exact keepsOut_next (kept_ite (rowWrite_kept h) h)
  | listConfigWrite => exact keepsOut_next (kept_ite h (rowWrite_kept h))
  | ledConfigWrite => exact keepsOut_next (kept_ite (rowWrite_kept h) h)
  | vecRstoreDataRead => exact execVecRstoreDataRead_kept h
  | bistComplete => exact execBistComplete_kept h
  -- the seal, the sweep and the update units
  | sealRequest => exact execSealRequest_kept h
  | sweepGo => exact keepsOut_next (kept_ite (sweepGo_kept h) h)
  | normCancel => exact keepsOut_next (kept_ite (normCancel_kept h) h)
  | sealReopen => exact keepsOut_next (kept_ite (sealReopen_kept h) h)
  | ucStepWrite => exact keepsOut_next (ucStepWrite_kept h)
  | chunkCommit => exact execChunkCommit_kept h
  | ucRstoreDataRead => exact keepsOut_next (kept_upd (ucRstoreRead_kept h))
  | ucRstoreDataWrite => exact keepsOut_next (ucRstoreWrite_kept h)
  | ucRstoreCommit => exact keepsOut_next (ucCommit_kept h)
  | updInject => exact keepsOut_next (expertOnly_kept h fun _ ht => updInject_kept ht)
  | updBist => exact keepsOut_next (expertOnly_kept h fun _ ht => startBist_kept ht)
  | ledgerAck => exact keepsOut_next (kept_ite (kept_upd h) h)
  -- contexts and images
  | imageLoad | unload | patch => exact keepsOut_next (kept_ite (loadCtrl_kept h) h)
  | loaderCommandDone => exact execLoaderCommandDone_kept h
  | launch => exact execLaunch_kept h
  | launchStart => exact keepsOut_next (tryStart_kept h)
  | launchDone => exact execLaunchDone_kept h
  | preempt => exact keepsOut_next (preemptCtx_kept h)
  | stopPoint => exact execStopPoint_kept h
  | preemptComplete => exact execPreemptComplete_kept h
  | restore => exact keepsOut_next (restoreCtx_kept h)
  | restoreComplete => exact execRestoreComplete_kept h
  | contextReset => exact keepsOut_next (resetContext_kept h)
  | drain => exact keepsOut_next (startDrain_kept h)
  | drainComplete => exact execDrainComplete_kept h
  | enable => exact keepsOut_next (enableBlock_kept h)
  | debug => exact keepsOut_next (setDebug_kept h)
  -- tallies
  | tallySignal => exact execTallySignal_kept h
  | tallyObserveWait => exact execTallyObserveWait_kept h
  | tallyConsumeWait => exact execTallyConsumeWait_kept h
  | barrierArrival => exact execBarrierArrival_kept h
  | tlyCountSet => exact keepsOut_next (expertOnly_kept h fun _ ht => tlyCountSet_kept ht)
  | tlyBarRepair => exact keepsOut_next (expertOnly_kept h fun _ ht => tlyBarRepair_kept ht)
  | lending => exact execLending_kept h
  | tallySignalMessage => exact keepsOut_next (tallyFrom_kept h fun _ ht => remoteSignal_kept ht)
  | tallyWatch | tallyConsume => exact keepsOut_next (tallyFrom_kept h fun _ ht => remoteWait_kept ht)
  | tallyArrive => exact execTallyArrive_kept h
  | tallyRelease m abandoned vid token count => exact execTallyRelease_kept (vid := vid) (count := count) h
  | barrierAbandon => exact keepsOut_next (kept_ite h (breakSlot_kept h))
  -- memory
  | memoryWrite => exact keepsOut_next (checkedWrite_kept h)
  | memoryRead => exact execMemoryRead_kept h
  | scrub => exact keepsOut_next (ctlRead_kept (setCtl_kept h))
  | rowCopyComplete => exact execRowCopyComplete_kept h
  | larderCopyComplete => exact execLarderCopyComplete_kept h
  | repairComplete => exact execRepairComplete_kept h
  -- the site count
  | scMeasurement => exact keepsOut_next (kept_ite h (measure_kept h))
  | ptpMessage => exact keepsOut_next (kept_ite (measure_kept h) h)
  | sync => exact execSync_kept h
  | sourceLost => exact keepsOut_next (kept_ite (emit_kept (setErr_kept (modSc_kept h))) h)
  | holdoverLimit => exact keepsOut_next (kept_ite (modSc_kept h) h)
  | scSourceWrite => exact keepsOut_next (scSourceWrite_kept h)
  | scSet => exact keepsOut_next (expertOnly_kept h fun _ ht => scSetWrite_kept ht)
  -- faults
  | stepReplay => exact execStepReplay_kept h
  | refusalNotice => exact keepsOut_next (kept_ite (refusalNotice_kept (noteUser_kept h)) h)
  | memberDrained => exact keepsOut_next (kept_ite (loseNear_kept h) h)
  | moduleDrainComplete => exact execModuleDrainComplete_kept h
  | laggardEvaluation => exact execLaggardEvaluation_kept h
  | fltReport => exact keepsOut_next (fltReport_kept h)
  | fltFlagClear => exact keepsOut_next (expertOnly_kept h fun _ ht => fltFlagClear_kept ht)
  | mgFlashEraseLog => exact keepsOut_next (expertOnly_kept h fun _ ht => flashEraseLog_kept ht)
  | mgEventTest => exact keepsOut_next (expertOnly_kept h fun _ ht => eventTest_kept ht)
  -- arbiters and ports
  | arbitration => exact keepsOut_next (arbitrate_kept h)
  | arbCutoff => exact keepsOut_next (kept_ite (arbCutoff_kept h) h)
  | arbConfigWrite => exact keepsOut_next (kept_ite (arbConfigWrite_kept h) h)
  | laneRetrain => exact execLaneRetrain_kept h
  | linkUp => exact keepsOut_next (kept_ite (openNears_kept (noteUp_kept (setLink_kept h))) h)
  | portCfgWrite => exact keepsOut_next (portCfg_kept h)
  | portLaneRetire => exact keepsOut_next (expertOnly_kept h fun _ ht => portLaneRetire_kept ht)
  | portLoopback => exact keepsOut_next (expertOnly_kept h fun _ ht => portLoopback_kept ht)
  | frameReceive => exact execFrameReceive_kept h
  | arpRequest | neighbourSolicitation => exact keepsOut_next (neighbourReply_kept h)
  | icmpEcho => exact keepsOut_next (kept_ite (wireReply_kept (setPort_kept h)) h)
  -- sessions
  | openMsg => exact execOpen_kept h
  | openAck => exact execOpenAck_kept h
  | closeMsg m reason => exact execClose_kept (reason := reason) h
  | ack => exact execAck_kept h
  | pageRead => exact execPageRead_kept h
  | pageWrite => exact execPageWrite_kept h
  | bulkRead => exact execBulkRead_kept h
  | bulkWrite => exact execBulkWrite_kept h
  | bulkData => exact execBulkData_kept h
  | bulkDone => exact execBulkDone_kept h
  | merge => exact execMerge_kept h
  | hostResendTimeout => exact execHostResendTimeout_kept h
  | nearIdleAck => exact execNearIdleAck_kept h
  | creditAckTimer => exact execCreditAckTimer_kept h
  | sessionLost => exact keepsOut_next (loseNear_kept h)
  -- the ramblers and the far links
  | compose => exact keepsOut_next (beginCmd_kept h fun _ _ _ ht => composeCmd_kept ht)
  | apply => exact keepsOut_next (beginCmd_kept h fun _ _ _ ht => applyCmd_kept ht)
  | join => exact execJoin_kept h
  | ramblerCommandDone => exact execRamblerCommandDone_kept h
  | shard => exact keepsOut_next (onAccept_kept h fun _ ht => shardIn_kept ht)
  | receipt => exact keepsOut_next (onAccept_kept h fun _ ht => modRmb_kept ht)
  | need => exact execNeed_kept h
  | heartbeat => exact keepsOut_next (onAccept_kept h fun _ ht => heartbeat_kept ht)
  | requestSnapshot => exact keepsOut_next (onAccept_kept h fun _ ht => kept_ite ht (sendBodyTo_kept ht))
  | requestArchive => exact keepsOut_next (onAccept_kept h fun _ ht => kept_foldl ht fun _ _ hu => answerRound_kept hu)
  | needTimer => exact execNeedTimer_kept h
  | resendTimer => exact execResendTimer_kept h
  | heartbeatTimer => exact keepsOut_next (heartbeatTimer_kept h)
  | routeTimeout => exact execRouteTimeout_kept h
  | farHello => exact keepsOut_next (kept_ite (farHello_kept h) h)
  | farHelloAck => exact keepsOut_next (farHelloAck_kept h)
  | farHelloTimer => exact keepsOut_next (kept_ite (kept_foldl h fun _ _ ht => sendHello_kept ht) h)
  | key => exact keepsOut_next (keyMsg_kept h)
  | keyAck => exact execKeyAck_kept h
  | farClose => exact keepsOut_next (onAccept_kept h fun _ ht => endFar_kept ht)
  | rekeyThreshold => exact execRekeyThreshold_kept h
  | epochEnd => exact keepsOut_next (kept_ite (nextEpoch_kept h) h)
  | keyRepeat => exact execKeyRepeat_kept h
  | keyErase => exact execKeyErase_kept h
  | rmbRekey => exact keepsOut_next (expertOnly_kept h fun _ ht => kept_ite (rmbRekey_kept ht) ht)
  | rmbInject => exact keepsOut_next (expertOnly_kept h fun _ ht => rmbInject_kept ht)
  -- the security unit
  | report | fwStage => exact keepsOut_next (secBegin_kept h)
  | secureCommandDone => exact execSecureCommandDone_kept h
  | secSvnCommit => exact keepsOut_next (expertOnly_kept h fun _ ht => svnCommit_kept ht)
  | secKeyRevoke => exact keepsOut_next (expertOnly_kept h fun _ ht => keyRevoke_kept ht)
  | sitecertInstall => exact keepsOut_next (expertOnly_kept h fun _ ht => sitecertInstall_kept ht)
  | sitecertErase => exact keepsOut_next (expertOnly_kept h fun _ ht => sitecertErase_kept ht)
  | anchorInstall => exact keepsOut_next (expertOnly_kept h fun _ ht => anchorInstall_kept ht)
  | anchorErase => exact keepsOut_next (expertOnly_kept h fun _ ht => anchorErase_kept ht)
  | entropy => exact keepsOut_next (setErr_kept (countReg_kept (modSec_kept h)))
  | entropyOk => exact keepsOut_next (modSec_kept h)
  -- power
  | powerOn => exact execPowerOn_kept (hmoved _ rfl) h
  | ready => exact execReady_kept h
  | moduleReset => exact execModuleReset_kept (hmoved _ rfl) h
  | mrstNRelease => exact execMrstNRelease_kept (hmoved _ rfl) h
  | powerLoss => exact execPowerLoss_kept (hmoved _ rfl) h
  | thermalTrip => exact execThermalTrip_kept (hmoved _ rfl) h
  | warmReset => exact keepsOut_next (warmReset_kept h)
  | input => exact keepsOut_next (kept_ite (modPower_kept (setErr_kept h)) h)
  | inputAbove40V => exact keepsOut_next (kept_ite (modPower_kept h) h)
  | powerSample => exact execPowerSample_kept h
  | throttle => exact execThrottle_kept h
  | thermalHaltResume => exact keepsOut_next (kept_ite (modPower_kept h) h)
  | pwrVoltForce => exact keepsOut_next (expertOnly_kept h fun _ ht => voltForce_kept ht)
  -- the management bus
  | readVin | readIin | readPin | readTemperature1 | mfrFaultInfo | mfrBootMs => exact busWord_kept h
  | readTemperature2 => exact busWord_kept (coolant_kept h)
  | statusByte | statusWord => exact busWord_kept (draw_kept h)
  | mfrId | mfrModel | mfrSerial => exact mfrBlock_kept h
  | mfrModuleState => exact execMfrModuleState_kept h
  | mfrDeviceId => exact keepsOut_next (kept_upd h)
  | mfrCoolant => exact busWord_kept (coolantWord_kept h)

end

/-! ## The statements -/

/-- Settles O5: exec_kept, whatever the beats. -/
theorem execKeepsQueueAndPart : Obligations.ExecKeepsQueueAndPart := by
  unfold Obligations.ExecKeepsQueueAndPart
  intro i s t hs ht
  obtain ⟨hpending, hpart, -⟩ := exec_kept (kept_of_safe hs) (fun _ _ => trivial) t ht
  exact ⟨hpending, hpart⟩

/-- Settles O6: exec_kept, with MovesBeats for the beats. -/
theorem onlyBeatAdvanceAndColdStartsMoveBeats : Obligations.OnlyBeatAdvanceAndColdStartsMoveBeats := by
  unfold Obligations.OnlyBeatAdvanceAndColdStartsMoveBeats
  intro i s t hs ht hne
  have hkept := exec_kept (i := i) (D := fun v => v = s.dies ∨ MovesBeats i s.dies v) ((kept_of_safe hs).imp fun _ => .inl rfl) (fun _ => .inr) t ht
  have hmoved : MovesBeats i s.dies t.dies := hkept.beats.resolve_left hne
  unfold MovesBeats at hmoved
  split at hmoved
  · exact hmoved.2
  · exact hmoved
  · exact hmoved
  · exact hmoved
  · exact hmoved
  · exact hmoved
  · exact hmoved.elim

theorem beatsClose_iff (v : Vector Nat 4) : beatsClose v = true ↔ ∀ a b : Fin 4, v[a] ≤ v[b] + 6 := by
  simp only [beatsClose, Vector.all_eq_true, decide_eq_true_eq]
  exact ⟨fun h a b => h a.val a.isLt b.val b.isLt, fun h i hi j hj => h ⟨i, hi⟩ ⟨j, hj⟩⟩

/-- A die that no other is five beats behind may go on by one (R182). -/
theorem beatsClose_advance {v : Vector Nat 4} {d : Fin 4} (h : beatsClose v = true) (hd : OthersNear v d) :
    beatsClose (v.set d (v[d] + 1)) = true := by
  rw [beatsClose_iff] at h ⊢
  intro a b
  have hset : ∀ e : Fin 4, (v.set d (v[d] + 1))[e] = if d = e then v[d] + 1 else v[e] := by
    intro e
    rw [Fin.getElem_fin, Vector.getElem_set, Fin.getElem_fin, Fin.getElem_fin]
    simp only [Fin.ext_iff]
  rw [hset a, hset b]
  by_cases hb : d = b
  · have hdie := h a d
    subst hb
    rw [if_pos rfl]
    split <;> omega
  · have hab := h a b
    have hnear := hd b
    rw [if_neg hb]
    split <;> omega

theorem beatsClose_zero : beatsClose (Vector.replicate 4 0) = true := (beatsClose_iff _).2 fun a b => by simp

theorem movesBeats_close {i : Instr} {v w : Vector Nat 4} (h : beatsClose v = true) (hw : MovesBeats i v w) : beatsClose w = true := by
  unfold MovesBeats at hw
  split at hw
  · exact hw.2 ▸ beatsClose_advance h hw.1
  · exact hw ▸ beatsClose_zero
  · exact hw ▸ beatsClose_zero
  · exact hw ▸ beatsClose_zero
  · exact hw ▸ beatsClose_zero
  · exact hw ▸ beatsClose_zero
  · exact hw.elim

theorem exec_safe {i : Instr} {s t : State} (hs : s.safe = true) (ht : exec i s = .next t) : t.safe = true := by
  obtain ⟨-, hclose⟩ := Bool.and_eq_true_iff.1 hs
  obtain ⟨-, -, hwf, hbeats⟩ := exec_kept ((kept_of_safe hs).imp fun _ => hclose) (fun _ => movesBeats_close hclose) t ht
  exact Bool.and_eq_true_iff.2 ⟨hwf, hbeats⟩

/-- Settles O4: an idle step changes nothing, and a command keeps safety whatever queue is left behind it. -/
theorem stepKeepsSafeStates : Obligations.StepKeepsSafeStates := by
  unfold Obligations.StepKeepsSafeStates
  intro s t hs ht
  unfold step at ht
  split at ht
  · exact Host.Outcome.next.inj ht ▸ hs
  · rename_i rest _
    exact exec_safe (s := { s with pending := rest }) hs ht

/-- Settles O3: the tables of the reset state are empty, and its fields stand as written. -/
theorem resetIsSafe : Obligations.ResetIsSafe := by
  unfold Obligations.ResetIsSafe
  exact ⟨Bool.and_eq_true_iff.2 ⟨rfl, beatsClose_zero⟩, rfl, rfl, rfl, rfl, fun lh => by simp [getH, State.reset, Hamper.idle, Core.idle]⟩

end Sys2Proof.Machine
end

section
/-!
The end of a beat: when a die is ready and what its advance moves (R182, R183), and the order in which the pantry writes of a beat commit (R184).
-/
namespace Sys2Proof.Machine

/-! ## Ready dies (R183) -/

/-- A hamper at rest has no operation to try again. -/
theorem retryStalled_idle {s : State} {lh : Fin 48} (h : getH s lh = .idle) : retryStalled s lh = s := by
  have hnone : (getH s lh).core.stalled = [] := by rw [h]; rfl
  calc retryStalled s lh = setH s lh { getH s lh with core := { (getH s lh).core with stalled := [] } } := by
        rw [retryStalled, hnone, List.foldl_nil, modCore_eq]
    _ = setH s lh (getH s lh) := by rw [h]; rfl
    _ = s := setH_getH s lh

theorem retryAll_idle {s : State} {l : List (Fin 48)} (h : ∀ lh ∈ l, getH s lh = .idle) : l.foldl retryStalled s = s := by
  induction l with
  | nil => rfl
  | cons lh l ih =>
    obtain ⟨hlh, hl⟩ := List.forall_mem_cons.1 h
    rw [List.foldl_cons, retryStalled_idle hlh, ih hl]

/-- A hamper at rest acknowledges every beat. -/
theorem hamperAcked_idle (t : Nat) : hamperAcked .idle t = true := by
  simp [hamperAcked, Hamper.idle, Core.idle, coreAcked, completionsDone, Frame.idle, listBlocks, ListUnit.empty, sealDue, windowDue]

theorem dieReady_idle {s : State} {d : Fin 4} (hrun : s.power.phase = .running) (hhalts : s.power.halts = ⟨false, false, false⟩)
    (hidle : ∀ lh ∈ dieHampers d, getH s lh = .idle) (hlevel : ∀ e : Fin 4, s.dies[e] = s.dies[d]) : dieReady s d = true := by
  have hacked : (dieHampers d).all (fun lh => hamperAcked (getH s lh) s.dies[d]) = true :=
    List.all_eq_true.2 fun lh hlh => hidle lh hlh ▸ hamperAcked_idle _
  have hnear : s.dies.all (fun u => decide (s.dies[d] ≤ u + 5)) = true :=
    Vector.all_eq_true.2 fun i hi => decide_eq_true (by have := hlevel ⟨i, hi⟩; simp only [Fin.getElem_fin] at this ⊢; omega)
  simp only [dieReady, hrun, hhalts, hacked, hnear]
  rfl

/-- BEAT_ADVANCE of a die that is not ready changes nothing. -/
theorem exec_beatAdvance_notReady {s : State} {d : Fin 4} (ups : List Upset) (slow : Option (Nat × Nat))
    (h : dieReady ((dieHampers d).foldl retryStalled s) d = false) : exec (.beatAdvance d ups slow) s = .next s :=
  congrArg Host.Outcome.next (if_neg (h ▸ Bool.false_ne_true))

/-- BEAT_ADVANCE of a die that is ready. -/
theorem exec_beatAdvance_ready {s : State} {d : Fin 4} (ups : List Upset) (slow : Option (Nat × Nat))
    (h : dieReady ((dieHampers d).foldl retryStalled s) d = true) :
    exec (.beatAdvance d ups slow) s = .next (advanceDie ((dieHampers d).foldl retryStalled s) d ups slow) :=
  congrArg Host.Outcome.next (if_pos h)

/-- Settles O7: a ready die completes its beat, one that is not ready leaves the state as it is, and a die at rest is ready. -/
theorem beatAdvanceCompletesABeat : Obligations.BeatAdvanceCompletesABeat := by
  unfold Obligations.BeatAdvanceCompletesABeat
  intro s d ups slow hs
  dsimp only
  refine ⟨fun hready => ⟨_, exec_beatAdvance_ready ups slow hready, ?_⟩, fun hready => ⟨_, exec_beatAdvance_notReady ups slow hready, rfl⟩,
    fun hrun hhalts hidle hlevel => ?_⟩
  · have hretried : Kept s.pending s.part (fun v => v = s.dies) ((dieHampers d).foldl retryStalled s) :=
      retryAll_kept ((kept_of_safe hs).imp fun _ => rfl)
    exact (advanceDie_kept hretried).beats
  · rw [retryAll_idle hidle]
    exact dieReady_idle hrun hhalts hidle hlevel

/-! ## The order of pantry writes (R184) -/

/-- A byte that a pantry write covers. -/
def PWrite.Covers (w : PWrite) (o : Nat) : Prop := w.addr ≤ o ∧ o < w.addr + w.data.length

/-- The writes of a beat in the order in which they commit (R184). -/
def commitOrder (ws : List PWrite) : List PWrite := (List.range 8).flatMap (fun p => ws.filter (fun w => w.prio == p))

/-- The bytes of a write to the pantry of a hamper. -/
def putWrite (lh : Nat) (m : List (Nat × Byte)) (w : PWrite) : List (Nat × Byte) := memWrite m (pantryAddr lh w.addr) w.data

theorem mem_commitOrder {ws : List PWrite} {w : PWrite} (h : w ∈ commitOrder ws) : w ∈ ws := by
  obtain ⟨p, -, hw⟩ := List.mem_flatMap.1 h
  exact (List.mem_filter.1 hw).1

/-- A write within the partition is stored whole (R12). -/
theorem take_of_fits {w : PWrite} {n : Nat} (h : w.addr + w.data.length ≤ n) :
    (if n ≤ w.addr then [] else w.data.take (n - w.addr)) = w.data := by
  split
  · exact (List.eq_nil_of_length_eq_zero (by omega)).symm
  · exact List.take_of_length_le (by omega)

/-- Writes within the partition commit one by one in the order of R184. -/
theorem commitWrites_mem {s : State} {lh : Nat} {ws : List PWrite} (h : ∀ w ∈ ws, w.addr + w.data.length ≤ pantrySize s lh) :
    (commitWrites s lh ws).mem = (commitOrder ws).foldl (putWrite lh) s.mem := by
  have hput : (commitOrder ws).foldl (putWrite lh) s.mem = (commitOrder ws).foldl (fun m w =>
      memWrite m (pantryAddr lh w.addr) (if pantrySize s lh ≤ w.addr then [] else w.data.take (pantrySize s lh - w.addr))) s.mem :=
    List.foldl_rel (r := Eq) rfl fun w hw m m' hm => by rw [hm, take_of_fits (h w (mem_commitOrder hw)), putWrite]
  rw [hput, commitOrder, List.foldl_flatMap]
  rfl

section
variable {lh : Nat} {m : List (Nat × Byte)}

theorem putWrites_wf (hm : Memory.wf m = true) (l : List PWrite) : Memory.wf (l.foldl (putWrite lh) m) = true :=
  foldl_memWf hm fun _ _ h => memWrite_wf h _ _

theorem memGet_putWrites_out (hm : Memory.wf m = true) {l : List PWrite} {a : Nat}
    (h : ∀ w ∈ l, a < pantryAddr lh w.addr ∨ pantryAddr lh w.addr + w.data.length ≤ a) : memGet (l.foldl (putWrite lh) m) a = memGet m a := by
  induction l generalizing m with
  | nil => rfl
  | cons w l ih =>
    obtain ⟨hw, hl⟩ := List.forall_mem_cons.1 h
    have hput : Memory.wf (putWrite lh m w) = true := memWrite_wf hm _ _
    rw [List.foldl_cons, ih hput hl, putWrite, memGet_write_out hm _ _ hw]

/-- The last write that covers a byte gives it its value. -/
theorem memGet_putWrites_last (hm : Memory.wf m = true) (l l' : List PWrite) {w : PWrite} {k : Nat} (hk : k < w.data.length)
    (h : ∀ x ∈ l', ¬ x.Covers (w.addr + k)) :
    some (memGet ((l ++ w :: l').foldl (putWrite lh) m) (pantryAddr lh (w.addr + k))) = w.data[k]? := by
  have hout : ∀ x ∈ l',
      pantryAddr lh (w.addr + k) < pantryAddr lh x.addr ∨ pantryAddr lh x.addr + x.data.length ≤ pantryAddr lh (w.addr + k) := by
    intro x hx
    have := h x hx
    unfold PWrite.Covers at this
    unfold pantryAddr
    omega
  have hat : pantryAddr lh (w.addr + k) = pantryAddr lh w.addr + k := by unfold pantryAddr; omega
  have hl := putWrites_wf (lh := lh) hm l
  have hput : Memory.wf (putWrite lh (l.foldl (putWrite lh) m) w) = true := memWrite_wf hl _ _
  rw [List.foldl_append, List.foldl_cons, memGet_putWrites_out hput hout, putWrite, hat, memGet_write_in hl _ _ hk,
    List.getElem?_eq_getElem hk]

end

/-- The places after p in the order of R184 are the greater ones. -/
theorem range_split {p n : Nat} (h : p < n) : ∃ before after, List.range n = before ++ p :: after ∧ ∀ x ∈ after, p < x := by
  obtain ⟨before, after, hsplit⟩ := List.append_of_mem (List.mem_range.2 h)
  have hsorted : (before ++ p :: after).Pairwise (· < ·) := hsplit ▸ List.pairwise_lt_range
  exact ⟨before, after, hsplit, (List.pairwise_cons.1 (List.pairwise_append.1 hsorted).2.1).1⟩

/-- The writes that commit after a write: those of its place that come later, and those of a later place (R184). -/
theorem commitOrder_split {pre post : List PWrite} {w : PWrite} (h : w.prio < 8) :
    ∃ before after, commitOrder (pre ++ w :: post) = before ++ w :: after ∧
      ∀ x ∈ after, (x ∈ pre ∧ w.prio < x.prio) ∨ (x ∈ post ∧ w.prio ≤ x.prio) := by
  obtain ⟨ps, qs, hsplit, hlater⟩ := range_split h
  have hplace : (pre ++ w :: post).filter (fun x => x.prio == w.prio) =
      pre.filter (fun x => x.prio == w.prio) ++ w :: post.filter (fun x => x.prio == w.prio) := by
    rw [List.filter_append, List.filter_cons, if_pos (beq_self_eq_true w.prio)]
  refine ⟨ps.flatMap (fun p => (pre ++ w :: post).filter (fun x => x.prio == p)) ++ pre.filter (fun x => x.prio == w.prio),
    post.filter (fun x => x.prio == w.prio) ++ qs.flatMap (fun p => (pre ++ w :: post).filter (fun x => x.prio == p)), ?_, ?_⟩
  · rw [commitOrder, hsplit, List.flatMap_append, List.flatMap_cons, hplace]
    simp only [List.append_assoc, List.cons_append]
  · intro x hx
    rcases List.mem_append.1 hx with hx | hx
    · obtain ⟨hmem, hprio⟩ := List.mem_filter.1 hx
      exact .inr ⟨hmem, Nat.le_of_eq (beq_iff_eq.1 hprio).symm⟩
    · obtain ⟨p, hp, hx⟩ := List.mem_flatMap.1 hx
      obtain ⟨hmem, hprio⟩ := List.mem_filter.1 hx
      have hgt : w.prio < x.prio := beq_iff_eq.1 hprio ▸ hlater p hp
      rcases List.mem_append.1 hmem with hpre | hpost
      · exact .inl ⟨hpre, hgt⟩
      · rcases List.mem_cons.1 hpost with rfl | hpost
        · exact absurd hgt (Nat.lt_irrefl _)
        · exact .inr ⟨hpost, Nat.le_of_lt hgt⟩

/-- Settles O8: the writes commit one by one, and none that commits after the one named covers the byte. -/
theorem pantryWritesCommitInOrder : Obligations.PantryWritesCommitInOrder := by
  unfold Obligations.PantryWritesCommitInOrder
  intro s lh ws hwf hws
  obtain ⟨hm, -⟩ := (wf_iff s).1 hwf
  rw [commitWrites_mem fun w hw => (hws w hw).2]
  refine ⟨fun a ha => memGet_putWrites_out hm fun w hw => ha w (mem_commitOrder hw), ?_⟩
  rintro pre w post k rfl hk hpre hpost
  obtain ⟨hprio, -⟩ := hws w (List.mem_append_right _ List.mem_cons_self)
  obtain ⟨before, after, hsplit, hafter⟩ := commitOrder_split (pre := pre) (post := post) hprio
  rw [hsplit]
  refine memGet_putWrites_last hm before after hk fun x hx => ?_
  rcases hafter x hx with ⟨hmem, hgt⟩ | ⟨hmem, hge⟩
  · exact hpre x hmem hgt
  · exact hpost x hmem hge

end Sys2Proof.Machine
end

section
/-!
The loader (R197, R198, R211): a command that is taken shows busy, one that is refused sets LOAD_REFUSED, and what each command leaves at its end.
-/
namespace Sys2Proof.Machine

/-! ## Sparse tables -/

section
variable {α : Type} {d : α} {keep : Nat × α → Bool} {l : List (Nat × α)} {n : Nat}

/-- A key that a filter drops reads the default. -/
theorem sparseGet_filter_drop (h : ∀ v, keep (n, v) = false) : sparseGet d (l.filter keep) n = d := by
  induction l with
  | nil => rfl
  | cons x l ih =>
    obtain ⟨k, v⟩ := x
    rw [List.filter_cons]
    split
    · rename_i hk
      have hne : n ≠ k := fun e => absurd (e ▸ hk) (by rw [h v]; exact Bool.false_ne_true)
      rw [sparseGet, if_neg hne, ih, ite_self]
    · exact ih

/-- A key that a filter keeps reads as before. -/
theorem sparseGet_filter_keep {a : Nat} (hl : risingFrom a l = true) (h : ∀ v, keep (n, v) = true) :
    sparseGet d (l.filter keep) n = sparseGet d l n := by
  induction l generalizing a with
  | nil => rfl
  | cons x l ih =>
    obtain ⟨k, v⟩ := x
    simp only [risingFrom, Bool.and_eq_true, decide_eq_true_eq] at hl
    rw [List.filter_cons]
    split
    · rw [sparseGet, sparseGet, ih hl.2]
    · rename_i hk
      have hne : n ≠ k := fun e => hk (e ▸ h v)
      rw [ih hl.2, sparseGet, if_neg hne]
      split
      · exact sparseGet_below hl.2 (by omega)
      · rfl

/-- Keys that are all set to the default read the default. -/
theorem sparseGet_clear [DecidableEq α] {ks : List Nat} (hl : rising l = true) (hn : n ∈ ks ∨ sparseGet d l n = d) :
    sparseGet d (ks.foldl (fun l k => sparseSet d l k d) l) n = d := by
  induction ks generalizing l with
  | nil => exact hn.resolve_left List.not_mem_nil
  | cons k ks ih =>
    refine ih (sparseSet_rising0 d hl k d) ?_
    by_cases hk : n = k
    · subst hk
      exact .inr (sparseGet_set_self d hl n d)
    · rw [sparseGet_set_ne d d hl d hk]
      exact hn.imp_left fun hmem => (List.mem_cons.1 hmem).resolve_left hk

end

/-- Bytes outside a cleared range read as before. -/
theorem memGet_clear_out {m : List (Nat × Byte)} (hm : Memory.wf m = true) {a n x : Nat} (h : x < a ∨ a + n ≤ x) :
    memGet (memClear m a n) x = memGet m x :=
  sparseGet_filter_keep (sparseWfFrom_rising hm) fun _ => by simpa using h

/-! ## Commands taken and refused (R197, R211) -/

/-- What the report of a refusal leaves: its code and handle, and LOAD_REFUSED. -/
def LoadEndedWith (s : State) (code handle : Nat) (t : State) : Prop :=
  ∃ i, t = { s with loader := { cmd := none, state := 3, code := code, handle := handle, info := i }, regs := t.regs } ∧ Flagged s t mgmtPage 0

theorem loadRefused_endedWith {s : State} (hr : rising s.regs = true) (handle : Nat) (r : Refused) :
    LoadEndedWith s r.1 handle (loadRefused s handle r) := by
  have herr : ∀ l : Loader,
      setErr { s with loader := l } mgmtPage 0 = { s with loader := l, regs := (setErr { s with loader := l } mgmtPage 0).regs } ∧
      Flagged s (setErr { s with loader := l } mgmtPage 0) mgmtPage 0 := by
    intro l
    obtain ⟨heq, hflag, -⟩ := setErr_errorOnly (s := { s with loader := l }) hr mgmtPage 0
    exact ⟨heq, hflag⟩
  exact ⟨_, herr _⟩

section
variable {s : State} {v : W32}

theorem bits_handle (v : W32) : bits v.toNat 31 16 = v.toNat / 65536 := by
  have := v.isLt
  rw [bits, Nat.shiftRight_eq_div_pow]
  omega

theorem bits_loadCtx (v : W32) : bits v.toNat 7 4 = v.toNat / 16 % 16 :=
  congrArg (· % 16) (Nat.shiftRight_eq_div_pow v.toNat 4)

theorem loadCtrl_busy (v : Nat) (h : ¬ s.loader.cmd = none) : loadCtrl s v = setErr s mgmtPage 0 :=
  if_pos (Option.isSome_iff_ne_none.2 h)

theorem loadCtrl_load (h : s.loader.cmd = none) (hbits : ∀ j < 3, v.toNat.testBit j = decide (j = 0)) :
    loadCtrl s v.toNat =
      loadBusy s (.load (v.toNat / 16 % 16) (getReg s mgmtPage Reg.mgLoadAddr) (getReg s mgmtPage Reg.mgLoadLen)) 0 := by
  simp [loadCtrl, h, hbits, bit, bits_loadCtx]

theorem loadCtrl_unload (h : s.loader.cmd = none) (hbits : ∀ j < 3, v.toNat.testBit j = decide (j = 1)) :
    loadCtrl s v.toNat = loadBusy s (.unload (v.toNat / 65536)) (v.toNat / 65536) := by
  simp [loadCtrl, h, hbits, bit, bits_handle]

theorem loadCtrl_patch (h : s.loader.cmd = none) (hbits : ∀ j < 3, v.toNat.testBit j = decide (j = 2)) :
    loadCtrl s v.toNat = loadBusy s (.patch (v.toNat / 65536) (getReg s mgmtPage Reg.mgPatchAddr)) (v.toNat / 65536) := by
  simp [loadCtrl, h, hbits, bit, bits_handle]

theorem loadCtrl_both (h : s.loader.cmd = none) (hgo : v.toNat.testBit 0 = true) (hun : v.toNat.testBit 1 = true) :
    loadCtrl s v.toNat = loadRefused s (v.toNat / 65536) (14, 0, 0) := by
  have htwo : 1 < bit true + bit true + bit (v.toNat.testBit 2) := Nat.lt_of_lt_of_le (by decide) (Nat.le_add_right _ _)
  rw [loadCtrl, h, hgo, hun, bits_handle]
  exact if_pos htwo

theorem exec_imageLoad (s : State) (h : v.getLsbD 0 = true) : exec (.imageLoad v) s = .next (loadCtrl s v.toNat) :=
  congrArg Host.Outcome.next (if_pos h)

theorem exec_unload (s : State) (h : v.getLsbD 1 = true) : exec (.unload v) s = .next (loadCtrl s v.toNat) :=
  congrArg Host.Outcome.next (if_pos h)

theorem exec_patch (s : State) (h : v.getLsbD 2 = true) : exec (.patch v) s = .next (loadCtrl s v.toNat) :=
  congrArg Host.Outcome.next (if_pos h)

end

/-! ## The end of a command -/

section
variable {s : State}

theorem exec_loaderCommandDone {c : LoadCmd} (h : s.loader.cmd = some c) : exec .loaderCommandDone s = .next (loaderEnd s c) := by
  show Host.Outcome.next _ = _
  rw [h]

theorem exec_loaderCommandDone_idle (h : s.loader.cmd = none) : exec .loaderCommandDone s = .next s := by
  show Host.Outcome.next _ = _
  rw [h]

/-- A command that ends in a refusal. -/
theorem loaderDone_refused {c : LoadCmd} {code handle : Nat} {at_ : Nat × Nat} (hr : rising s.regs = true) (hc : s.loader.cmd = some c)
    (h : loaderEnd s c = loadRefused s handle (code, at_)) : Answers .loaderCommandDone s (LoadEndedWith s code handle) :=
  ⟨_, exec_loaderCommandDone hc, h ▸ loadRefused_endedWith hr handle (code, at_)⟩

theorem planLoad_held {c a n : Nat} (h : (getCtx s c).image.isSome = true) : planLoad s c a n = .error (10, 0, 0) := by
  have : (getCtx s c).image.isNone = false := by rw [← Option.not_isSome, h]; rfl
  rw [planLoad, this]
  rfl

theorem planLoad_misplaced {c a n : Nat} (h : (getCtx s c).image = none) (ha : ¬ (a % 64 = 0 ∧ deviceRangeOk a n = true)) :
    planLoad s c a n = .error (15, 0, 0) := by
  have hno : (a % 64 == 0 && deviceRangeOk a n) = false := by
    rw [Bool.eq_false_iff, ne_eq, Bool.and_eq_true, beq_iff_eq]
    exact ha
  rw [planLoad, h, hno]
  rfl

theorem loaderEnd_load_error {c a n : Nat} {r : Refused} (h : planLoad s c a n = .error r) : loaderEnd s (.load c a n) = loadRefused s 0 r := by
  simp only [loaderEnd, h]

theorem loaderEnd_load_ok {c a n : Nat} {p : LoadPlan} (h : planLoad s c a n = .ok p) :
    loaderEnd s (.load c a n) = loadDone (commitLoad s c p).1 (commitLoad s c p).2 := by
  simp only [loaderEnd, h]

theorem loaderEnd_unload_none {k : Nat} (h : holderOf s k = none) : loaderEnd s (.unload k) = loadRefused s k (11, 0, 0) := by
  simp only [loaderEnd, h]

theorem loaderEnd_unload_running {k c : Nat} {im : Image} (h : holderOf s k = some (c, im)) (hl : launchRuns (getCtx s c) = true) :
    loaderEnd s (.unload k) = loadRefused s k (12, 0, 0) := by
  simp only [loaderEnd, h, hl, if_true]

theorem loaderEnd_unload {k c : Nat} {im : Image} (h : holderOf s k = some (c, im)) (hl : launchRuns (getCtx s c) = false) :
    loaderEnd s (.unload k) = loadDone (freeImage s c im) k := by
  simp only [loaderEnd, h, hl, Bool.false_eq_true, if_false]

theorem loaderEnd_patch_none {k a : Nat} (h : holderOf s k = none) : loaderEnd s (.patch k a) = loadRefused s k (11, 0, 0) := by
  simp only [loaderEnd, h]

theorem loaderEnd_patch_running {k a c : Nat} {im : Image} (h : holderOf s k = some (c, im)) (hl : launchRuns (getCtx s c) = true) :
    loaderEnd s (.patch k a) = loadRefused s k (12, 0, 0) := by
  simp only [loaderEnd, h, hl, if_true]

theorem loaderEnd_patch_error {k a c : Nat} {im : Image} {r : Refused} (h : holderOf s k = some (c, im)) (hl : launchRuns (getCtx s c) = false)
    (hp : patchImage s c a im = .error r) : loaderEnd s (.patch k a) = loadRefused s k r := by
  simp only [loaderEnd, h, hl, Bool.false_eq_true, if_false, hp]

theorem loaderEnd_patch_ok {k a c : Nat} {im : Image} {t : State} (h : holderOf s k = some (c, im)) (hl : launchRuns (getCtx s c) = false)
    (hp : patchImage s c a im = .ok t) : loaderEnd s (.patch k a) = loadDone t k := by
  simp only [loaderEnd, h, hl, Bool.false_eq_true, if_false, hp]

/-- The context that holds an image is one of the sixteen. -/
theorem holderOf_lt {k c : Nat} {im : Image} (h : holderOf s k = some (c, im)) : c < 16 := by
  obtain ⟨d, hd, heq⟩ := List.exists_of_findSome?_eq_some h
  obtain ⟨i, -, hi⟩ := Option.map_eq_some_iff.1 heq
  obtain rfl : d = c := (Prod.mk.inj hi).1
  exact List.mem_range.1 hd

/-- A context replaced, in a state whose contexts were those of s. -/
theorem ctxBecomes_of_ctxs {t : State} {c : Nat} {x : Context} (hc : c < 16) (h : t.ctxs = s.ctxs.setIfInBounds c x) : CtxBecomes s t c x := by
  have hget : ∀ d, getCtx t d = getCtx (setCtx s c x) d := fun d => by rw [getCtx, h]; rfl
  refine ⟨(hget c).trans (getCtx_setCtx_fin s ⟨c, hc⟩ x), fun d hd => (hget d).trans (getCtx_setCtx_ne s x hd)⟩

/-! ### Unload (R197, R247) -/

/-- A change of the tally unit alone. -/
def TlyOnly (s t : State) : Prop := t = { s with tly := t.tly }

theorem TlyOnly.trans {t u : State} (h : TlyOnly s t) (h' : TlyOnly t u) : TlyOnly s u := by
  have hbase : ∀ x, { t with tly := x } = { s with tly := x } := fun x => by rw [show t = { s with tly := t.tly } from h]
  exact Eq.trans h' (hbase _)

theorem TlyOnly.foldl {β : Type} {f : State → β → State} (hf : ∀ s x, TlyOnly s (f s x)) (l : List β) (s : State) :
    TlyOnly s (l.foldl f s) := by
  induction l generalizing s with
  | nil => rfl
  | cons x l ih => exact (hf s x).trans (ih (f s x))

/-- A state in which a context owns no tally and no slot any more. -/
def freeTallies (s : State) (c : Nat) : State :=
  let t := (talliesOf s c).foldl (fun s p => setTally s p .free) s
  (slotsOf t c).foldl (fun s i => setSlot s i .free) t

theorem freeTallies_tlyOnly (s : State) (c : Nat) : TlyOnly s (freeTallies s c) :=
  (TlyOnly.foldl (f := fun s p => setTally s p .free) (fun _ _ => rfl) _ s).trans
    (TlyOnly.foldl (f := fun s i => setSlot s i .free) (fun _ _ => rfl) _ _)

/-- What an unload leaves: the context empty, its translations unmapped, its wheel entries free, and everything else as it was. -/
theorem freeImage_frees {c : Nat} {im : Image} (hc : c < 16) (hw : rising s.wheels = true) :
    let t := freeImage s c im
    t = { s with ctxs := t.ctxs, tly := t.tly, wheels := t.wheels } ∧
    CtxBecomes s t c { getCtx s c with state := .empty, image := none, launch := none, saved := none } ∧
    (∀ x < 4096, (getEntry t c x).kind = .unmapped) ∧ ∀ g ∈ im.grants, sparseGet 0 t.wheels g = 0 := by
  have hfreed : freeTallies s c = { s with tly := (freeTallies s c).tly } := freeTallies_tlyOnly s c
  have hctxs : (freeTallies s c).ctxs = s.ctxs := by rw [hfreed]
  have hwheels : (freeTallies s c).wheels = s.wheels := by rw [hfreed]
  have hbase : ∀ x y z, { freeTallies s c with ctxs := x, tly := y, wheels := z } = { s with ctxs := x, tly := y, wheels := z } :=
    fun x y z => by rw [hfreed]
  intro t
  refine ⟨hbase t.ctxs t.tly t.wheels, ctxBecomes_of_ctxs hc ?_, fun x hx => ?_, fun g hg => ?_⟩
  · show (freeTallies s c).ctxs.setIfInBounds c
      { (freeTallies s c).ctxs[c]?.getD .empty with state := .empty, image := none, launch := none, saved := none } = _
    rw [hctxs]
    rfl
  · have hdrop : sparseGet Entry.unmapped ((freeTallies s c).tly.table.filter (fun e => e.1 / 4096 != c)) (c * 4096 + x) = .unmapped :=
      sparseGet_filter_drop fun _ => by
        have : (c * 4096 + x) / 4096 = c := by omega
        simp [this]
    exact congrArg Entry.kind hdrop
  · show sparseGet 0 (im.grants.foldl (fun w k => sparseSet 0 w k 0) (freeTallies s c).wheels) g = 0
    rw [hwheels]
    exact sparseGet_clear hw (.inl hg)

theorem unload_answers {k c : Nat} {im : Image} (hs : s.safe = true) (hk : s.loader.cmd = some (.unload k)) (h : holderOf s k = some (c, im))
    (hl : launchRuns (getCtx s c) = false) : Answers .loaderCommandDone s (fun t =>
      t = { s with loader := { cmd := none, state := 2, code := 0, handle := k, info := 0 }, ctxs := t.ctxs, tly := t.tly, wheels := t.wheels } ∧
      CtxBecomes s t c { getCtx s c with state := .empty, image := none, launch := none, saved := none } ∧
      (∀ x < 4096, (getEntry t c x).kind = .unmapped) ∧ ∀ g ∈ im.grants, sparseGet 0 t.wheels g = 0) := by
  have hw : rising s.wheels = true := sparseWfFrom_rising (kept_of_safe hs).wheels_wf
  obtain ⟨heq, hctx, htable, hwheels⟩ := freeImage_frees (s := s) (im := im) (holderOf_lt h) hw
  have hdone : ∀ l : Loader, { freeImage s c im with loader := l } =
      { s with loader := l, ctxs := (freeImage s c im).ctxs, tly := (freeImage s c im).tly, wheels := (freeImage s c im).wheels } :=
    fun l => by rw [heq]
  exact ⟨_, exec_loaderCommandDone hk, loaderEnd_unload h hl ▸ ⟨hdone _, hctx, htable, hwheels⟩⟩

/-! ### Patch (R198) -/

/-- A record whose field does not fit refuses the patch (R198). -/
theorem patchImage_unfit {c a : Nat} {im : Image} {r : RelocRec} (hr : r ∈ im.relocs) (h : relocField r.kind r.orig (symbolValue s a r) = none) :
    ∃ at_, patchImage s c a im = .error (9, at_) := by
  have hfield := List.mem_map_of_mem (f := fun r => (r, relocField r.kind r.orig (symbolValue s a r))) hr
  rw [← List.zipIdx_map_fst 0 (im.relocs.map _)] at hfield
  obtain ⟨v, hv, hvr⟩ := List.mem_map.1 hfield
  have hnone : v.1.2.isNone = true := by rw [hvr, h]; rfl
  obtain ⟨w, hw⟩ := Option.isSome_iff_exists.1
    (List.find?_isSome (p := fun v : (RelocRec × Option Nat) × Nat => v.1.2.isNone).2 ⟨v, hv, hnone⟩)
  refine ⟨(w.1.1.target, w.2), ?_⟩
  rw [patchImage]
  simp only [hw]

/-- A patch of one record, none of the entry table: the field is written and the image marked patched (R198). -/
theorem patchImage_one {c a x : Nat} {im : Image} {r : RelocRec} (hrs : im.relocs = [r])
    (h : relocField r.kind r.orig (symbolValue s a r) = some x) (hentry : r.target ≠ im.entrySec)
    (haligned : ∀ l ∈ maskList im.mask, im.entries.getD l 0 % 8 = 0) :
    patchImage s c a im = .ok (modCtx (storeBytes s r.addr (bytesLE (relocBytes r.kind) x)) c
      (fun y => { y with image := some { im with patched := true, patchHash := sha256 (memRead s.mem a (8 * im.symbols)) } })) := by
  have hall : (maskList im.mask).all (fun l => im.entries.getD l 0 % 8 == 0) = true :=
    List.all_eq_true.2 fun l hl => beq_iff_eq.2 (haligned l hl)
  have hkeeps : ([r].any (fun r => r.target == im.entrySec)) = false := by simpa using hentry
  rw [patchImage]
  simp only [hrs, List.map_cons, List.map_nil, h, List.zipIdx_cons, List.zipIdx_nil, List.find?_cons, List.find?_nil, Option.isNone_some, hkeeps,
    Bool.false_eq_true, if_false]
  cases im.placed.find? (fun p => p.index == im.entrySec) with
  | none =>
    simp only [hall]
    rfl
  | some p =>
    simp only [hall]
    rfl

theorem patch_answers_unfit {k a c : Nat} {im : Image} (hs : s.safe = true) (hk : s.loader.cmd = some (.patch k a))
    (h : holderOf s k = some (c, im)) (hl : launchRuns (getCtx s c) = false)
    (hfit : ∃ r ∈ im.relocs, relocField r.kind r.orig (symbolValue s a r) = none) : Answers .loaderCommandDone s (LoadEndedWith s 9 k) := by
  obtain ⟨r, hr, hnone⟩ := hfit
  obtain ⟨at_, hp⟩ := patchImage_unfit (c := c) hr hnone
  exact loaderDone_refused (safe_tables hs).2.1 hk (loaderEnd_patch_error h hl hp)

/-- What a patch of one record leaves: its bytes, and the image marked. The bytes are a variable here, so that no list of bytes is evaluated. -/
theorem patched_leaves {k a c : Nat} {im : Image} {hash : List Byte} (hs : s.safe = true) (hc : c < 16) (bs : List Byte) :
    let t := loadDone (modCtx (storeBytes s a bs) c (fun y => { y with image := some { im with patched := true, patchHash := hash } })) k
    t = { s with loader := { cmd := none, state := 2, code := 0, handle := k, info := 0 }, ctxs := t.ctxs, mem := t.mem, hbm := t.hbm
                 lpc := t.lpc } ∧
    MemWritten s t a bs ∧ CtxBecomes s t c { getCtx s c with image := some { im with patched := true, patchHash := hash } } :=
  ⟨rfl, memWritten_memWrite (safe_tables hs).1 rfl, ctxBecomes_of_ctxs hc rfl⟩

theorem patch_answers_one {k a c x : Nat} {im : Image} {r : RelocRec} (hs : s.safe = true) (hk : s.loader.cmd = some (.patch k a))
    (h : holderOf s k = some (c, im)) (hl : launchRuns (getCtx s c) = false) (hrs : im.relocs = [r])
    (hfit : relocField r.kind r.orig (symbolValue s a r) = some x) (hentry : r.target ≠ im.entrySec)
    (haligned : ∀ l ∈ maskList im.mask, im.entries.getD l 0 % 8 = 0) : Answers .loaderCommandDone s (fun t =>
      t = { s with loader := { cmd := none, state := 2, code := 0, handle := k, info := 0 }, ctxs := t.ctxs, mem := t.mem, hbm := t.hbm
                   lpc := t.lpc } ∧
      MemWritten s t r.addr (bytesLE (relocBytes r.kind) x) ∧
      ∃ hash, CtxBecomes s t c { getCtx s c with image := some { im with patched := true, patchHash := hash } }) := by
  refine ⟨_, exec_loaderCommandDone hk, ?_⟩
  rw [loaderEnd_patch_ok h hl (patchImage_one hrs hfit hentry haligned)]
  obtain ⟨heq, hmem, hctx⟩ := patched_leaves (k := k) (a := r.addr) (im := im) (hash := sha256 (memRead s.mem a (8 * im.symbols))) hs
    (holderOf_lt h) (bytesLE (relocBytes r.kind) x)
  exact ⟨heq, hmem, _, hctx⟩

end

/-! ### Load (R197) -/

/-! #### Events -/

namespace ButReports
variable {u t : State}

theorem refl (u : State) : ButReports u u := rfl

/-- Changes of what reports write. -/
theorem upd (h : ButReports u t) {rg ev es hs ob hh} : ButReports u
    { t with regs := rg, hostSessions := hs, events := ev, evseq := es, outbox := ob, hostHeld := hh } := by
  unfold ButReports at h ⊢
  rw [h]

theorem countReg (h : ButReports u t) (bank off n : Nat) : ButReports u (countReg t bank off n) := by
  rw [countReg_fields]
  exact h.upd

theorem hostPush (h : ButReports u t) (x : HostSession) (m : OutMsg) : ButReports u (hostPush t x m) := by
  unfold Machine.hostPush
  split
  · exact countReg h.upd _ _ _
  · exact h.upd

theorem sendEvent (h : ButReports u t) (e : Event) : ButReports u (sendEvent t e) := by
  unfold Machine.sendEvent
  split
  · exact h
  · split
    · exact (hostPush h _ _).upd
    · exact h

/-- An event changes no more than a report may. -/
theorem emit (h : ButReports u t) (code page : Nat) (data : List Byte) : ButReports u (emit t code page data) := by
  unfold Machine.emit
  split
  · exact h
  · dsimp only
    split
    · exact countReg h.upd _ _ _
    · exact sendEvent h.upd _

theorem ctxs (h : ButReports u t) : t.ctxs = u.ctxs := by rw [show t = _ from h]
theorem mem (h : ButReports u t) : t.mem = u.mem := by rw [show t = _ from h]

end ButReports

section
variable {s : State}

theorem countReg_events (s : State) (bank off n : Nat) : (countReg s bank off n).events = s.events ∧ (countReg s bank off n).evseq = s.evseq := by
  rw [countReg_fields]
  exact ⟨rfl, rfl⟩

theorem hostPush_events (s : State) (x : HostSession) (m : OutMsg) : (hostPush s x m).events = s.events ∧ (hostPush s x m).evseq = s.evseq := by
  unfold hostPush
  split
  · exact countReg_events _ _ _ _
  · exact ⟨rfl, rfl⟩

/-- Sending an event leaves it queued, and EVSEQ as it was (R358). -/
theorem sendEvent_queued {e : Event} (he : e ∈ s.events) : (sendEvent s e).evseq = s.evseq ∧
    ∃ e' ∈ (sendEvent s e).events, e'.code = e.code ∧ e'.page = e.page ∧ e'.evseq = e.evseq := by
  unfold sendEvent
  split
  · exact ⟨rfl, e, he, rfl, rfl, rfl⟩
  · split
    · refine ⟨(hostPush_events _ _ _).2, _, List.mem_map_of_mem ((hostPush_events _ _ _).1 ▸ he), ?_⟩
      rw [if_pos rfl]
      exact ⟨rfl, rfl, rfl⟩
    · exact ⟨rfl, e, he, rfl, rfl, rfl⟩

/-- An event that may be emitted is queued with the next EVSEQ (R358, R359). -/
theorem emit_emitted {code page : Nat} (h : MayEmit s code page) (data : List Byte) : Emitted s (emit s code page data) code page := by
  obtain ⟨hroom, hmask⟩ := h
  have hshown : ((getReg s page Reg.pageEventMask).testBit (maskBit code) && !unmaskable code) = false := by
    rcases hmask with hmask | hmask <;> simp [hmask]
  unfold emit
  rw [hshown]
  simp only [Bool.false_eq_true, if_false, if_neg (Nat.not_le.2 hroom)]
  exact sendEvent_queued (List.mem_append_right _ List.mem_cons_self)

/-- What can be emitted depends on the mask of the page and the queue. -/
theorem mayEmit_congr {t : State} {code page : Nat} (hr : t.regs = s.regs) (he : t.events = s.events) (h : MayEmit s code page) :
    MayEmit t code page := by
  unfold MayEmit getReg at h ⊢
  rw [hr, he]
  exact h

/-! #### What the steps of a load leave alone -/

/-- What the steps of a load leave alone: registers, hampers, contexts and events. -/
structure LoadFrame (s t : State) : Prop where
  regs : t.regs = s.regs
  hampers : t.hampers = s.hampers
  ctxs : t.ctxs = s.ctxs
  events : t.events = s.events
  evseq : t.evseq = s.evseq

theorem LoadFrame.refl (s : State) : LoadFrame s s := ⟨rfl, rfl, rfl, rfl, rfl⟩

theorem LoadFrame.trans {t u : State} (h : LoadFrame s t) (h' : LoadFrame t u) : LoadFrame s u :=
  ⟨h'.regs.trans h.regs, h'.hampers.trans h.hampers, h'.ctxs.trans h.ctxs, h'.events.trans h.events, h'.evseq.trans h.evseq⟩

/-- The counter of free values and the wheels are no part of the frame. -/
theorem LoadFrame.upd {t : State} (h : LoadFrame s t) {n w} : LoadFrame s { t with free := n, wheels := w } :=
  ⟨h.regs, h.hampers, h.ctxs, h.events, h.evseq⟩

theorem LoadFrame.foldl {β : Type} {f : State → β → State} (hf : ∀ s x, LoadFrame s (f s x)) (l : List β) (s : State) :
    LoadFrame s (l.foldl f s) := by
  induction l generalizing s with
  | nil => exact .refl s
  | cons x l ih => exact (hf s x).trans (ih (f s x))

theorem storeBytes_frame (s : State) (a : Nat) (bs : List Byte) : LoadFrame s (storeBytes s a bs) := ⟨rfl, rfl, rfl, rfl, rfl⟩

theorem writeSection_frame (p : LoadPlan) (s : State) (q : Placed) : LoadFrame s (writeSection p s q) := by
  unfold writeSection
  split
  · exact ⟨rfl, rfl, rfl, rfl, rfl⟩
  · split
    · exact storeBytes_frame s _ _
    · exact .refl s

theorem loadRecipe_frame (s : State) (x : Option Nat × Nat × List W32) : LoadFrame s (loadRecipe s x) ∧ (loadRecipe s x).mem = s.mem := by
  unfold loadRecipe
  dsimp only
  split
  · exact ⟨⟨rfl, rfl, rfl, rfl, rfl⟩, rfl⟩
  · exact ⟨⟨rfl, rfl, rfl, rfl, rfl⟩, rfl⟩

theorem installMap_frame (c : Nat) (s : State) (x : MapRec × Nat) : LoadFrame s (installMap c s x) ∧ (installMap c s x).mem = s.mem := by
  unfold installMap
  dsimp only
  split
  · exact ⟨⟨rfl, rfl, rfl, rfl, rfl⟩, rfl⟩
  · exact ⟨⟨rfl, rfl, rfl, rfl, rfl⟩, rfl⟩
  · exact ⟨⟨rfl, rfl, rfl, rfl, rfl⟩, rfl⟩

theorem foldl_mem_eq {β : Type} {f : State → β → State} (hf : ∀ s x, (f s x).mem = s.mem) (l : List β) (s : State) :
    (l.foldl f s).mem = s.mem := by
  induction l generalizing s with
  | nil => rfl
  | cons x l ih => exact (ih (f s x)).trans (hf s x)

/-- The bytes that a load writes of a placed section. -/
def placedLen (p : LoadPlan) (q : Placed) : Nat :=
  if q.kind = 3 then q.size else (((p.secs.find? (fun x => x.index == q.index)).map (relocated p)).getD []).length

/-- Whether a section lies clear of a byte. -/
def ClearOf (p : LoadPlan) (q : Placed) (x : Nat) : Prop := x < q.addr ∨ q.addr + placedLen p q ≤ x

theorem memGet_storeBytes_out {a x : Nat} (hm : Memory.wf s.mem = true) (bs : List Byte) (h : x < a ∨ a + bs.length ≤ x) :
    memGet (storeBytes s a bs).mem x = memGet s.mem x := memGet_write_out hm a bs h

theorem memGet_writeSection_out {p : LoadPlan} {q : Placed} {x : Nat} (hm : Memory.wf s.mem = true) (h : ClearOf p q x) :
    memGet (writeSection p s q).mem x = memGet s.mem x := by
  unfold ClearOf placedLen at h
  unfold writeSection
  split
  · rename_i hk
    rw [if_pos hk] at h
    exact memGet_clear_out hm h
  · rename_i hk
    rw [if_neg hk] at h
    split
    · rename_i y hy
      rw [hy] at h
      exact memGet_storeBytes_out hm _ h
    · rfl

theorem writeSection_memWf {p : LoadPlan} {q : Placed} (hm : Memory.wf s.mem = true) : Memory.wf (writeSection p s q).mem = true := by
  unfold writeSection
  split
  · exact memClear_wf hm _ _
  · split
    · exact memWrite_wf hm _ _
    · exact hm

theorem memGet_writeSections_out {p : LoadPlan} {l : List Placed} {x : Nat} (hm : Memory.wf s.mem = true) (h : ∀ q ∈ l, ClearOf p q x) :
    memGet (l.foldl (writeSection p) s).mem x = memGet s.mem x := by
  induction l generalizing s with
  | nil => rfl
  | cons q l ih =>
    obtain ⟨hq, hl⟩ := List.forall_mem_cons.1 h
    exact (ih (writeSection_memWf hm) hl).trans (memGet_writeSection_out hm hq)

/-! #### A load that passes its checks -/

/-- The state of a load before its context takes the image. -/
def installed (s : State) (c : Nat) (p : LoadPlan) : State :=
  let s := p.recipes.foldl loadRecipe (p.placed.foldl (writeSection p) { s with free := s.free + 8193 })
  p.map.foldl (installMap c) { s with wheels := p.grants.foldl (fun w g => sparseSet 0 w g.1 g.2) s.wheels }

theorem installed_frame (s : State) (c : Nat) (p : LoadPlan) : LoadFrame s (installed s c p) := by
  have hsections := (LoadFrame.refl s).upd.trans (LoadFrame.foldl (writeSection_frame p) p.placed { s with free := s.free + 8193 })
  have hrecipes := hsections.trans (LoadFrame.foldl (fun s x => (loadRecipe_frame s x).1) p.recipes _)
  exact hrecipes.upd.trans (LoadFrame.foldl (fun s x => (installMap_frame c s x).1) p.map _)

/-- Bytes outside the placed sections keep their values. -/
theorem memGet_installed_out {c : Nat} {p : LoadPlan} {x : Nat} (hm : Memory.wf s.mem = true) (h : ∀ q ∈ p.placed, ClearOf p q x) :
    memGet (installed s c p).mem x = memGet s.mem x := by
  have hmem : (installed s c p).mem = (p.placed.foldl (writeSection p) { s with free := s.free + 8193 }).mem :=
    (foldl_mem_eq (fun s x => (installMap_frame c s x).2) p.map _).trans (foldl_mem_eq (fun s x => (loadRecipe_frame s x).2) p.recipes _)
  rw [hmem]
  exact memGet_writeSections_out (s := { s with free := s.free + 8193 }) hm h

/-- The image that a load gives its context. -/
def loadedImage (s : State) (p : LoadPlan) : Image :=
  { handle := newHandle s, mask := p.head.mask, pantryUse := p.head.pantryUse, entrySec := p.head.entrySec, entries := p.entries, placed := p.placed
    symbols := p.head.symbols, patched := false, hash := p.hash, patchHash := List.replicate 32 0
    vslots := p.recipes.filterMap (fun r => r.1.map (fun h => (h, r.2.1)))
    uslots := p.recipes.filterMap (fun r => if r.1.isNone then some r.2.1 else none), grants := p.grants.map (·.1)
    pinit := (p.secs.filter inWindowSec).map (fun x => (x.addr, x.data)), relocs := p.relocs.filter (fun r => r.symbol.isSome) }

/-- The context that takes the image. -/
def loadedCtx (s : State) (c : Nat) (p : LoadPlan) : State :=
  modCtx (installed s c p) c (fun x => { x with state := .loaded, image := some (loadedImage s p), launch := none })

theorem commitLoad_eq (s : State) (c : Nat) (p : LoadPlan) :
    commitLoad s c p = (emit (loadedCtx s c p) evLoaded mgmtPage (bytesLE 2 (newHandle s) ++ [BitVec.ofNat 8 c]), newHandle s) := rfl

theorem load_answers {c a n : Nat} {p : LoadPlan} (hs : s.safe = true) (hc : c < 16) (hk : s.loader.cmd = some (.load c a n))
    (hp : planLoad s c a n = .ok p) : Answers .loaderCommandDone s (fun t => ∃ im : Image,
      CtxBecomes s t c { getCtx s c with state := .loaded, image := some im, launch := none } ∧
      t.loader = { cmd := none, state := 2, code := 0, handle := im.handle, info := 0 } ∧
      im.mask = p.head.mask ∧ im.entries = p.entries ∧ im.placed = p.placed ∧ im.symbols = p.head.symbols ∧ im.patched = false ∧
      im.hash = p.hash ∧ (∀ x, (∀ q ∈ p.placed, ClearOf p q x) → memGet t.mem x = memGet s.mem x) ∧ t.hampers = s.hampers ∧
      (MayEmit s evLoaded mgmtPage → Emitted s t evLoaded mgmtPage)) := by
  refine ⟨_, exec_loaderCommandDone hk, loadedImage s p, ?_⟩
  rw [loaderEnd_load_ok hp, commitLoad_eq]
  generalize bytesLE 2 (newHandle s) ++ [BitVec.ofNat 8 c] = data
  have hframe := installed_frame s c p
  have hreports : ButReports (loadedCtx s c p) (emit (loadedCtx s c p) evLoaded mgmtPage data) := (ButReports.refl _).emit _ _ _
  refine ⟨ctxBecomes_of_ctxs hc ?_, rfl, rfl, rfl, rfl, rfl, rfl, rfl, fun x hx => ?_, ?_, fun hmay => ?_⟩
  · show (emit (loadedCtx s c p) evLoaded mgmtPage data).ctxs = _
    rw [hreports.ctxs, loadedCtx, modCtx, setCtx, getCtx, hframe.ctxs]
    rfl
  · show memGet (emit (loadedCtx s c p) evLoaded mgmtPage data).mem x = _
    rw [hreports.mem]
    exact memGet_installed_out (safe_tables hs).1 hx
  · exact (emit_hampers _ _ _ _).trans hframe.hampers
  · obtain ⟨hseq, e, he, hcode, hpage, hevseq⟩ := emit_emitted (s := loadedCtx s c p) (mayEmit_congr hframe.regs hframe.events hmay) data
    have hnext : (loadedCtx s c p).evseq = s.evseq := hframe.evseq
    exact ⟨hnext ▸ hseq, e, he, hcode, hpage, hevseq.trans hnext⟩

end

/-- Settles O46: each clause is the rule of what the command meets, or of how it ends. -/
theorem loaderCommandsTakeEffect : Obligations.LoaderCommandsTakeEffect := by
  unfold Obligations.LoaderCommandsTakeEffect
  intro s v hs
  obtain ⟨hm, hr, -⟩ := safe_tables hs
  dsimp only
  refine ⟨fun hidle honly => ⟨_, exec_imageLoad s (honly 0 (by decide)), loadCtrl_load hidle honly⟩,
    fun hidle honly => ⟨_, exec_unload s (honly 1 (by decide)), loadCtrl_unload hidle honly⟩,
    fun hidle honly => ⟨_, exec_patch s (honly 2 (by decide)), loadCtrl_patch hidle honly⟩,
    fun hbusy => ⟨fun hgo => ?_, fun hun => ?_, fun hpa => ?_⟩, fun hidle hgo hun => ⟨?_, ?_⟩,
    fun hidle => ⟨_, exec_loaderCommandDone_idle hidle, rfl⟩,
    fun c a n hk => ⟨fun himage => ?_, fun himage hplace => ?_, fun e he => ?_, fun p hp => ?_⟩,
    fun k hk => ⟨fun hnone => ?_, fun c im him hruns => ?_, fun c im him hruns => ?_⟩,
    fun k a hk => ⟨fun hnone => ?_, fun c im him hruns => ?_, fun c im him hruns =>
      ⟨fun hfit => ?_, fun r x hrs hfit hentry haligned => ?_⟩⟩⟩
  · exact ⟨_, exec_imageLoad s hgo, loadCtrl_busy _ hbusy ▸ setErr_errorOnly hr mgmtPage 0⟩
  · exact ⟨_, exec_unload s hun, loadCtrl_busy _ hbusy ▸ setErr_errorOnly hr mgmtPage 0⟩
  · exact ⟨_, exec_patch s hpa, loadCtrl_busy _ hbusy ▸ setErr_errorOnly hr mgmtPage 0⟩
  · exact ⟨_, exec_imageLoad s hgo, loadCtrl_both hidle hgo hun ▸ loadRefused_endedWith hr _ _⟩
  · exact ⟨_, exec_unload s hun, loadCtrl_both hidle hgo hun ▸ loadRefused_endedWith hr _ _⟩
  · exact loaderDone_refused hr hk (loaderEnd_load_error (planLoad_held himage))
  · exact loaderDone_refused hr hk (loaderEnd_load_error (planLoad_misplaced himage hplace))
  · exact loaderDone_refused hr hk (loaderEnd_load_error he)
  · exact load_answers hs c.isLt hk hp
  · exact loaderDone_refused hr hk (loaderEnd_unload_none hnone)
  · exact loaderDone_refused hr hk (loaderEnd_unload_running him hruns)
  · exact unload_answers hs hk him hruns
  · exact loaderDone_refused hr hk (loaderEnd_patch_none hnone)
  · exact loaderDone_refused hr hk (loaderEnd_patch_running him hruns)
  · exact patch_answers_unfit hs hk him hruns hfit
  · exact patch_answers_one hs hk him hruns hrs hfit hentry haligned

end Sys2Proof.Machine
end

section
/-!
Stealing (R219–R221): what an update of a list unit leaves alone, what a probe takes from its victim, and what an answer leaves with the thief.
-/
namespace Sys2Proof.Machine

/-! ## List units and counters -/

section
variable {s t : State} {lh l : Nat}

theorem getH_modList (s : State) (f : ListUnit → ListUnit) (hl : lh < 48) :
    getH (modList s lh f) lh = { getH s lh with list := f (getList s lh) } := getH_setH s _ hl

theorem getH_modList_ne (s : State) (f : ListUnit → ListUnit) (hl : l ≠ lh) : getH (modList s lh f) l = getH s l := getH_setH_ne s _ hl

theorem getList_modList (s : State) (f : ListUnit → ListUnit) (hl : lh < 48) : getList (modList s lh f) lh = f (getList s lh) := by
  rw [getList, getH_modList s f hl]

theorem getList_countLh (s : State) (lh sub off n l : Nat) : getList (countLh s lh sub off n) l = getList s l :=
  congrArg Hamper.list (getH_countReg s _ off n l)

/-- Only hampers and stored registers differ. -/
def ButHampers (s t : State) : Prop := t = { s with hampers := t.hampers, regs := t.regs }

theorem ButHampers.refl (s : State) : ButHampers s s := rfl

theorem ButHampers.trans {u : State} (h : ButHampers s t) (h' : ButHampers t u) : ButHampers s u := by
  rw [ButHampers, show u = _ from h', show t = _ from h]

theorem ButHampers.modList (h : ButHampers s t) (f : ListUnit → ListUnit) : ButHampers s (modList t lh f) := h.trans rfl

theorem ButHampers.countLh (h : ButHampers s t) (sub off n : Nat) : ButHampers s (countLh t lh sub off n) := by
  refine h.trans ?_
  rw [Machine.countLh, countReg_fields]
  rfl

end

section
variable {s t : State} {lh : Fin 48}

theorem HamperOnly.refl (s : State) (lh : Fin 48) : HamperOnly s s lh := ⟨rfl, fun _ _ => rfl⟩

theorem HamperOnly.modList (h : HamperOnly s t lh) (f : ListUnit → ListUnit) : HamperOnly s (modList t lh f) lh :=
  ⟨ButHampers.modList h.1 f, fun l hl => (getH_modList_ne t f hl).trans (h.2 l hl)⟩

theorem HamperOnly.countLh (h : HamperOnly s t lh) (sub off n : Nat) : HamperOnly s (countLh t lh sub off n) lh :=
  ⟨ButHampers.countLh h.1 sub off n, fun l hl => (getH_countReg t _ off n l).trans (h.2 l hl)⟩

end

/-! ## A probe (R220) -/

section
variable {s : State} {lh : Fin 48} {st : Steal} {v k pos : Nat}

/-- The victim after a probe that removes its k newest items. -/
def stolenFrom (s : State) (v k : Nat) : State :=
  if k = 0 then s
  else countLh (modList s v (fun l => { l with items := l.items.take (l.items.length - k)
                                               tail := (l.tail + listSlots s v - k) % listSlots s v })) v listSub Reg.listStolenOut k

theorem stolenFrom_butHampers (s : State) (v k : Nat) : ButHampers s (stolenFrom s v k) := by
  unfold stolenFrom
  split
  · exact .refl s
  · exact ((ButHampers.refl s).modList _).countLh _ _ _

theorem getH_stolenFrom_ne (s : State) {l : Nat} (k : Nat) (h : l ≠ v) : getH (stolenFrom s v k) l = getH s l := by
  unfold stolenFrom
  split
  · rfl
  · exact (getH_countReg ..).trans (getH_modList_ne s _ h)

/-- The victim loses its k newest items, and its core stays as it is. -/
theorem stolenFrom_victim (s : State) (k : Nat) (hv : v < 48) :
    (getList (stolenFrom s v k) v).items = (getList s v).items.take ((getList s v).items.length - k) ∧
    (getH (stolenFrom s v k) v).core = (getH s v).core := by
  unfold stolenFrom
  split
  next h => rw [h, Nat.sub_zero, List.take_length]; exact ⟨rfl, rfl⟩
  next => rw [getList_countLh, getList_modList s _ hv, countLh, getH_countReg, getH_modList s _ hv]; exact ⟨rfl, rfl⟩

/-- How many items a probe asks for: STEAL_MAX of them at most, and no more than the thief has slots for, those of items on their way counted as
used (log entry 161). -/
def stealWant (s : State) (lh : Nat) : Nat := min (bits (listReg s lh Reg.listStealCfg) 15 8) (freeSlots s lh)

/-- The items a probe takes are removed from the victim's tail and answered in the order they stood in. -/
theorem exec_stealProbe (hst : (getList s lh).steal = some st) (ha : st.answer = none)
    (hpos : nextVictim s lh 47 (getList s lh).cursor = some pos) (hv : victimAt lh pos = v) :
    let x := getList s v
    let k := stealable x (stealWant s lh)
    exec (.stealProbe lh) s = .next (modList (stolenFrom s v k) lh (fun l =>
      { l with cursor := pos, steal := some { st with answer := some (x.items.drop (x.items.length - k)), victim := v } })) := by
  subst hv
  show execStealProbe lh s = _
  unfold execStealProbe
  simp only [hst, ha, hpos]
  rfl

/-- R220: what a probe leaves with the victim and with the thief. -/
theorem stealProbe_answers (hst : (getList s lh).steal = some st) (ha : st.answer = none)
    (hpos : nextVictim s lh 47 (getList s lh).cursor = some pos) (hv : victimAt lh pos = v) (hne : v ≠ lh.val) (hlt : v < 48) :
    let l := getList s lh
    let x := getList s v
    let k := stealable x (stealWant s lh)
    Answers (.stealProbe lh) s (fun t => ButHampers s t ∧ (∀ h, h ≠ lh.val → h ≠ v → getH t h = getH s h) ∧
      (getList t v).items = x.items.take (x.items.length - k) ∧ (getH t v).core = (getH s v).core ∧
      getList t lh = { l with cursor := pos, steal := some { st with answer := some (x.items.drop (x.items.length - k)), victim := v } }) := by
  refine ⟨_, exec_stealProbe hst ha hpos hv, (stolenFrom_butHampers s v _).modList _,
    fun h hlh hhv => (getH_modList_ne _ _ hlh).trans (getH_stolenFrom_ne s _ hhv), ?_⟩
  obtain ⟨hitems, hcore⟩ := stolenFrom_victim s (stealable (getList s v) (stealWant s lh)) hlt
  rw [getList, getH_modList_ne _ _ hne, getList_modList _ _ lh.isLt]
  refine ⟨hitems, hcore, ?_⟩
  rw [getList, getH_stolenFrom_ne s _ (Ne.symm hne)]
  rfl

end

/-! ## An answer (R220, R221) -/

section
variable {s : State} {lh : Fin 48} {st : Steal}

/-- An answer that comes in the beat it is due in has stalled that beat (R221). -/
def answerMet (s : State) (lh due : Nat) : State := if beatOf s lh = due then countLh s lh listSub Reg.listStallBeats 1 else s

theorem answerMet_hamperOnly (s : State) (lh : Fin 48) (due : Nat) : HamperOnly s (answerMet s lh due) lh := by
  unfold answerMet
  split
  · exact (HamperOnly.refl s lh).countLh _ _ _
  · exact .refl s lh

theorem getList_answerMet (s : State) (lh due l : Nat) : getList (answerMet s lh due) l = getList s l := by
  unfold answerMet
  split
  · exact getList_countLh ..
  · rfl

/-- The stalled beat has a counter of its own, and the registers stay in order. -/
theorem answerMet_regs (hr : rising s.regs = true) (lh due : Nat) : rising (answerMet s lh due).regs = true ∧
    getReg (answerMet s lh due) (lbank lh listSub) Reg.listProbesEmpty = getReg s (lbank lh listSub) Reg.listProbesEmpty := by
  unfold answerMet
  split
  · have hne : (lbank lh listSub, Reg.listProbesEmpty) ≠ (lbank lh listSub, Reg.listStallBeats) := by simp [Reg.listProbesEmpty, Reg.listStallBeats]
    exact ⟨countReg_rising hr .., getReg_countReg_ne hr 1 (regKey_ne (by decide) (by decide) hne)⟩
  · exact ⟨hr, rfl⟩

/-- A stolen item that arrives is appended with the record, the origin and the generator step it came with, to be fetched by beat due. -/
def takeIn (lh due : Nat) (s : State) (i : ListItem) : State := appendItem s lh i.record (recordOrigin i.record) i.gstep due

theorem getH_takeIn_ne (due : Nat) (s : State) (i : ListItem) {lh l : Nat} (hl : l ≠ lh) : getH (takeIn lh due s i) l = getH s l :=
  getH_modList_ne _ _ hl

theorem items_takeIn (due : Nat) (s : State) (i : ListItem) {lh : Nat} (hl : lh < 48) :
    ∃ j, (getList (takeIn lh due s i) lh).items = (getList s lh).items ++ [j] ∧ j.gstep = i.gstep ∧ j.visible = false := by
  unfold takeIn appendItem
  rw [getList_modList _ _ hl]
  exact ⟨_, rfl, rfl, rfl⟩

theorem getH_takeIn_all_ne (due : Nat) {lh l : Nat} (hl : l ≠ lh) (got : List ListItem) (s : State) :
    getH (got.foldl (takeIn lh due) s) l = getH s l := by
  induction got generalizing s with
  | nil => rfl
  | cons i got ih => exact (ih _).trans (getH_takeIn_ne due s i hl)

/-- The items of an answer come to the tail in its order, none of them visible yet. -/
theorem items_takeIn_all (due : Nat) {lh : Nat} (hl : lh < 48) (got : List ListItem) (s : State) :
    ∃ new, (getList (got.foldl (takeIn lh due) s) lh).items = (getList s lh).items ++ new ∧
      new.map (·.gstep) = got.map (·.gstep) ∧ ∀ j ∈ new, j.visible = false := by
  induction got generalizing s with
  | nil => exact ⟨[], (List.append_nil _).symm, rfl, by simp⟩
  | cons i got ih =>
    obtain ⟨j, hitems, hstep, hfetch⟩ := items_takeIn due s i hl
    obtain ⟨new, hall, hsteps, hfetches⟩ := ih (takeIn lh due s i)
    refine ⟨j :: new, ?_, ?_, List.forall_mem_cons.2 ⟨hfetch, hfetches⟩⟩
    · rw [List.foldl_cons, hall, hitems, List.append_assoc, List.singleton_append]
    · rw [List.map_cons, List.map_cons, hstep, hsteps]

theorem exec_probeAnswer_items {got : List ListItem} (hst : (getList s lh).steal = some st) (ha : st.answer = some got) (hne : got ≠ []) :
    exec (.probeAnswer lh) s = .next (modList (countLh
      (got.foldl (takeIn lh (beatOf s lh + ceilDiv ((got.map (·.fetchLen)).sum) 256)) (answerMet s lh st.due))
      lh listSub Reg.listStolenIn got.length) lh (fun l => { l with steal := none })) := by
  show execProbeAnswer lh s = _
  unfold execProbeAnswer
  simp only [hst, ha, List.isEmpty_eq_false_iff.2 hne]
  rfl

theorem exec_probeAnswer_empty (hst : (getList s lh).steal = some st) (ha : st.answer = some []) :
    let t := modList (answerMet s lh st.due) lh (fun l => { l with cursor := (l.cursor + 1) % 47 })
    exec (.probeAnswer lh) s = .next (if st.left ≤ 1 then stealEmpty t lh (st.empty + 1) else modList t lh (fun l =>
      { l with steal := some { st with left := st.left - 1, empty := st.empty + 1, due := beatOf s lh + 96, answer := none } })) := by
  show execProbeAnswer lh s = _
  unfold execProbeAnswer
  simp only [hst, ha]
  rfl

/-- R220: the items of an answer end the steal at the thief's tail. -/
theorem probeAnswer_items {got : List ListItem} (hst : (getList s lh).steal = some st) (ha : st.answer = some got) (hne : got ≠ []) :
    let l := getList s lh
    Answers (.probeAnswer lh) s (fun t => (getList t lh).steal = none ∧ (∀ h, h ≠ lh.val → getH t h = getH s h) ∧
      ∃ new, (getList t lh).items = l.items ++ new ∧ new.map (·.gstep) = got.map (·.gstep) ∧ ∀ j ∈ new, j.visible = false) := by
  refine ⟨_, exec_probeAnswer_items hst ha hne, ?_, fun h hlh => ?_, ?_⟩
  · rw [getList_modList _ _ lh.isLt]
  · rw [getH_modList_ne _ _ hlh, countLh, getH_countReg, getH_takeIn_all_ne _ hlh]
    exact (answerMet_hamperOnly s lh _).2 h hlh
  · rw [getList_modList _ _ lh.isLt, getList_countLh, ← getList_answerMet s lh st.due]
    exact items_takeIn_all _ lh.isLt got _

/-- R220: an empty answer moves the cursor past the victim, and another probe follows. -/
theorem probeAnswer_goesOn (hst : (getList s lh).steal = some st) (ha : st.answer = some []) (hleft : 1 < st.left) :
    let l := getList s lh
    Answers (.probeAnswer lh) s (fun t => HamperOnly s t lh ∧
      getList t lh = { l with cursor := (l.cursor + 1) % 47, steal := some { st with left := st.left - 1, empty := st.empty + 1
                                                                                     due := beatOf s lh + 96, answer := none } }) := by
  refine ⟨_, exec_probeAnswer_empty hst ha, ?_⟩
  rw [if_neg (Nat.not_le.2 hleft)]
  refine ⟨((answerMet_hamperOnly s lh _).modList _).modList _, ?_⟩
  rw [getList_modList _ _ lh.isLt, getList_modList _ _ lh.isLt, getList_answerMet]

/-- R220: the last empty answer ends the steal and counts every empty probe. -/
theorem probeAnswer_ends (hr : rising s.regs = true) (hst : (getList s lh).steal = some st) (ha : st.answer = some []) (hleft : st.left ≤ 1) :
    let l := getList s lh
    let bank := lbank lh listSub
    Answers (.probeAnswer lh) s (fun t => HamperOnly s t lh ∧ getList t lh = { l with cursor := (l.cursor + 1) % 47, steal := none } ∧
      getReg t bank Reg.listProbesEmpty =
        satAdd (regWidth bank Reg.listProbesEmpty) (getReg s bank Reg.listProbesEmpty) (st.empty + 1)) := by
  obtain ⟨hrising, hkept⟩ := answerMet_regs hr lh st.due
  refine ⟨_, exec_probeAnswer_empty hst ha, ?_⟩
  rw [if_pos hleft, stealEmpty]
  refine ⟨(((answerMet_hamperOnly s lh _).modList _).countLh _ _ _).modList _, ?_, ?_⟩
  · rw [getList_modList _ _ lh.isLt, getList_countLh, getList_modList _ _ lh.isLt, getList_answerMet]
  · rw [← hkept]
    exact getReg_countReg_self hrising _ _ (Nat.succ_ne_zero _)

end

/-- Settles O20: each clause is the rule of its command; the items an answer appends stand behind the thief's own. -/
theorem stealProbesMoveItems : Obligations.StealProbesMoveItems := by
  unfold Obligations.StealProbesMoveItems
  intro s lh st hs hst
  obtain ⟨-, hr, -⟩ := safe_tables hs
  refine ⟨fun pos v ha hpos hv hne hlt => stealProbe_answers hst ha hpos hv hne hlt, fun got ha hne => ?_,
    fun ha hleft => probeAnswer_goesOn hst ha hleft, fun ha hleft => probeAnswer_ends hr hst ha hleft⟩
  obtain ⟨t, hexec, hsteal, hothers, new, hitems, hsteps, hfetches⟩ := probeAnswer_items hst ha hne
  have hlength : new.length = got.length := by simpa using congrArg List.length hsteps
  refine ⟨t, hexec, hsteal, ?_, ?_, ?_, ?_, hothers⟩
  · rw [hitems, List.length_append, hlength]
  · rw [hitems, List.take_left]
  · rw [hitems, List.drop_left, hsteps]
  · rw [hitems, List.drop_left, List.all_eq_true]
    exact fun j hj => by rw [hfetches j hj]; rfl

end Sys2Proof.Machine
end

section
/-!
Maintenance of the memory tiers (R261–R270): one rule for a controller that moves on, is counted and tells the host, which the ends of a row copy,
of a larder copy and of a repair share; the scrub; and the write of HBM_RETIRE_ROW.
-/
namespace Sys2Proof.Machine

/-! ## A controller moves on -/

/-- Controller c becomes m, and every other controller is as before. -/
def CtlBecomes (s t : State) (c : Bool × Nat) (m : MemCtl) : Prop := getCtl t c = m ∧ ∀ d, d ≠ c → getCtl t d = getCtl s d

section
variable {s t u : State} {c : Bool × Nat} {m : MemCtl}

theorem ctlBecomes_setCtl (s : State) (m : MemCtl) (hc : c.2 < 16) : CtlBecomes s (setCtl s c m) c m :=
  ⟨getCtl_setCtl_self s m hc, fun _ hd => getCtl_setCtl_ne s m hd⟩

theorem setCtl_fields (s : State) (c : Bool × Nat) (m : MemCtl) :
    setCtl s c m = { s with hbm := (setCtl s c m).hbm, lpc := (setCtl s c m).lpc } := by
  unfold setCtl
  split <;> rfl

theorem setCtl_flash (s : State) (c : Bool × Nat) (m : MemCtl) : (setCtl s c m).flash = s.flash := by
  rw [setCtl_fields]

theorem setCtl_events (s : State) (c : Bool × Nat) (m : MemCtl) : (setCtl s c m).events = s.events ∧ (setCtl s c m).evseq = s.evseq := by
  rw [setCtl_fields]
  exact ⟨rfl, rfl⟩

/-- Reports leave the controllers alone. -/
theorem ButReports.getCtl (h : ButReports u t) (d : Bool × Nat) : getCtl t d = getCtl u d := by
  rw [show t = _ from h]
  rfl

/-- Reports leave the flash alone. -/
theorem ButReports.flash (h : ButReports u t) : t.flash = u.flash := by
  rw [show t = _ from h]

theorem CtlBecomes.butReports (h : CtlBecomes s u c m) (ht : ButReports u t) : CtlBecomes s t c m :=
  ⟨(ht.getCtl c).trans h.1, fun d hd => (ht.getCtl d).trans (h.2 d hd)⟩

/-! ## Counts and events at the end of maintenance -/

/-- A counter other than PAGE_EVENT_MASK does not decide whether an event is emitted. -/
theorem mayEmit_countReg {code page off : Nat} (hr : rising s.regs = true) (bank n : Nat) (ho : off < 0x1000) (hmask : off ≠ Reg.pageEventMask)
    (h : MayEmit s code page) : MayEmit (countReg s bank off n) code page := by
  have hkey : regKey page Reg.pageEventMask ≠ regKey bank off := regKey_ne (by decide) ho fun e => hmask (Prod.mk.inj e).2.symm
  obtain ⟨hroom, hshown⟩ := h
  refine ⟨(countReg_events s bank off n).1 ▸ hroom, ?_⟩
  rw [getReg_countReg_ne hr n hkey]
  exact hshown

theorem emitted_of_evseq {code page : Nat} (he : u.evseq = s.evseq) (h : Emitted u t code page) : Emitted s t code page := by
  unfold Emitted at h ⊢
  rwa [he] at h

/-- What the end of a copy or of a repair does: controller c becomes m, memory and flash stay, and the event is queued. -/
def MaintenanceEnds (s t : State) (c : Bool × Nat) (m : MemCtl) (code : Nat) : Prop :=
  CtlBecomes s t c m ∧ t.mem = s.mem ∧ t.flash = s.flash ∧ Emitted s t code (ctlPage c)

/-- A controller moves on, a register counts, and the event is emitted. -/
theorem setCtl_countReg_emit_ends {code bank off n : Nat} (hr : rising s.regs = true) (hc : c.2 < 16) (ho : off < 0x1000)
    (hmask : off ≠ Reg.pageEventMask) (hmay : MayEmit s code (ctlPage c)) (data : List Byte) :
    MaintenanceEnds s (emit (countReg (setCtl s c m) bank off n) code (ctlPage c) data) c m code := by
  have hreports : ButReports (setCtl s c m) (emit (countReg (setCtl s c m) bank off n) code (ctlPage c) data) :=
    ((ButReports.refl _).countReg bank off n).emit code _ data
  obtain ⟨hevents, hevseq⟩ := setCtl_events s c m
  have hmoved : MayEmit (setCtl s c m) code (ctlPage c) := mayEmit_congr (setCtl_regs s c m) hevents hmay
  have hcounted : MayEmit (countReg (setCtl s c m) bank off n) code (ctlPage c) :=
    mayEmit_countReg ((setCtl_regs s c m).symm ▸ hr) bank n ho hmask hmoved
  exact ⟨(ctlBecomes_setCtl s m hc).butReports hreports, hreports.mem.trans (setCtl_mem s c m), hreports.flash.trans (setCtl_flash s c m),
    emitted_of_evseq ((countReg_events _ bank off n).2.trans hevseq) (emit_emitted hcounted data)⟩

end

/-! ## Scrub (R261) -/

/-- What a read meets depends on the injection registers alone. -/
theorem injected_setCtl (s : State) (c : Bool × Nat) (m : MemCtl) (a : Nat) (ecc : Ecc) :
    (injected (setCtl s c m) a ecc).2 = (injected s a ecc).2 := by
  simp only [injected, getReg_setCtl, apply_ite Prod.snd]

/-- The controller of a tier once it has scrubbed one more unit. -/
def scrubbed (hbm : Bool) (m : MemCtl) : MemCtl :=
  { m with scrubbing := true, scrubPos := (m.scrubPos + 1) % scrubUnits hbm, scrubDone := m.scrubDone + 1 }

section
variable {s : State} {i : Fin 16}

/-- A scrub whose read is clean moves its controller on and changes nothing else. -/
theorem exec_scrub_clean {hbm : Bool} (o : Bool)
    (h : injected s (scrubAddr hbm i (getCtl s (hbm, i.val)).scrubPos) .clean = (s, .clean)) :
    exec (.scrub hbm i .clean o) s = .next (setCtl s (hbm, i.val) (scrubbed hbm (getCtl s (hbm, i.val)))) := by
  have hclean := (injected_setCtl s (hbm, i.val) (scrubbed hbm (getCtl s (hbm, i.val))) _ .clean).trans (congrArg Prod.snd h)
  exact congrArg Host.Outcome.next (ctlRead_clean hclean)

/-! ## Ends of copies and repairs (R263, R264, R266, R267) -/

/-- A controller of HBM3E whose copied row is served from a spare. -/
def rowMoved (m : MemCtl) (row : Nat) : MemCtl := { m with rowCopy := none, spares := m.spares ++ [row] }

/-- A controller of HBM3E whose copied pseudo-channel p is served from larder slot k. -/
def pcMoved (m : MemCtl) (p k : Nat) : MemCtl := { m with migrating := none, pcs := m.pcs ++ [(p, k)] }

/-- The repairs left in each channel once channel j has used one. -/
def repairUsed (left : Vector Nat 4) (j : Nat) : Vector Nat 4 :=
  Vector.ofFn fun x => (left.toList.zipIdx.map fun y => if y.2 = j then y.1 - 1 else y.1).getD x.val 0

theorem repairUsed_get (left : Vector Nat 4) (j : Nat) (x : Fin 4) : (repairUsed left j)[x] = if x.val = j then left[x] - 1 else left[x] := by
  simp [repairUsed, List.getD_eq_getElem?_getD]

/-- A controller of LPDDR5X whose row of channel j is repaired. -/
def rowRepaired (m : MemCtl) (j row : Nat) : MemCtl :=
  { m with repairing := none, spares := m.spares ++ [row], repairsLeft := repairUsed m.repairsLeft j }

/-- The flash once a stack's row is entered in it (R267). -/
def rowLogged (f : Flash) (stack row : Nat) : Flash := { f with rows := f.rows ++ [(stack, row)], writes := f.writes + 1 }

/-- A stack's row copy ends: its stall adds to the loss (R320), and ROW_RETIRED is emitted. -/
theorem exec_rowCopyComplete {row : Nat} (h : (getCtl s (true, i.val)).rowCopy = some row) :
    ∃ n data, exec (.rowCopyComplete i) s = .next (emit
      (countReg (setCtl { s with flash := rowLogged s.flash i row, free := s.free + 1 } (true, i.val) (rowMoved (getCtl s (true, i.val)) row))
        faultPage Reg.fltLossNs n) evRowRetired (hbmcPage i) data) := by
  rw [show exec (.rowCopyComplete i) s = execRowCopyComplete i s from rfl, execRowCopyComplete]
  simp only [h]
  exact ⟨_, _, rfl⟩

/-- A larder copy ends with no unit found bad: its stall adds to the loss (R320), and PC_RETIRED is emitted. -/
theorem exec_larderCopyComplete_clean {p k : Nat} (h : (getCtl s (true, i.val)).migrating = some (p, k)) :
    ∃ n data, exec (.larderCopyComplete i []) s = .next (emit
      (countReg (setCtl { s with free := s.free + 1 } (true, i.val) (pcMoved (getCtl s (true, i.val)) p k)) faultPage Reg.fltLossNs n)
      evPcRetired (hbmcPage i) data) := by
  rw [show exec (.larderCopyComplete i []) s = execLarderCopyComplete i [] s from rfl, execLarderCopyComplete]
  simp only [h]
  exact ⟨_, _, rfl⟩

/-- A package's repair ends: it is counted, and ROW_RETIRED is emitted. -/
theorem exec_repairComplete {j row : Nat} (h : (getCtl s (false, i.val)).repairing = some (j, row)) :
    ∃ data, exec (.repairComplete i) s = .next (emit
      (countReg (setCtl s (false, i.val) (rowRepaired (getCtl s (false, i.val)) j row)) (lpcPage i) Reg.lpcRepairs 1)
      evRowRetired (lpcPage i) data) := by
  rw [show exec (.repairComplete i) s = execRepairComplete i s from rfl, execRepairComplete]
  simp only [h]
  exact ⟨_, rfl⟩

/-- R263, R267: the flash is written, and the row is served from the spare. -/
theorem rowCopyComplete_answers {row : Nat} (hr : rising s.regs = true) (h : (getCtl s (true, i.val)).rowCopy = some row)
    (hmay : MayEmit s evRowRetired (hbmcPage i)) : Answers (.rowCopyComplete i) s
      (MaintenanceEnds { s with flash := rowLogged s.flash i row } · (true, i.val) (rowMoved (getCtl s (true, i.val)) row) evRowRetired) := by
  obtain ⟨n, data, hexec⟩ := exec_rowCopyComplete h
  exact ⟨_, hexec, setCtl_countReg_emit_ends (s := { s with flash := rowLogged s.flash i row, free := s.free + 1 }) (c := (true, i.val))
    hr i.isLt (by decide) (by decide) hmay data⟩

/-- R264: the pseudo-channel is served from the larder. -/
theorem larderCopyComplete_answers {p k : Nat} (hr : rising s.regs = true) (h : (getCtl s (true, i.val)).migrating = some (p, k))
    (hmay : MayEmit s evPcRetired (hbmcPage i)) : Answers (.larderCopyComplete i []) s
      (MaintenanceEnds s · (true, i.val) (pcMoved (getCtl s (true, i.val)) p k) evPcRetired) := by
  obtain ⟨n, data, hexec⟩ := exec_larderCopyComplete_clean h
  exact ⟨_, hexec, setCtl_countReg_emit_ends (s := { s with free := s.free + 1 }) (c := (true, i.val))
    hr i.isLt (by decide) (by decide) hmay data⟩

/-- R266: the repair is used up in its channel and counted, and the row is served from the spare. -/
theorem repairComplete_answers {j row : Nat} (hr : rising s.regs = true) (h : (getCtl s (false, i.val)).repairing = some (j, row))
    (hmay : MayEmit s evRowRetired (lpcPage i)) : Answers (.repairComplete i) s (fun t =>
      MaintenanceEnds s t (false, i.val) (rowRepaired (getCtl s (false, i.val)) j row) evRowRetired ∧
      getReg t (lpcPage i) Reg.lpcRepairs = satAdd (regWidth (lpcPage i) Reg.lpcRepairs) (getReg s (lpcPage i) Reg.lpcRepairs) 1) := by
  obtain ⟨data, hexec⟩ := exec_repairComplete h
  refine ⟨_, hexec, setCtl_countReg_emit_ends (c := (false, i.val)) hr i.isLt (by decide) (by decide) hmay data, ?_⟩
  have hmoved : rising (setCtl s (false, i.val) (rowRepaired (getCtl s (false, i.val)) j row)).regs = true := (setCtl_regs ..).symm ▸ hr
  have hkept := (StoreKept.refl (offs := [Reg.portTxFrames, Reg.vyvEventsLost]) (countReg_rising hmoved (lpcPage i) Reg.lpcRepairs 1)).emit
    (by decide) (by decide) evRowRetired (lpcPage i) data
  rw [hkept.getReg_counted hmoved (by decide) (by decide), getReg_setCtl]

/-! ## HBM_RETIRE_ROW (R270) -/

/-- The row of HBM_RETIRE_ROW. -/
def hbmRetireRowRow : RegDesc := ⟨"HBM_RETIRE_ROW", Reg.hbmRetireRow, 1, 0, true, .rwx, 0xFFFFFFFFFFFFFFFF, 0x0⟩

theorem regAt_hbmRetireRow (i : Fin 16) : regAt (hbmcPage i) Reg.hbmRetireRow = some hbmRetireRowRow := by
  rw [regAt, regDesc, bankRegs_hbmcPage]
  rfl

theorem writeReg_hbmRetireRow (s : State) (i : Fin 16) (v : Nat) : writeReg s (hbmcPage i) Reg.hbmRetireRow v = hbmRetireRow s i v := by
  have hham : isHamperPage (hbmcPage i) = false := decide_eq_false (by unfold hbmcPage; omega)
  have harb : inArbBlock (hbmcPage i) Reg.hbmRetireRow = false := Bool.and_false _
  rw [writeReg, typeInst, pageType_hbmcPage, Option.getD_some, hham, harb]
  rfl

/-- An expert register is written while its page is unlocked, and denied otherwise (R15, R17). -/
theorem regWrite_expert {rq : Requester} {addr page off v : Nat} {wide : Bool} {d : RegDesc} (h : accessAt s addr wide = .reg page off d)
    (hd : d.acc = .rwx) : (regWrite s rq addr wide v).1 =
      expertOnly s page fun s => writeReg s page off (v % 2 ^ (if wide then 64 else 32) &&& d.mask) := by
  simp only [regWrite, h, hd, expertOnly]
  split <;> rfl

theorem exec_hbmRetireRow (v : Word) :
    exec (.hbmRetireRow i v) s = .next (expertOnly s (hbmcPage i) fun s => hbmRetireRow s i v.toNat) := by
  have hlow : hbmcPage i < 0x100 := by unfold hbmcPage; omega
  have hacc : accessAt s (regAddr (hbmcPage i) Reg.hbmRetireRow) true = .reg (hbmcPage i) Reg.hbmRetireRow hbmRetireRowRow := by
    rw [accessAt_regAddr (pagePresent_of_type s (pageType_hbmcPage i) hlow) (Nat.lt_trans hlow (by decide)) (by decide),
      accessIn_of_regAt (by decide) (regAt_hbmRetireRow i)]
    rfl
  have hv : v.toNat % 2 ^ 64 &&& hbmRetireRowRow.mask = v.toNat :=
    (mod_and_lowMask v.toNat (k := 64) rfl (Nat.le_refl 64)).trans (Nat.mod_eq_of_lt v.isLt)
  show Host.Outcome.next (regWrite s .host (regAddr (hbmcPage i) Reg.hbmRetireRow) true v.toNat).1 = _
  rw [regWrite_expert hacc rfl]
  simp only [if_true, hv, writeReg_hbmRetireRow]

/-- The addresses and states in which HBM_RETIRE_ROW is refused: another stack's address, a copy that runs, and a pseudo-channel the larder
serves (log entry 31). -/
def RetireRefused (m : MemCtl) (i a : Nat) : Prop :=
  hbmEnd ≤ a ∨ stackOf a ≠ i ∨ m.rowCopy.isSome = true ∨ m.migrating.isSome = true ∨ m.pcs.any (fun x => x.1 == pcOf a) = true

theorem hbmRetireRow_refused {c a : Nat} (h : RetireRefused (getCtl s (true, c)) c a) : hbmRetireRow s c a = setErr s (hbmcPage c) 4 := if_pos h

theorem hbmRetireRow_taken {c a : Nat} (h : ¬ RetireRefused (getCtl s (true, c)) c a) : hbmRetireRow s c a = retireCounted s c (rowKey a) :=
  if_neg h

/-- A row with a spare left in its bank, of a pseudo-channel with fewer than four rows retired, begins to be copied (R263). -/
theorem retireRow_spare {c row : Nat} (hpc : pcRows (getCtl s (true, c)) (rowPc row) < 4)
    (hbank : (getCtl s (true, c)).spares.countP (fun k => k / 24576 == row / 24576) < 4) :
    retireRow s c row = setCtl s (true, c) { getCtl s (true, c) with rowCopy := some row } := by
  simp only [retireRow, if_neg (Nat.not_le.2 hpc), if_neg (Nat.not_le.2 hbank)]

/-- The event of a row retired is a report alone, so the controller then starts from where it stood. -/
theorem retireCounted_spare {c row : Nat} (hc : c < 16) (hpc : pcRows (getCtl s (true, c)) (rowPc row) < 4)
    (hbank : (getCtl s (true, c)).spares.countP (fun k => k / 24576 == row / 24576) < 4) :
    CtlBecomes s (retireCounted s c row) (true, c) { getCtl s (true, c) with rowCopy := some row } ∧ (retireCounted s c row).mem = s.mem := by
  unfold retireCounted
  generalize hu : faultCounted s _ _ 5 = u
  have hreports : ButReports s u := hu ▸ (ButReports.refl s).emit _ _ _
  have hsame := hreports.getCtl (true, c)
  rw [retireRow_spare (hsame.symm ▸ hpc) (hsame.symm ▸ hbank), hsame]
  obtain ⟨hself, hothers⟩ := ctlBecomes_setCtl u (c := (true, c)) { getCtl s (true, c) with rowCopy := some row } hc
  exact ⟨⟨hself, fun d hd => (hothers d hd).trans (hreports.getCtl d)⟩, (setCtl_mem ..).trans hreports.mem⟩

end

/-- Settles O43: each clause is the rule of its command; the ends of copies and repairs share one, and HBM_RETIRE_ROW acts on an unlocked page. -/
theorem memoryMaintenanceTakesEffect : Obligations.MemoryMaintenanceTakesEffect := by
  unfold Obligations.MemoryMaintenanceTakesEffect
  intro s i hbm hs
  obtain ⟨-, hr, -⟩ := safe_tables hs
  dsimp only
  refine ⟨fun o hclean => ?_, fun row hcopy hmay => ?_, fun p k hcopy hmay => ?_, fun j row hrepair _ hmay => ?_, fun v =>
    ⟨fun hlocked => ?_, fun hopen hbad => ?_, fun hopen hgood hpc hbank => ?_⟩⟩
  · obtain ⟨hself, hothers⟩ := ctlBecomes_setCtl s (c := (hbm, i.val)) (scrubbed hbm (getCtl s (hbm, i.val))) i.isLt
    exact ⟨_, exec_scrub_clean o hclean, setCtl_fields .., fun _ _ hne => hothers _ hne, hself⟩
  · obtain ⟨t, hexec, ⟨hself, hothers⟩, hmem, hflash, hemitted⟩ := rowCopyComplete_answers hr hcopy hmay
    exact ⟨t, hexec, hself, fun _ _ hne => hothers _ hne, hmem, hflash, hemitted⟩
  · obtain ⟨t, hexec, ⟨hself, hothers⟩, hmem, -, hemitted⟩ := larderCopyComplete_answers hr hcopy hmay
    exact ⟨t, hexec, hself, fun _ _ hne => hothers _ hne, hmem, hemitted⟩
  · obtain ⟨t, hexec, ⟨⟨hself, hothers⟩, hmem, -, hemitted⟩, hcount⟩ := repairComplete_answers hr hrepair hmay
    exact ⟨t, hexec, congrArg MemCtl.repairing hself, congrArg MemCtl.spares hself, fun x => hself ▸ repairUsed_get _ j x,
      fun _ _ hne => hothers _ hne, hmem, hemitted, hcount⟩
  · exact ⟨_, exec_hbmRetireRow v, by rw [expertOnly, hlocked]; exact setErr_errorOnly hr _ _⟩
  · exact ⟨_, exec_hbmRetireRow v, by rw [expertOnly, if_pos hopen, hbmRetireRow_refused hbad]; exact setErr_errorOnly hr _ _⟩
  · obtain ⟨⟨hself, hothers⟩, hmem⟩ := retireCounted_spare i.isLt hpc hbank
    refine ⟨_, exec_hbmRetireRow v, ?_⟩
    rw [expertOnly, if_pos hopen, hbmRetireRow_taken hgood]
    exact ⟨hself, fun _ _ hne => hothers _ hne, hmem⟩

end Sys2Proof.Machine
end

section
/-!
The site count (R290, R298, R341): one rule for a measurement, which SC_MEASUREMENT, PTP_MESSAGE and SYNC share, in two outcomes: the servo slews
the count, or the count is stepped and the step reported; and the event of a change that writes no register but its own.
-/
namespace Sys2Proof.Machine

/-! ## Events after a change of registers -/

/-- The registers that an EVENT writes: the frames sent on its port, and the events lost. -/
def eventOffs : List Nat := [Reg.portTxFrames, Reg.vyvEventsLost]

section
variable {s t u : State} {offs : List Nat} {code page : Nat}

/-- Reports leave the site count alone. -/
theorem ButReports.sc (h : ButReports u t) : t.sc = u.sc := by
  rw [show t = _ from h]

/-- An event that might be emitted from s is queued from u, when u has the queue of s and every PAGE_EVENT_MASK (R358, R359, R468). -/
theorem StoreKept.emitted (h : StoreKept offs s u) (hmask : Reg.pageEventMask ∉ offs) (hevents : u.events = s.events)
    (hevseq : u.evseq = s.evseq) (hmay : MayEmit s code page) (data : List Byte) : Emitted s (Machine.emit u code page data) code page := by
  obtain ⟨hroom, hshown⟩ := hmay
  refine emitted_of_evseq hevseq (emit_emitted ⟨hevents ▸ hroom, ?_⟩ data)
  rw [h.regs page _ (by decide) hmask]
  exact hshown

/-- An error bit, set or not, leaves the other fields alone. -/
theorem setErrIf_fields (c : Bool) (s : State) (page b : Nat) : setErrIf c s page b = { s with regs := (setErrIf c s page b).regs } := by
  cases c with
  | false => rfl
  | true => rfl

/-- An error bit, set or not, writes PAGE_ERR and its count at most (R466). -/
theorem StoreKept.setErrIf (h : StoreKept offs s t) (c : Bool) (page b : Nat) (he : Reg.pageErr ∈ offs) (hc : Reg.pageErrCount ∈ offs) :
    StoreKept offs s (setErrIf c t page b) := by
  cases c with
  | false => exact h
  | true => exact h.setErr page b he hc

/-- A change of the site count writes no register. -/
theorem StoreKept.modSc (h : StoreKept offs s t) (f : SiteCount → SiteCount) : StoreKept offs s (modSc t f) :=
  h.of_eq rfl rfl rfl rfl

end

/-! ## Measurements (R290) -/

section
variable {s : State} {o : Int}

/-- The offsets in a row within the lock window after a measurement o; they start anew when measurements return (R290). -/
def measuredStreak (s : State) (o : Int) : Nat :=
  if decide (o.natAbs ≤ scWindow s) then (if s.sc.sync = .holdover ∨ s.sc.sync = .unlocked then 1 else s.sc.streak + 1) else 0

/-- The site count once an offset is taken into it, before it is corrected by it (R290). -/
def measuredSc (s : State) (o : Int) : SiteCount :=
  { s.sc with offset := o, streak := measuredStreak s o, sync := nextSync s.sc.sync (measuredStreak s o) }

/-- A source other than 1PPS sets no count: its offset is taken, and beyond SC_STEP_LIMIT steps the count (R290, R298). -/
theorem measure_eq (h : s.sc.src ≠ 3) (o : Int) : measure s o =
    if getReg s scPage Reg.scStepLimit < o.natAbs then stepCount (modSc s fun _ => measuredSc s o) o
    else servoFreq (modSc s fun _ => measuredSc s o) := by
  have hstreak : measuredStreak s o = if decide (o.natAbs ≤ scWindow s) then
      (if decide (s.sc.sync = .holdover ∨ s.sc.sync = .unlocked) then 1 else s.sc.streak + 1) else 0 := by
    simp only [measuredStreak, decide_eq_true_eq]
  rw [measuredSc, hstreak]
  unfold measure
  simp only [h, decide_false, Bool.false_eq_true, if_false]
  rfl

/-- The servo draws one correction, within ±100 ppm (R290). -/
theorem servoFreq_slews (s : State) :
    ∃ f : Int, f.natAbs ≤ 100000000 ∧ servoFreq s = { s with free := s.free + 1, sc := { s.sc with freq := f } } := by
  refine ⟨((Config.freeNat s.free % 200000001 : Nat) : Int) - 100000000, ?_, rfl⟩
  have hlt : Config.freeNat s.free % 200000001 < 200000001 := Nat.mod_lt _ (by decide)
  omega

/-- An offset up to SC_STEP_LIMIT is slewed off: the count itself goes on (R290). -/
theorem measure_slews (h : s.sc.src ≠ 3) (ho : o.natAbs ≤ getReg s scPage Reg.scStepLimit) :
    ∃ f : Int, f.natAbs ≤ 100000000 ∧ measure s o = { s with free := s.free + 1, sc := { measuredSc s o with freq := f } } := by
  rw [measure_eq h, if_neg (Nat.not_lt.2 ho)]
  exact servoFreq_slews (modSc s fun _ => measuredSc s o)

/-- A step of the count by o, counted in SC_STEPS and told in COUNT_STEPPED (R290). -/
structure CountSteps (s t : State) (c : SiteCount) (o : Int) : Prop where
  sc : t.sc = { c with count := ((c.count : Int) + o).toNat % 2 ^ 64 }
  counted : getReg t scPage Reg.scSteps = satAdd (regWidth scPage Reg.scSteps) (getReg s scPage Reg.scSteps) 1
  emitted : MayEmit s evCountStepped scPage → Emitted s t evCountStepped scPage

theorem stepCount_steps (hr : rising s.regs = true) (c : SiteCount) (o : Int) :
    CountSteps s (stepCount (modSc s fun _ => c) o) c o := by
  unfold stepCount
  extract_lets moved counted noted
  have hmoved : StoreKept [Reg.scSteps, Reg.pageErr, Reg.pageErrCount] s moved := ((StoreKept.refl hr).modSc _).modSc _
  have hnoted : StoreKept [Reg.scSteps, Reg.pageErr, Reg.pageErrCount] s noted :=
    (hmoved.countReg _ 1 (by decide) (by decide)).setErrIf _ _ _ (by decide) (by decide)
  have hreported : StoreKept (Reg.pageErr :: Reg.pageErrCount :: eventOffs) counted
      (emit noted evCountStepped scPage (bytesLE 8 (ofSigned 64 o))) :=
    ((StoreKept.refl (countReg_rising hmoved.rising _ _ _)).setErrIf _ _ _ (by decide) (by decide)).emit (by decide) (by decide) _ _ _
  have hfields : noted = { moved with regs := noted.regs } := setErrIf_fields (decide (o < 0)) counted scPage 1
  constructor
  case sc => exact ((ButReports.refl noted).emit _ _ _).sc.trans (congrArg State.sc hfields)
  case counted => exact hreported.getReg_counted hmoved.rising (by decide) (by decide)
  case emitted =>
    exact fun hmay => hnoted.emitted (by decide) (by rw [hfields]; rfl) (by rw [hfields]; rfl) hmay _

/-- An offset beyond SC_STEP_LIMIT steps the count (R290). -/
theorem measure_steps (hr : rising s.regs = true) (h : s.sc.src ≠ 3) (ho : ¬ o.natAbs ≤ getReg s scPage Reg.scStepLimit) :
    CountSteps s (measure s o) (measuredSc s o) o := by
  rw [measure_eq h, if_pos (Nat.not_le.1 ho)]
  exact stepCount_steps hr _ o

/-! ### The commands that measure -/

theorem exec_scMeasurement (h : s.sc.src ≠ 0) (o : Int) : exec (.scMeasurement o) s = .next (measure s o) :=
  congrArg Host.Outcome.next (if_neg h)

theorem exec_scMeasurement_free (h : s.sc.src = 0) (o : Int) : exec (.scMeasurement o) s = .next s :=
  congrArg Host.Outcome.next (if_pos h)

/-- A Sync of the selected port's domain, with PTP enabled there, is a measurement (R290, R341). -/
theorem exec_ptpMessage_sync {p : Fin 10} {d : BitVec 8} (hp : p.val < 2) (hsrc : s.sc.src = p.val + 1)
    (hon : (getReg s (portPage p) Reg.portPtp).testBit 9 = true) (hdom : getReg s (portPage p) Reg.portPtp % 256 = d.toNat) (o : Int) :
    exec (.ptpMessage p .sync d o) s = .next (measure s o) :=
  congrArg Host.Outcome.next (if_pos ⟨hp, rfl, hsrc, hon, hdom⟩)

/-- A timestamp exchange on the selected near port, its session up, is a measurement (R290). -/
theorem exec_sync {m : Fin 256} {x : NearSession} (hx : nearSess s m = some x) (hup : x.up = true) (hsrc : s.sc.src = 4)
    (hport : x.port = 2 + s.sc.near) (o : Int) : exec (.sync m o) s = .next (measure s o) := by
  show execSync m o s = _
  rw [execSync, hx]
  simp only [hup, hsrc, hport, decide_true, Bool.and_self, if_true]

/-! ## Loss of the source and holdover (R290) -/

/-- The site count in holdover: the streak is broken, and no edge of 1PPS has been seen since. -/
def heldOver (c : SiteCount) : SiteCount := { c with sync := .holdover, streak := 0, ppsSeen := false }

theorem exec_sourceLost (h : s.sc.src ≠ 0) (hsync : s.sc.sync = .acquiring ∨ s.sc.sync = .locked) :
    exec .sourceLost s = .next (emit (setErr (modSc s heldOver) scPage 0) evSourceLost scPage []) :=
  congrArg Host.Outcome.next (if_pos ⟨h, hsync⟩)

/-- A lost source leaves holdover, an error bit and an event (R290). -/
theorem sourceLost_holdsOver (hr : rising s.regs = true) :
    let t := emit (setErr (modSc s heldOver) scPage 0) evSourceLost scPage []
    t.sc = heldOver s.sc ∧ Flagged s t scPage 0 ∧ (MayEmit s evSourceLost scPage → Emitted s t evSourceLost scPage) := by
  have hlost : StoreKept [] s (modSc s heldOver) := (StoreKept.refl hr).modSc _
  have hmarked : StoreKept [Reg.pageErr, Reg.pageErrCount] s (setErr (modSc s heldOver) scPage 0) :=
    ((StoreKept.refl hr).modSc _).setErr _ _ (by decide) (by decide)
  have htold : StoreKept eventOffs (setErr (modSc s heldOver) scPage 0) (emit (setErr (modSc s heldOver) scPage 0) evSourceLost scPage []) :=
    (StoreKept.refl hmarked.rising).emit (by decide) (by decide) _ _ _
  exact ⟨((ButReports.refl _).emit _ _ _).sc, flagged_of_storeKept hlost htold (by decide) (by decide),
    fun hmay => hmarked.emitted (by decide) rfl rfl hmay _⟩

theorem exec_holdoverLimit (h : s.sc.sync = .holdover) :
    exec .holdoverLimit s = .next { s with sc := { s.sc with sync := .unlocked } } :=
  congrArg Host.Outcome.next (if_pos h)

theorem exec_holdoverLimit_other (h : s.sc.sync ≠ .holdover) : exec .holdoverLimit s = .next s :=
  congrArg Host.Outcome.next (if_neg h)

/-! ## SC_SOURCE and SC_SET (R298) -/

/-- A source selected anew: SRC and NEAR_PORT stand in SC_SOURCE, and lock starts over. -/
theorem scSourceWrite_selects (hr : rising s.regs = true) (v : Nat) :
    let t := scSourceWrite s v
    t = { s with regs := t.regs, sc := t.sc } ∧
    t.sc = { s.sc with src := v % 8, near := v / 16 % 8, streak := 0, pendingSet := none, sync := if v % 8 = 0 then .free else .acquiring } ∧
    getReg t scPage Reg.scSource = v % 128 ∧ KeepsRegs s t [regKey scPage Reg.scSource] := by
  obtain ⟨-, hreg, hkeeps⟩ := setReg_setsOnly hr scPage Reg.scSource (v % 128)
  refine ⟨rfl, ?_, hreg, hkeeps⟩
  rw [scSourceWrite, bits_low v 2, bits_eq_div_mod v 6 4]
  rfl

theorem scSetWrite_free (h : s.sc.src = 0) (v : Word) : scSetWrite s v.toNat = { s with sc := { s.sc with count := v.toNat } } := by
  rw [scSetWrite, if_pos h, Nat.mod_eq_of_lt v.isLt]
  rfl

/-- With 1PPS selected the value waits for the next edge. -/
theorem scSetWrite_pps (h : s.sc.src = 3) (v : Word) :
    scSetWrite s v.toNat = { s with sc := { s.sc with pendingSet := some v.toNat } } := by
  rw [scSetWrite, if_neg (by rw [h]; decide), if_pos h, Nat.mod_eq_of_lt v.isLt]
  rfl

theorem scSetWrite_refused (h0 : s.sc.src ≠ 0) (h3 : s.sc.src ≠ 3) (v : Nat) : scSetWrite s v = setErr s scPage 4 := by
  rw [scSetWrite, if_neg h0, if_neg h3]

/-- SC_SET is an expert register of the page (R298). -/
theorem scSet_answers {post : State → Prop} (hr : rising s.regs = true) (v : Word) (hpost : post (scSetWrite s v.toNat)) :
    ExpertAnswers s scPage (.scSet v) post :=
  expertOnly_answers (f := fun s => scSetWrite s v.toNat) hr rfl hpost

end

/-- Settles O45: the three commands that measure share the two rules of a measurement, whose nextSync the statement writes out, and every other
clause is the rule of its command. -/
theorem siteCountIsMeasuredAndSet : Obligations.SiteCountIsMeasuredAndSet := by
  unfold Obligations.SiteCountIsMeasuredAndSet
  intro s o hs
  obtain ⟨-, hr, -⟩ := safe_tables hs
  extract_lets k taken small c slewed stepped
  have hslews (h3 : s.sc.src ≠ 3) (ho : small) : slewed (measure s o) := measure_slews h3 ho
  have hsteps (h3 : s.sc.src ≠ 3) (ho : ¬ small) : stepped (measure s o) := by
    obtain ⟨hcount, hcounted, hemitted⟩ := measure_steps hr h3 ho
    exact ⟨hcount, hcounted, hemitted⟩
  refine ⟨fun h0 h3 => ⟨fun ho => ⟨_, exec_scMeasurement h0 o, hslews h3 ho⟩, fun ho => ⟨_, exec_scMeasurement h0 o, hsteps h3 ho⟩⟩,
    fun h0 => ⟨_, exec_scMeasurement_free h0 o, rfl⟩,
    fun p d hp hsrc h3 hon hdom ho => ⟨_, exec_ptpMessage_sync hp hsrc hon hdom o, hslews h3 ho⟩,
    fun m x hx hup hsrc hport ho => ⟨_, exec_sync hx hup hsrc hport o, hslews (by rw [hsrc]; decide) ho⟩,
    fun h0 hsync => ⟨_, exec_sourceLost h0 hsync, sourceLost_holdsOver hr⟩,
    fun hsync => ⟨_, exec_holdoverLimit hsync, rfl⟩,
    fun hsync => ⟨_, exec_holdoverLimit_other hsync, rfl⟩,
    fun v => ⟨_, rfl, scSourceWrite_selects hr v.toNat⟩,
    fun v hopen => ⟨fun h0 => ?_, fun h3 => ?_, fun h0 h3 => ?_⟩,
    fun v hlocked => (scSet_answers (post := fun _ => True) hr v trivial).1 hlocked⟩
  · exact (scSet_answers hr v (scSetWrite_free h0 v)).2 hopen
  · exact (scSet_answers hr v (scSetWrite_pps h3 v)).2 hopen
  · exact (scSet_answers hr v (scSetWrite_refused h0 h3 v.toNat ▸ setErr_errorOnly hr scPage 4)).2 hopen

end Sys2Proof.Machine
end
